-- ==== Sys2Proof/Word.lean ====
section
/-!
DEFINITION. The word types of the model: a byte, a 64-bit word (every register, header word and descriptor word), and the
sparse table that holds every indexed group of the block's state.
-/
namespace Sys2Proof

/-- One byte. -/
abbrev Byte := BitVec 8

/-- One 64-bit word. A 32-bit register is held in its low half. -/
abbrev Word := BitVec 64

/-- A sparse table: entries by rising index, none equal to what an unlisted index reads as. -/
abbrev Tbl (α : Type) := List (Nat × α)

end Sys2Proof
end

