-- ==== Sys2Proof/Operand.lean ====
section
/-!
DEFINITION. The data a command carries: packets, read results, frames, ECC findings.
-/
namespace Sys2Proof

/-- A Kilpin Transport packet: the eight header words of R184 (spec/06_transport.md), the payload, the trailer flit when ENC
is set (empty otherwise), and whether it arrived marked poisoned (R190, R261). -/
structure Packet where
  w0 : Word
  w1 : Word
  w2 : Word
  w3 : Word
  w4 : Word
  w5 : Word
  w6 : Word
  w7 : Word
  pay     : List Byte
  trailer : List Byte
  poison  : Bool
  deriving DecidableEq, Repr

/-- Eight descriptor words (R151, R174). -/
structure Desc where
  w0 : Word
  w1 : Word
  w2 : Word
  w3 : Word
  w4 : Word
  w5 : Word
  w6 : Word
  w7 : Word
  deriving DecidableEq, Repr

/-- A flit of a link as it comes in (R129): its payload, whether its FLIT CRC passed, and whether the ECRC over it holds where it is checked.
The replayed copy of a flit that failed follows it. -/
structure LinkFlit where
  bytes  : List Byte
  passed : Bool
  ecrcOk : Bool
  deriving DecidableEq, Repr

/-- An address in the BARs of a link's functions: the link that carries the access, 0 the host's, and the place in its address space (R114).
(log entry 5) -/
structure BarAddr where
  link : Nat
  off  : Nat
  deriving DecidableEq, Repr

/-- What the far side has set in the configuration space of a link's functions by the time the link is up: whether FetchAdd and CAS may be used,
the completion timeout of Device Control 2 in ns, and whether the ECRC is checked (R111, R131). (log entry 127) -/
structure LinkSet where
  atomicOk : Bool
  timeout  : Nat
  ecrc     : Bool
  deriving DecidableEq, Repr

/-- What came back for a read on a link (R131): data, poisoned data, or Unsupported Request / Completer Abort. -/
inductive RdResult where
  | data (flits : List LinkFlit)
  | poisoned
  | unsupported
  deriving DecidableEq, Repr

/-- An error that has come about in one stored 64 B line by the time a command comes (R83): the physical line number, and whether the code can
correct it. The check finds it when the line is next read (R101, R102). (log entry 129) -/
structure EccHit where
  line      : Nat
  corrected : Bool
  deriving DecidableEq, Repr

/-- A mismatch between the two pipelines of an AES core during a command (R463): the core, whether the job was a line under XTS,
and for such a line whether the repetition on another core disagreed too. -/
structure AesHit where
  core  : Nat
  xts   : Bool
  again : Bool
  deriving DecidableEq, Repr

/-- A frame an Ethernet port receives (R379): its bytes from the destination address through the FCS, whether the PCS reported an
error within it, whether the PCS ended it early, and whether its CRC-64 will fail at placement (R392). -/
structure EthFrame where
  bytes   : List Byte
  codeErr : Bool
  ended   : Bool
  crcBad  : Bool
  deriving DecidableEq, Repr

/-- A codeword a fabric port receives (R256 to R258): its ten flit slots, the 20-bit control field, whether symbols were corrected,
and whether the decoder failed. -/
structure Codeword where
  slots     : List (List Byte)
  ctl       : Nat
  corrected : Bool
  failed    : Bool
  deriving DecidableEq, Repr

/-- What a start finds (R2, R436, R437, R439, R445): the word of LAMP_POPULATION that discovery gives; the units whose start-up test
fails, as KIND and UNIT of R449 with what the test found; the 2 MiB blocks that fail the pattern test, as stack and block; whether the
counter record could be written and read back; whether the image area could be read; and the reference clocks that are absent, 0 the
100 MHz one, 1 the optical one (R485). (log entries 93, 146) -/
structure StartInput where
  pop       : Word
  bad       : List (Nat × Nat × Nat)
  badBlocks : List (Nat × Nat)
  counterOk : Bool
  imageOk   : Bool
  absent    : List Nat := []
  deriving DecidableEq, Repr

/-- A management request over I3C (R33): an admin descriptor, or a register written or read at a BAR0 offset. -/
inductive I3cReq where
  | admin (d : Desc)
  | write (addr width : Nat) (w : Word)
  | read (addr width : Nat)
  deriving DecidableEq, Repr

end Sys2Proof
end

