-- ==== Sys2Proof/Syntax.lean ====
section
/-!
DEFINITION. The commands of the block: one constructor per row of the command table, with the row's operands. Every constructor's first
operand is the local time in ns at which the command comes (R7). A record number `r` names an accepted descriptor or admin command, `k` of a
Keeper message its place among the delivered management messages; `aes` and `hits` say what the AES and ECC checks find while it runs.
-/
namespace Sys2Proof

/-- The commands, in the order of the table. -/
inductive Instr where
  /-- MAIN_PG_RISE (R526). MAIN_PG goes high with the standby rails in tolerance, which starts the 1 ms supply-good wait. -/
  | mainPgRise (t : Nat)
  /-- SUPPLY_GOOD (R437). MAIN_PG has been high for 1 ms and the Lamp room begins a start at step 1. -/
  | supplyGood (t : Nat) (x : StartInput)
  /-- ARRAY_WAVE (R438). At each 40 µs interval the next wave of array groups is powered and its self-test begins. -/
  | arrayWave (t w : Nat) (failed : List (Nat × Nat))
  /-- SELF_TEST_DONE (R437). When start-up testing ends, the Lamp room appends ledger entries, computes measurements and applies the image. -/
  | selfTestDone (t : Nat)
  /-- ENGINE_WAVE (R437). At each 200 µs interval the next pair of optical engines is powered and its ports are enabled. -/
  | engineWave (t : Nat) (failed : List (Nat × Nat))
  /-- SUPPLY_LOSS (R528). A fall of MAIN_PG stops every domain except the Lamp room and is treated as a supply loss. -/
  | supplyLoss (t : Nat)
  /-- STANDBY_LOSS (R528). Loss of a standby rail loses everything except the NOR and the Lamp-room store. -/
  | standbyLoss (t : Nat)
  /-- REF_CLOCK_LOST (R485). Loss of a reference clock is detected; stacks go to RETAIN or engines FAIL, and a record is written. -/
  | refClockLost (t : Nat) (optical : Bool)
  /-- THERMAL_WARN (R488). A die reaching WARN_AT halves the array clocks of the affected half and writes a record. -/
  | thermalWarn (t die temp : Nat)
  /-- THERMAL_WARN_CLEAR (R488). Once the dies concerned are 5 °C below WARN_AT, full array rate returns. -/
  | thermalWarnClear (t : Nat) (cool : List Nat)
  /-- THERMAL_TRIP (R489). A die at its trip limit puts stacks in RETAIN, turns other domains off and sets OUT_OF_SERVICE. -/
  | thermalTrip (t die temp : Nat)
  /-- ENGINE_OVERHEAT (R533). A photonic die reaching 90 °C sets its engine FAILED until the next start. -/
  | engineOverheat (t e temp : Nat)
  /-- IDLE_TIMER_EXPIRY (R481). An idle domain's timer expires and the domain enters RETAIN or OFF according to CEILING. -/
  | idleTimerExpiry (t d : Nat)
  /-- RETAIN_TO_OFF (R481). A domain in RETAIN goes to OFF after a further IDLE_TICKS once OFF is permitted. -/
  | retainToOff (t d : Nat)
  /-- DOMAIN_ON (R487). A waking domain reaches ON, and the work that was waiting on it proceeds. -/
  | domainOn (t d : Nat)
  /-- WAKE_FAILED (R501). A domain that has not reached ON within the maximum wake time is marked FAILED. -/
  | wakeFailed (t d : Nat)
  /-- RTC_ALARM (R486). The RTC reaches LAMP_RTC_ALARM.AT, which powers the domains in PWR_WAKE_SET. -/
  | rtcAlarm (t : Nat)
  /-- LINK_L1_EXIT (R486). A host or accelerator link leaving L1 wakes its port die. -/
  | linkL1Exit (t l : Nat)
  /-- PERST_DEASSERT (R486). Deassertion of PERST# wakes the link's port die and lets the link train. -/
  | perstDeassert (t l : Nat)
  /-- PERST_ASSERT (R118). PERST# or a hot reset resets one link's PHY, controller and configuration space. -/
  | perstAssert (t l : Nat)
  /-- FABRIC_LINK_WAKE (R254). A training pattern arriving on the lane-0 detector of an OFF engine wakes that engine. -/
  | fabricLinkWake (t p : Nat)
  /-- PWR_HOLD_WRITE (R481). Writing 1 to PWR_DOMAIN.HOLD keeps the domain ON and wakes it. -/
  | pwrHoldWrite (t d : Nat) (w : Word)
  /-- LAMP_RESET_WRITE (R491). A write to LAMP_RESET with the key and DEVICE set requests a device reset. -/
  | lampResetWrite (t : Nat) (w : Word) (x : StartInput)
  /-- DEVICE_RESET (R491). The DEVICE_RESET admin command or ORDER requests a device reset and writes no completion. -/
  | deviceReset (t r : Nat) (x : StartInput)
  /-- LAMP_RTC_SET (R484). A write to LAMP_RTC_SET loads a new RTC value. -/
  | lampRtcSet (t v : Nat)
  /-- I3C_REQUEST (R33). A management request from the board management controller over I3C takes effect in order of arrival. -/
  | i3cRequest (t : Nat) (q : I3cReq)
  /-- LINK_DLL_DOWN (R132). A host or accelerator link's data link layer goes down, which is a link loss. -/
  | linkDllDown (t l : Nat)
  /-- LINK_STALL (R133). The stall limit expires, or three fetches fail in a row, and the link is declared lost and disabled. -/
  | linkStall (t l : Nat)
  /-- HST_DETACH (R132). Writing 1 to HST_CTRL.DETACH declares the host link lost. -/
  | hstDetach (t : Nat)
  /-- HST_ATTACH (R136). Writing 1 to HST_CTRL.ATTACH clears LOST and rearms the device admin queue. -/
  | hstAttach (t : Nat)
  /-- HST_ENABLE (R133). Writing 1 to HST_CTRL.ENABLE trains a host link that was disabled for a stall. -/
  | hstEnable (t : Nat)
  /-- ACC_DETACH (R132). Writing 1 to ACC_PORT_CFG.DETACH declares the accelerator port lost. -/
  | accDetach (t n : Nat)
  /-- ACC_ATTACH (R137). Writing 1 to ACC_PORT_CFG.ATTACH clears LOST on the port after re-attachment. -/
  | accAttach (t n : Nat)
  /-- ACC_ENABLE (R133). Writing 1 to ACC_PORT_CFG.ENABLE trains an accelerator port that was disabled for a stall. -/
  | accEnable (t n : Nat)
  /-- FLR (R405). A Function Level Reset of host-link VF p requests a partition reset of p. -/
  | flr (t l f : Nat)
  /-- CXL_MEM_ACCESS (R127). An accelerator's direct CXL.mem load or store to a Gallery page is served, or refused. -/
  | cxlMemAccess (t n a : Nat) (store : Option (List Byte))
  /-- LINK_READ_COMPLETION (R131). A read completion arrives on a link and its data is used, or the reading descriptor fails. -/
  | linkReadCompletion (t tag : Nat) (res : RdResult)
  /-- READ_COMPLETION_TIMEOUT (R131). A read with no completion within the link's completion timeout fails with PORT_ERROR. -/
  | readCompletionTimeout (t tag : Nat)
  /-- FETCH_RETRY_TIMER (R131). 100 µs after a failed descriptor fetch, the same slot is fetched again. -/
  | fetchRetryTimer (t q : Nat) (rq : Bool)
  /-- PLACEMENT_ACCEPTED (R26). The link partner acknowledges the writes of a placed packet, or Grotto commits them, and the packet counts as placed. -/
  | placementAccepted (t id : Nat)
  /-- QP_DOORBELL (R149). A write to a queue-pair doorbell slot sets a new producer index for its send or receive ring. -/
  | qpDoorbell (t l p n len : Nat) (w : Word)
  /-- RING_DOORBELL (R164). A write to a completion-ring doorbell advances HEAD, releases slots and may arm the interrupt. -/
  | ringDoorbell (t l p n len : Nat) (w : Word)
  /-- ADM_SQ_DOORBELL (R150). A write to QMG_ADM_SQ_DB sets the device admin command ring's producer index. -/
  | admSqDoorbell (t pi : Nat)
  /-- ADM_CQ_DOORBELL (R167). A write to QMG_ADM_CQ_DB advances the device admin completion ring's head and may arm it. -/
  | admCqDoorbell (t : Nat) (w : Word)
  /-- QMG_ADM_ENABLE (R437). Writing 1 to QMG_ADM_CFG.ENABLE enables the device admin queue once STAGE allows it. -/
  | qmgAdmEnable (t : Nat) (w : Word)
  /-- QMG_PADM_ENABLE (R173). Writing 1 to QMG_PADM_CFG.ENABLE translates and enables the partition admin queue. -/
  | qmgPadmEnable (t p : Nat) (w : Word)
  /-- DESCRIPTOR_FETCH_RETURN (R156). A fetched slot returns, and it is accepted if current or scheduled for re-fetch if stale. -/
  | descriptorFetchReturn (t tag : Nat) (b : List Byte)
  /-- REFETCH_TIMER (R156). A stale slot's re-fetch delay expires and the slot is fetched again. -/
  | refetchTimer (t q : Nat) (rq : Bool)
  /-- FETCH_RESUME (R155). A slot held waiting for an outstanding count or acceptance record is fetched when room appears. -/
  | fetchResume (t q : Nat) (rq : Bool)
  /-- NOP (R159). A NOP descriptor completes with DONE. -/
  | nop (t r : Nat)
  /-- WRITE (R179). A WRITE copies locally or sends each remote extent as a message. -/
  | write (t r : Nat)
  /-- READ (R212). A READ is split into read requests of at most 64 KiB that reserve response units. -/
  | read (t r : Nat)
  /-- SEND (R179). A SEND carries its source to a remote queue pair as one message with IMM. -/
  | send (t r : Nat)
  /-- RECV (R210). A RECV posts a receive buffer on a queue pair's receive ring. -/
  | recv (t r : Nat)
  /-- ATOMIC (R214). An ATOMIC is sent as one ATOMIC_REQ message, or executed locally. -/
  | atomic (t r : Nat)
  /-- PLACEMENT_FENCE (R162). A fence completes when every covered earlier WRITE, SEND or ATOMIC has finished. -/
  | placementFence (t r : Nat)
  /-- COLLECTIVE (R343). A COLLECTIVE descriptor is checked against the plan and group, and then waits to start an invocation. -/
  | collective (t r : Nat)
  /-- ETH_SEND (R374). ETH_SEND transmits one frame with optional tag insertion and checksum offloads. -/
  | ethSend (t r : Nat)
  /-- ETH_SEGMENT (R377). ETH_SEGMENT cuts a payload into MSS segments, each sent as a frame from a header template. -/
  | ethSegment (t r : Nat)
  /-- ETH_RECV (R378). ETH_RECV posts a buffer for one received frame. -/
  | ethRecv (t r : Nat)
  /-- QP_CREATE (R142). The command creates a queue pair with its rings, class, reservation and number. -/
  | qpCreate (t r : Nat)
  /-- QP_DESTROY (R147). The command stops fetching for a queue pair and moves it to DESTROYING. -/
  | qpDestroy (t r : Nat)
  /-- QP_DESTROY_DONE (R145). The last descriptor of a DESTROYING queue pair finishes, so the queue pair becomes FREE and QP_DESTROY completes. -/
  | qpDestroyDone (t n : Nat)
  /-- QP_REARM (R145). The command returns an ERROR or HOST_LOST queue pair to ACTIVE with new ring bases. -/
  | qpRearm (t r : Nat)
  /-- QP_QUERY (R175). The command returns a queue pair's state and indices. -/
  | qpQuery (t r : Nat)
  /-- RING_CREATE (R144). The command creates a completion ring with its vector and SPLIT flag. -/
  | ringCreate (t r : Nat)
  /-- RING_DESTROY (R148). The command returns a completion ring to FREE unless queue pairs are bound to it. -/
  | ringDestroy (t r : Nat)
  /-- RING_REARM (R148). The command returns a HOST_LOST ring to ACTIVE with new memory. -/
  | ringRearm (t r : Nat)
  /-- RING_QUERY (R175). The command returns a ring's state, held entries, LOST count and tail. -/
  | ringQuery (t r : Nat)
  /-- TABLE_SYNC (R52). The command reads host table pages, validates them and commits them to the adapter copy. -/
  | tableSync (t r : Nat)
  /-- TABLE_READBACK (R55). The command copies adapter-copy pages back to the host copy. -/
  | tableReadback (t r : Nat)
  /-- INVALIDATE_DRAIN (R56). The command commits withdrawn entries and then waits for covered descriptors to finish. -/
  | invalidateDrain (t r : Nat)
  /-- DRAIN_END (R56). The last covered descriptor finishes and the INVALIDATE_DRAIN completes. -/
  | drainEnd (t r : Nat)
  /-- REGION_REGISTER (R65). The command registers a contiguous local range as an OPEN region and returns a key. -/
  | regionRegister (t r : Nat)
  /-- REVOKE (R72). The command starts closing a region, waits on a closing one, or completes at once. -/
  | revoke (t r : Nat)
  /-- REVOKE_DONE (R73). The revoked entry reaches CLOSED or RETIRED, and the waiting REVOKE completes. -/
  | revokeDone (t r : Nat)
  /-- REGION_QUERY (R63). The command returns one region entry and its count of unfinished packets. -/
  | regionQuery (t r : Nat)
  /-- REGION_RECLAIM (R77). The command returns every RETIRED entry of a die to CLOSED with GEN 1. -/
  | regionReclaim (t r : Nat)
  /-- GALLERY_ALLOC (R88). The command allocates a run of Gallery blocks from FREE blocks of the masked stacks. -/
  | galleryAlloc (t r : Nat)
  /-- GALLERY_FREE (R90). The command sets a Gallery run FREEING and waits for covering descriptors. -/
  | galleryFree (t r : Nat)
  /-- GALLERY_FREE_WAIT_END (R90). Covering descriptors have finished, and the FREEING blocks begin scrubbing. -/
  | galleryFreeWaitEnd (t first : Nat)
  /-- BLOCK_SCRUB_DONE (R90). Scrubbing of FREEING blocks ends, the blocks become FREE and any waiting command completes. -/
  | blockScrubDone (t first : Nat)
  /-- GALLERY_QUERY (R175). The command returns block-map entries and bias bits for a run of Gallery blocks. -/
  | galleryQuery (t r : Nat)
  /-- BIAS_SET (R93). The command sets the bias and share mask of Gallery pages, snooping on a change to DEVICE. -/
  | biasSet (t r : Nat)
  /-- PART_CREATE (R402). The command creates a partition from a quota record and reserves its table pages. -/
  | partCreate (t r : Nat)
  /-- PART_RESET (R406). The command resets a partition: it stops, closes regions, aborts groups and ends outbound work. -/
  | partReset (t r : Nat)
  /-- PART_RESET_READS_DONE (R406). The partition's link reads have returned or timed out, so its objects are freed and it becomes ACTIVE. -/
  | partResetReadsDone (t p : Nat)
  /-- PART_DESTROY (R408). The command resets a partition and then frees its Galleries, pool and entries. -/
  | partDestroy (t r : Nat)
  /-- PART_QUOTA (R403). The command changes a partition's quota record by stop–change–restart. -/
  | partQuota (t r : Nat)
  /-- PART_QUERY (R430). The command writes a partition's quota record and its current holdings. -/
  | partQuery (t r : Nat)
  /-- KEEPER_SET (R430). The command sets the adapter's Keeper role, group and group size. -/
  | keeperSet (t r : Nat)
  /-- FOG_PUBLISH (R428). Keeper software publishes a fog-signal verdict itself. -/
  | fogPublish (t r : Nat)
  /-- REDIRECT_SET (R429). The command writes or clears a redirect-table entry. -/
  | redirectSet (t r : Nat)
  /-- GROUP_CREATE (R328). The command creates a collective group with its group area and generation. -/
  | groupCreate (t r : Nat)
  /-- GROUP_DESTROY (R327). The command frees a group that has no loaded plan. -/
  | groupDestroy (t r : Nat)
  /-- PLAN_LOAD (R340). The command checks a plan image, then assigns arrays, takes blocks and enters its reservations. -/
  | planLoad (t r : Nat)
  /-- PLAN_UNLOAD (R342). The command waits for the plan's running invocation, then removes the plan. -/
  | planUnload (t r : Nat)
  /-- PLAN_UNLOAD_RESUME (R342). The running invocation has ended, so reservations and resources are released and the unload completes. -/
  | planUnloadResume (t k : Nat)
  /-- GROUP_ABORT (R360). The command aborts a group with cause SOFTWARE. -/
  | groupAbort (t r : Nat)
  /-- GROUP_QUERY (R367). The command returns a group's state, generation, area and last abort. -/
  | groupQuery (t r : Nat)
  /-- PLAN_QUERY (R367). The command returns a plan's ID, invocation count, state and arrays. -/
  | planQuery (t r : Nat)
  /-- IMAGE_STAGE (R453). The command stages a piece of a new image into the staging area. -/
  | imageStage (t r : Nat)
  /-- IMAGE_COMMIT (R454). The command verifies a staged image and writes it to NOR. -/
  | imageCommit (t r : Nat)
  /-- IMAGE_VERIFY_DONE (R453). Verification of a staged image ends with VERIFIED or REJECTED. -/
  | imageVerifyDone (t : Nat)
  /-- IMAGE_WRITE_DONE (R454). Erase, program and read-back of the image end, and IMAGE_COMMIT completes. -/
  | imageWriteDone (t : Nat) (ok : Bool) (x : StartInput)
  /-- IMAGE_DISCARD (R453). The command frees the staging area. -/
  | imageDiscard (t r : Nat)
  /-- IMAGE_DISTRIBUTE (R461). The command starts distributing a verified image to the Keeper group's tree. -/
  | imageDistribute (t r : Nat)
  /-- DISTRIBUTE_TIMEOUT (R461). 10 s after the last chunk, IMAGE_DISTRIBUTE completes with the verified and rejected counts. -/
  | distributeTimeout (t : Nat)
  /-- LEDGER_READ (R474). The command copies valid ledger entries to a RESULT area. -/
  | ledgerRead (t r : Nat)
  /-- DAYMARK_READ (R470). The command returns the identity record or a certificate chain. -/
  | daymarkRead (t r : Nat)
  /-- ATTEST (R472). The command writes a signed attestation answer over a nonce. -/
  | attest (t r : Nat)
  /-- KEK_ESTABLISH (R467). The command decapsulates an ML-KEM ciphertext and derives the partition's KEK. -/
  | kekEstablish (t r : Nat)
  /-- KEY_LOAD (R468). The command unwraps and loads, or erases, a transport or XTS key. -/
  | keyLoad (t r : Nat)
  /-- FAULTQ_CREATE (R496). The command creates the partition's fault queue ring. -/
  | faultqCreate (t r : Nat)
  /-- FAULTQ_DESTROY (R504). The command removes the partition's fault queue. -/
  | faultqDestroy (t r : Nat)
  /-- SAMPLE_ALLOC (R516). The command allocates the sample buffer. -/
  | sampleAlloc (t r : Nat)
  /-- SAMPLE_FREE (R519). The command clears sampling and frees the sample buffer. -/
  | sampleFree (t r : Nat)
  /-- SAMPLE_READ (R519). The command copies sample records to a RESULT area. -/
  | sampleRead (t r : Nat)
  /-- WRITE_DATA (R206). An arriving WRITE_DATA packet is duplicate-checked, region-checked and placed. -/
  | writeData (t : Nat) (p : Packet) (aes : Option AesHit) (hits : List EccHit)
  /-- SEND_DATA (R210). An arriving SEND_DATA packet passes the receive check and is placed into a bound RECV buffer. -/
  | sendData (t : Nat) (p : Packet) (aes : Option AesHit)
  /-- READ_REQ (R213). An arriving READ_REQ is checked and answered with the READ_RSP packets it wants. -/
  | readReq (t : Nat) (p : Packet) (aes : Option AesHit) (hits : List EccHit)
  /-- READ_RSP (R212). An arriving READ_RSP is placed or staged in its reserved response unit. -/
  | readRsp (t : Nat) (p : Packet) (aes : Option AesHit)
  /-- ATOMIC_REQ (R214). An arriving ATOMIC_REQ is checked, executed once and answered. -/
  | atomicReq (t : Nat) (p : Packet) (aes : Option AesHit) (hits : List EccHit)
  /-- ATOMIC_RSP (R198). An ATOMIC_RSP ends the atomic message with the old value. -/
  | atomicRsp (t : Nat) (p : Packet)
  /-- ACK (R198). An ACK sets the placed PSNs of a message and yields a round-trip sample. -/
  | ack (t : Nat) (p : Packet)
  /-- NAK (R199). A NAK stops a message with its status, or starts BUSY back-off or version fallback. -/
  | nak (t : Nat) (p : Packet)
  /-- ERROR_RSP (R199). An ERROR_RSP stops the message with MEMORY_ERROR or PORT_ERROR. -/
  | errorRsp (t : Nat) (p : Packet)
  /-- MGT_DATA (R219). An arriving MGT_DATA message is delivered to the Lamp room under the SEND rules. -/
  | mgtData (t : Nat) (p : Packet)
  /-- RTO_EXPIRY (R196). An unacknowledged packet's timeout expires and a new copy is sent with the timeout doubled. -/
  | rtoExpiry (t id psn : Nat)
  /-- RETRY_HORIZON_END (R197). A message not ended by d + H ends with RETRY_EXCEEDED. -/
  | retryHorizonEnd (t id : Nat)
  /-- BUSY_BACKOFF (R199). After max(RTO, HINT), one copy of the lowest unacknowledged PSN is sent. -/
  | busyBackoff (t id : Nat)
  /-- ACK_DELAY_TIMER (R208). DELAY after the oldest covered placement, an ACK is sent. -/
  | ackDelayTimer (t k : Nat)
  /-- RD_ENTRY_EXPIRE (R204). A DELIVERED recent-delivery entry is freed 4 ms after delivery. -/
  | rdEntryExpire (t k : Nat)
  /-- ASSEMBLING_ABANDON (R211). An ASSEMBLING entry reaching 4 ms is freed and its message abandoned. -/
  | assemblingAbandon (t k : Nat)
  /-- FLIGHT_ENTRY_AVAILABLE (R193). A flight entry frees, and a descriptor waiting for one takes it. -/
  | flightEntryAvailable (t r : Nat)
  /-- MESSAGE_BEGIN (R194). A waiting message begins once it can depart within H/2 at the entry's rate. -/
  | messageBegin (t id : Nat)
  /-- RESPONSE_UNITS_AVAILABLE (R212). Response units free, and a waiting read request reserves them and leaves. -/
  | responseUnitsAvailable (t id : Nat)
  /-- SHAPER_DEBT_CLEARED (R248). A partition shaper bucket leaves debt, and new messages or frames may begin. -/
  | shaperDebtCleared (t p : Nat) (eth : Bool)
  /-- BEACON_DEBT_ZERO (R235). A Beacon queue pair's debt reaches zero and the fetch of its next slot is issued. -/
  | beaconDebtZero (t q : Nat)
  /-- PACER_RELEASE (R237). The pacer releases the next Beacon packet to queue 0 at its release time. -/
  | pacerRelease (t q : Nat)
  /-- SWITCH_PACKET_ARRIVAL (R281). A packet reaches the head of an input list and is routed to an output or ejected. -/
  | switchPacketArrival (t input k : Nat)
  /-- AGE_LIMIT_DISCARD (R284). A waiting packet whose age would exceed 70.4 µs is discarded. -/
  | ageLimitDiscard (t place key k : Nat)
  /-- OUTPUT_PACKET_START (R226). An output that can start a packet picks the next eligible head and sends it. -/
  | outputPacketStart (t o : Nat) (aes : Option AesHit) (ecc : Nat)
  /-- CODEWORD_RECEIVED (R258). A codeword is decoded and its flits are accepted, or marked poisoned or discarded. -/
  | codewordReceived (t p : Nat) (c : Codeword)
  /-- CREDIT (R271). A CREDIT flit returns freed flits to the transmitter's counts. -/
  | credit (t p : Nat) (cs : List Nat)
  /-- AUDIT (R262). An AUDIT flit settles lost flits into credit. -/
  | audit (t p : Nat) (cs : List Nat)
  /-- ECHO (R260). An ECHO flit is answered with ECHO_RSP. -/
  | echo (t p time : Nat)
  /-- ECHO_RSP (R268). An ECHO_RSP yields a delay sample, and after 64 samples δ is set. -/
  | echoRsp (t p echoed hold : Nat)
  /-- TRAIN (R266). TRAIN flits negotiate the version and check identity, and FRAME_START sets the frames. -/
  | train (t p versions : Nat) (valid : Bool) (node port dim dir reserve : Nat) (frameStart : Bool)
  /-- HEALTH (R269). A HEALTH flit reports the peer's codeword counts. -/
  | health (t p c u : Nat)
  /-- CREDIT_FLIT_TIMER (R260). 16 codewords after the previous CREDIT flit, a CREDIT flit is sent. -/
  | creditFlitTimer (t p : Nat)
  /-- FRAME_BOUNDARY (R275). A 1,024-codeword frame ends, and pending calendar changes apply. -/
  | frameBoundary (t o : Nat)
  /-- FAB_LANE_LOCK (R264). All four receive lanes lock and the port enters ALIGN. -/
  | fabLaneLock (t p : Nat)
  /-- FAB_ALIGN_DONE (R264). 1,024 good codewords in a row move the port to NEGOTIATE. -/
  | fabAlignDone (t p : Nat)
  /-- FAB_LOCK_LOST (R267). An UP port losing lock retrains, and its waiting packets are routed again. -/
  | fabLockLost (t p : Nat)
  /-- UE_LIMIT_REACHED (R267). UE_LIMIT uncorrectable codewords in 1 ms force a retrain, or FAILED past RETRAIN_LIMIT. -/
  | ueLimitReached (t p : Nat)
  /-- LASER_LOST (R254). A laser input loss or engine fault takes the engine's four ports down. -/
  | laserLost (t e : Nat) (fault : Bool)
  /-- FAB_PORT_ENABLE (R264). Writing FAB_PORT_CFG.ENABLE starts or stops a port's training. -/
  | fabPortEnable (t p : Nat) (w : Word)
  /-- FAB_PORT_RETRAIN (R267). Writing FAB_PORT_CFG.RETRAIN forces a retrain or leaves FAILED. -/
  | fabPortRetrain (t p : Nat) (w : Word)
  /-- SWT_ROUTE_STOP (R288). Writing SWT_ROUTE_CTRL stops or restarts grants for dimensions or all outputs. -/
  | swtRouteStop (t : Nat) (w : Word)
  /-- SCH_BEACON_INJ_WRITE (R234). A write to SCH_BEACON_INJ.RATE takes effect unless it falls below the reserved rate. -/
  | schBeaconInjWrite (t : Nat) (w : Word)
  /-- SCH_BEACON_PORT_WRITE (R242). A write to SCH_BEACON_PORT takes effect only if the allowance stays valid. -/
  | schBeaconPortWrite (t j : Nat) (w : Word)
  /-- TRN_RETRY_HORIZON_WRITE (R221). A write to TRN_RETRY_HORIZON is limited and ignored if it breaks the horizon checks. -/
  | trnRetryHorizonWrite (t : Nat) (w : Word)
  /-- TRN_ETH_NETDELAY_WRITE (R221). A write to NETDELAY is ignored if it leaves the horizon too short. -/
  | trnEthNetdelayWrite (t : Nat) (w : Word)
  /-- SCH_SAMPLE_PERIOD (R251). Each PERIOD, every output queue's depth and delay are sampled. -/
  | schSamplePeriod (t : Nat)
  /-- SCH_SAMPLE_SEL_WRITE (R251). A write to SCH_SAMPLE_SEL captures one queue's samples and may clear its maxima. -/
  | schSampleSelWrite (t : Nat) (w : Word)
  /-- BLOCK_MIGRATION_DONE (R103). A block copy ends, the map points at the copy and the old block becomes LOST. -/
  | blockMigrationDone (t b : Nat)
  /-- STACK_LOST (R109). A stack failing in service is set LOST, and its Galleries, mirrors and groups are handled. -/
  | stackLost (t k : Nat)
  /-- ETH_FRAME_RECEIVED (R379). A received frame is classified and held for a queue pair, handed to KT, or dropped. -/
  | ethFrameReceived (t e : Nat) (f : EthFrame)
  /-- PFC_REFRESH_TIMER (R386). The XOFF PFC frame is repeated every PFC_REFRESH. -/
  | pfcRefreshTimer (t e p : Nat)
  /-- PFC_PAUSE_EXPIRY (R387). A priority's pause time runs out and it may send again. -/
  | pfcPauseExpiry (t e p : Nat)
  /-- RX_HOLD_EXPIRY (R382). A frame with no RECV within RX_HOLD is dropped. -/
  | rxHoldExpiry (t e : Nat)
  /-- ETH_FRAME_TX_DONE (R376). The last frame of an Ethernet send leaves, and the descriptor completes. -/
  | ethFrameTxDone (t e : Nat) (bad : Bool)
  /-- ETH_LINK_UP (R370). Link training ends and ETH_PORT_STATUS.UP sets. -/
  | ethLinkUp (t e : Nat)
  /-- ETH_LINK_DOWN (R393). UP falls: queued frames are discarded and pauses are cleared. -/
  | ethLinkDown (t e : Nat) (far : Bool)
  /-- ETH_PORT_ENABLE (R370). Writing ETH_PORT_CFG.ENABLE to 1 starts link training. -/
  | ethPortEnable (t e : Nat) (w : Word)
  /-- ETH_FILTER_COMMIT (R379). A write to word 1 of an ETH_FILTER entry makes the entry take effect. -/
  | ethFilterCommit (t e f : Nat) (w : Word)
  /-- ETH_GATE_STOP (R391). Writing RUN 0 stops the gate schedule at the end of the cycle. -/
  | ethGateStop (t e : Nat) (w : Word)
  /-- GATE_STOP_TAKES_HOLD (R391). At cycle end the gates take ETH_GATE_STOP and STOPPED sets. -/
  | gateStopTakesHold (t e : Nat)
  /-- ETH_GATE_RESTART (R391). Writing RUN 1 checks the schedule and starts it, or sets ERROR. -/
  | ethGateRestart (t e : Nat) (w : Word)
  /-- GATE_ENTRY_START (R390). A gate control list entry's start time arrives and its gates open. -/
  | gateEntryStart (t e : Nat)
  /-- ETH_TIMER_ADJ_WRITE (R389). A write to ETH_TIMER_ADJ adds an offset to the timer while STOPPED. -/
  | ethTimerAdjWrite (t e : Nat) (w : Word)
  /-- ETH_WAKE_MATCH (R395). The port 0 detector matches a wake source and the Lamp room powers port die 0. -/
  | ethWakeMatch (t : Nat) (f : EthFrame)
  /-- COL_DATA (R352). An arriving COL DATA packet is checked for generation, invocation and signature, and placed. -/
  | colData (t : Nat) (p : Packet) (aes : Option AesHit)
  /-- COL_READY (R346). A READY records the window granted to the matching SEND. -/
  | colReady (t : Nat) (p : Packet) (aes : Option AesHit)
  /-- COL_ABORT (R360). An ABORT of the current generation aborts the group. -/
  | colAbort (t : Nat) (p : Packet) (aes : Option AesHit)
  /-- GROUP_ABORT_END (R327). Every invocation of an ABORTING group has ended, so the group returns to ACTIVE with INV reset. -/
  | groupAbortEnd (t g : Nat)
  /-- INVOCATION_START (R345). The previous invocation has ended, INV increments and the first steps start. -/
  | invocationStart (t k : Nat)
  /-- INVOCATION_END (R345). Every step is complete and the COLLECTIVE entry is written. -/
  | invocationEnd (t k : Nat)
  /-- PASS_BEGIN (R345). Every byte a pass reads is present and the array begins the pass. -/
  | passBegin (t k step : Nat) (hits : List EccHit)
  /-- PASS_END (R295). A pass's last contribution is added, the banks swap, and the result is rounded and emitted. -/
  | passEnd (t k step fault : Nat)
  /-- LAG_LIMIT_TIMER (R358). A waiting step passes LAG_LIMIT and a NOTICE LAGGING is written. -/
  | lagLimitTimer (t k step : Nat)
  /-- ABORT_AFTER_TIMER (R358). A waiting step passes ABORT_AFTER and the group aborts with cause POLICY. -/
  | abortAfterTimer (t k step : Nat)
  /-- LIGHT_PERIOD (R416). Each PERIOD a Keeper member sends LIGHTs to its workers and a PAIR_LIGHT to its partner. -/
  | lightPeriod (t : Nat)
  /-- KEEPER_SILENCE (R416). No answer or LIGHT arrives within MISS × PERIOD, and the peer is found silent. -/
  | keeperSilence (t n : Nat)
  /-- NO_QUORUM_TIMEOUT (R421). A record-changing Keeper command waiting 100 ms for quorum completes with NO_QUORUM. -/
  | noQuorumTimeout (t r : Nat)
  /-- SW_WATCH_EXPIRY (R422). The Keeper software watch expires and the member becomes WORKER. -/
  | swWatchExpiry (t : Nat)
  /-- KPR_SW_ALIVE_WRITE (R422). A write to KPR_SW_ALIVE restarts the software watch. -/
  | kprSwAliveWrite (t : Nat)
  /-- LIGHT (R416). A worker receives a LIGHT and answers it. -/
  | light (t k : Nat)
  /-- LIGHT_ANSWER (R420). A member receives a worker's answer and updates silence and quorum counts. -/
  | lightAnswer (t k : Nat)
  /-- PAIR_LIGHT (R416). A member receives its partner's PAIR_LIGHT. -/
  | pairLight (t k : Nat)
  /-- JOIN (R415). A neighbour's Lamp room receives a JOIN and relays it to its active Keeper. -/
  | join (t k : Nat)
  /-- JOIN_TIMER (R415). Every 1 ms an adapter without a node ID sends a JOIN on each MGT_ONLY port. -/
  | joinTimer (t : Nat)
  /-- RELAY (R413). A RELAY carries a JOIN or ASSIGN between a neighbour and its Keeper. -/
  | relay (t k : Nat)
  /-- ASSIGN (R415). A joining adapter takes its node ID and group, and its ports renegotiate. -/
  | assign (t k : Nat)
  /-- REPORT (R425). An active member merges a suspect report, forwards it, or declares a verdict. -/
  | report (t k : Nat)
  /-- LINK_HOLD_EXPIRY (R423). A port out of UP for LINK_HOLD raises LINK_DOWN or NODE_SILENT suspects. -/
  | linkHoldExpiry (t p : Nat)
  /-- SUPPRESS_INTERVAL_END (R424). A suspect's suppression interval ends, allowing its held events to be reported. -/
  | suppressIntervalEnd (t idx : Nat)
  /-- PROBE_WAIT_EXPIRY (R425). A probe LIGHT is unanswered within PROBE_WAIT and the node is declared DEAD. -/
  | probeWaitExpiry (t idx : Nat)
  /-- FOG (R427). An adapter acts once on a fog signal: it marks DEAD, ends messages and aborts groups. -/
  | fog (t k : Nat)
  /-- MAP_UPDATE (R414). A worker applies new domain address map entries from its member. -/
  | mapUpdate (t k : Nat)
  /-- MIRROR_SYNC (R418). The mirror applies and acknowledges one change to the Keeper record. -/
  | mirrorSync (t k : Nat)
  /-- DIRECTORY (R413). A region-key directory publish, lookup, withdraw or stripe message is handled. -/
  | directory (t k : Nat)
  /-- ORDER (R413). A worker applies an admin descriptor sent by its Keeper. -/
  | order (t k : Nat)
  /-- ORDER_DONE (R413). The active member receives the completion of an ORDER. -/
  | orderDone (t k : Nat)
  /-- MANIFEST (R457). A worker accepts a distribution manifest, enters STAGING and forwards it. -/
  | manifest (t k : Nat)
  /-- CHUNK (R458). A chunk whose digest matches is placed and passed on to children. -/
  | chunk (t k : Nat)
  /-- DIST_REQUEST (R460). The Keeper answers a REQUEST with repair chunks. -/
  | distRequest (t k : Nat)
  /-- DIST_STATUS (R461). The Keeper records a worker's verified or rejected status. -/
  | distStatus (t k : Nat)
  /-- DIST_REQUEST_TIMER (R460). After 5 ms with chunks missing, a REQUEST is sent, and REJECTED follows after 100 of them. -/
  | distRequestTimer (t : Nat)
  /-- COUNTER_WRAP (R511). A counter passes 0xFFFF_FFFF and carries into its chain or sets its overflow bit. -/
  | counterWrap (t n : Nat)
  /-- CNT_STOP_ARM (R514). Writing CNT_STOP.ARMED sets a time at which every counter stops. -/
  | cntStopArm (t at_ : Nat)
  /-- CNT_STOP_REACHED (R514). Local time reaches AT and every counter stops together. -/
  | cntStopReached (t : Nat)
  /-- CNT_RESTART (R514). Writing 1 to STOPPED restarts every counter together. -/
  | cntRestart (t : Nat)
  /-- CNT_VALUE_WRITE (R511). A write to CNT_VALUE replaces the counter's value in the ns of its arrival. -/
  | cntValueWrite (t n v : Nat)
  /-- CNT_CTRL_WRITE (R510). A write to CNT_CTRL sets a counter's event, unit and owner, and may be ignored. -/
  | cntCtrlWrite (t n : Nat) (w : Word)
  /-- BW_WINDOW_END (R515). A bandwidth window ends and every CNT_BW takes its byte counts. -/
  | bwWindowEnd (t : Nat)
  /-- CNT_SAMPLE_HEAD_WRITE (R518). A write to CNT_SAMPLE_HEAD releases sample-ring slots. -/
  | cntSampleHeadWrite (t head : Nat)
  /-- LAMP_FAULT_HEAD_WRITE (R499). A write to LAMP_FAULT_HEAD advances the Lamp-room fault queue head and may arm it. -/
  | lampFaultHeadWrite (t : Nat) (w : Word)
  /-- REGISTER_WRITE (R9). A write to a register with no row of its own acts under its access code. -/
  | registerWrite (t : Nat) (a : BarAddr) (width : Nat) (w : Word)
  /-- PCIE_LINK_UP (R112). A host or accelerator link finishes training and its data link comes up; alternate-protocol negotiation settles MODE and UP sets. -/
  | pcieLinkUp (t l mode width rate vfs : Nat) (cfg : LinkSet)
  /-- LINK_L1_ENTRY (R480). A PCIe link enters L1, which can make its port die idle and start that domain's idle timer. -/
  | linkL1Entry (t l : Nat)
  /-- DIE_BELOW_WARN_AT (R489). Every die falls below WARN_AT, releasing a device reset or start that was waiting on temperature. -/
  | dieBelowWarnAt (t : Nat) (x : StartInput)
  /-- HEALTH_FLIT_TIMER (R260). Once per ms, a port running Kilpin Link 1.1 sends a HEALTH flit carrying its codeword counts. -/
  | healthFlitTimer (t p : Nat)
  /-- UNIT_FAILED_IN_SERVICE (R503). A port die, bridge or Lantern die fails while the adapter runs, removing its ports or taking the adapter out of service. -/
  | unitFailedInService (t kind unit detail : Nat)
  deriving DecidableEq, Repr

end Sys2Proof
end

