-- ==== Sys2Proof/Decode.lean ====
section
/-!
DEFINITION. The decoder of the command table. The table gives no row any bits: a command comes from outside with its operands, so no word
spells one.
-/
namespace Sys2Proof

/-- The command a word spells by the table's bits: none, since no row has bits. -/
def decodeTableWord (_nbits _w : Nat) : Option Instr := none

end Sys2Proof
end

