-- ==== Sys2Proof/Config.lean ====
section
/-!
DEFINITION. What an implementation fixes and the spec does not, and the free values. Each is an opaque constant: nothing in
Lean can evaluate it, so no statement can rest on a value of it. Each is named in the assumption log.
-/
namespace Sys2Proof.Config

/-- One less than the number of acceptance records of a die (R155 asks for a free one and states no number). -/
opaque acceptRecordsLessOne : Nat

/-- The acceptance records of one Lantern die. (log entry 22) -/
def acceptRecords : Nat := acceptRecordsLessOne + 1

/-- The n-th free choice: a number the adapter picks where the spec names no order (log entry 3). -/
opaque freeNat : Nat → Nat

/-- The n-th free byte stream: memory the spec calls undefined (R27), by position. -/
opaque freeByte : Nat → Nat → Byte

/-- Whether the cache behind a port holds a dirty copy when a snoop reaches it (R91), by the number of the free choice. (log entry 38) -/
opaque snoopDirty : Nat → Bool

/-- SHA3-512 of a byte string (named by the spec, defined by its standard). (log entry 21) -/
opaque sha3_512 : List Byte → List Byte

/-- ML-DSA-87 verification (named by the spec, defined by its standard): key, message, signature. -/
opaque mlDsaVerify : List Byte → List Byte → List Byte → Bool

/-- ML-DSA-87 signature by the adapter's identity key (R471): the n-th, since signing may be randomised, over a message. -/
opaque mlDsaSign : Nat → List Byte → List Byte

/-- ML-KEM-1024 decapsulation with the adapter's own key (R468): ciphertext to shared secret. -/
opaque mlKemDecaps : List Byte → List Byte

/-- Key unwrapping with padding (RFC 5649): key-encryption key, blob; none if the check fails. -/
opaque keyUnwrap : List Byte → List Byte → Option (List Byte)

/-- AES-256-GCM: key, nonce, additional data, plaintext; ciphertext and 16-byte tag. -/
opaque gcmSeal : List Byte → List Byte → List Byte → List Byte → List Byte × List Byte

/-- AES-256-GCM opening: key, nonce, additional data, ciphertext, tag; none if the tag fails. -/
opaque gcmOpen : List Byte → List Byte → List Byte → List Byte → List Byte → Option (List Byte)

/-- AES-256-XTS over one 64 B data unit: key, tweak, plaintext. -/
opaque xtsEnc : List Byte → Nat → List Byte → List Byte

/-- AES-256-XTS over one 64 B data unit: key, tweak, ciphertext. -/
opaque xtsDec : List Byte → Nat → List Byte → List Byte

/-- The adapter's serial number (R470). -/
opaque serialNumber : Nat

/-- SERIAL: 64 bits (R470). -/
def serial : Nat := serialNumber % 2 ^ 64

/-- The digest of Abamin's image key, in trusted slot 0 (R444). -/
opaque abaminDigest : List Byte

/-- The certificate chains of the Daymark (R470): 1 the identity chain, 2 the encapsulation-key chain. -/
opaque certificates : Nat → List Byte

/-- A chain, at most 16 KiB (R470). -/
def certChain (item : Nat) : List Byte := (certificates item).take 16384

/-- The scrambled bits that precede codeword n of a port's outgoing stream, the latest first (R256 names no start of the scrambler). -/
opaque scrambler : Nat → Nat → List Bool

/-- What an engine's sensors read at a time: the photonic die's temperature in °C, the laser input power in µW (R291). -/
opaque engineTemp : Nat → Nat → Nat
opaque laserPower : Nat → Nat → Nat

end Sys2Proof.Config
end

