-- ==== Sys2Proof/Machine/Bits.lean ====
section
/-!
DEFINITION. Bit fields, byte order and small searches: the plain arithmetic every other file uses.
-/
namespace Sys2Proof.Machine

/-- Bits [lo + n − 1 : lo] of a number. -/
def bitsN (x lo n : Nat) : Nat := x / 2 ^ lo % 2 ^ n

/-- Bits [lo + n − 1 : lo] of a word. -/
def bits (w : Word) (lo n : Nat) : Nat := bitsN w.toNat lo n

/-- One bit of a word. -/
def bit (w : Word) (i : Nat) : Bool := bits w i 1 == 1

/-- A number with bits [lo + n − 1 : lo] replaced by the low n bits of v. -/
def setBitsN (x lo n v : Nat) : Nat := x / 2 ^ (lo + n) * 2 ^ (lo + n) + v % 2 ^ n * 2 ^ lo + x % 2 ^ lo

/-- A word with bits [lo + n − 1 : lo] replaced by the low n bits of v. -/
def setBits (w : Word) (lo n v : Nat) : Word := BitVec.ofNat 64 (setBitsN w.toNat lo n v)

/-- A word made of one number. -/
def word (n : Nat) : Word := BitVec.ofNat 64 n

/-- A bit as a number. -/
def b2n (b : Bool) : Nat := if b then 1 else 0

/-- Little-endian value of a byte string (R8). -/
def leNat : List Byte → Nat
  | [] => 0
  | b :: bs => b.toNat + 256 * leNat bs

/-- The n low bytes of a number, little-endian (R8). -/
def leBytes : Nat → Nat → List Byte
  | 0, _ => []
  | n + 1, x => BitVec.ofNat 8 x :: leBytes n (x / 256)

/-- Big-endian value of a byte string. -/
def beNat (bs : List Byte) : Nat := leNat bs.reverse

/-- The n low bytes of a number, big-endian. -/
def beBytes (n x : Nat) : List Byte := (leBytes n x).reverse

/-- A word as its eight bytes, little-endian. -/
def wordBytes (w : Word) : List Byte := leBytes 8 w.toNat

/-- The k-th 8-byte word of a byte string. -/
def wordAt (bs : List Byte) (k : Nat) : Word := word (leNat ((bs.drop (8 * k)).take 8))

/-- The bytes [off, off + n). -/
def slice (bs : List Byte) (off n : Nat) : List Byte := (bs.drop off).take n

/-- Round up to a multiple. -/
def ceilDiv (a b : Nat) : Nat := (a + b - 1) / b

/-- The first of n numbers from i on that satisfies p. -/
def firstIdx (p : Nat → Bool) : Nat → Nat → Option Nat
  | 0, _ => none
  | n + 1, i => if p i then some i else firstIdx p n (i + 1)

/-- The numbers among n from i on that satisfy p. -/
def allIdx (p : Nat → Bool) (n i : Nat) : List Nat := (List.range' i n).filter p

/-- The set bits of a mask below n. -/
def maskBits (m n : Nat) : List Nat := (List.range n).filter (fun i => m.testBit i)

/-- A signed reading of an n-bit number. -/
def signed (x n : Nat) : Int := if x < 2 ^ (n - 1) then (x : Int) else (x : Int) - 2 ^ n

/-- An integer modulo 2^n. -/
def unsigned (x : Int) (n : Nat) : Nat := (x % (2 ^ n : Int)).toNat

/-- Addition that saturates at 2^n − 1. -/
def satAdd (a b n : Nat) : Nat := min (a + b) (2 ^ n - 1)

/-- The difference of two free-running 32-bit indices (R140). -/
def idxDiff (a b : Nat) : Nat := (a + 2 ^ 32 - b % 2 ^ 32) % 2 ^ 32

/-- Replace the element at position i. -/
def setAt {α : Type} (l : List α) (i : Nat) (v : α) : List α := l.set i v

end Sys2Proof.Machine
end

