-- ==== Sys2Proof/Machine/Flags.lean ====
section
/-!
DEFINITION. The status codes of completions (R177, R367, R430, R474), the translation reasons (R158), packet types and classes
(R184, R185), NAK reasons (R186), opcodes (R152, R175 and the tables of the later chapters).
-/
namespace Sys2Proof.Machine

namespace Stat
def SUCCESS : Nat := 0x00
def FLUSHED : Nat := 0x01
def MALFORMED : Nat := 0x02
def TRANSLATION_FAULT : Nat := 0x03
def MISALIGNED : Nat := 0x04
def HOST_LOST : Nat := 0x05
def PORT_ERROR : Nat := 0x06
def MEMORY_ERROR : Nat := 0x07
def ATOMIC_UNSUPPORTED : Nat := 0x08
def PERMISSION_DENIED : Nat := 0x09
def UNSUPPORTED_VERSION : Nat := 0x0A
def FENCE_INCOMPLETE : Nat := 0x0B
def NO_QUEUE : Nat := 0x0C
def BAD_STATE : Nat := 0x0D
def RING_BUSY : Nat := 0x0E
def NO_RESERVATION : Nat := 0x0F
def REGION_REVOKED : Nat := 0x10
def REGION_DENIED : Nat := 0x11
def RETRY_EXCEEDED : Nat := 0x12
def DEST_UNREACHABLE : Nat := 0x13
def RECEIVE_REFUSED : Nat := 0x14
def CIPHER_FAULT : Nat := 0x15
def SIGNATURE_MISMATCH : Nat := 0x20
def GROUP_ABORTED : Nat := 0x21
def LAGGING : Nat := 0x22
def CAPACITY_EXCEEDED : Nat := 0x23
def PLAN_REJECTED : Nat := 0x24
def SYNC_REJECTED : Nat := 0x30
def REGION_ACTIVE : Nat := 0x31
def NOT_CONTIGUOUS : Nat := 0x32
def NO_REGION_ENTRY : Nat := 0x33
def ABORTED_CLOSED : Nat := 0x34
def NO_GALLERY_SPACE : Nat := 0x35
def NO_RESOURCE : Nat := 0x40
def QUOTA_IN_USE : Nat := 0x41
def BAD_RECORD : Nat := 0x42
def NO_QUORUM : Nat := 0x43
def NOT_KEEPER : Nat := 0x44
def IMAGE_REJECTED : Nat := 0x48
def LAMP_OUT : Nat := 0x49
def KEY_REJECTED : Nat := 0x4A
def NO_KEY : Nat := 0x4B
def NOR_ERROR : Nat := 0x4C
end Stat

namespace Why5
/-- The REASON values of TRANSLATION_FAULT (R158), in the rank order of R47. -/
def UNMAPPED : Nat := 1
def PERMISSION : Nat := 2
def FRAGMENTED : Nat := 3
def ABSENT_UNIT : Nat := 4
def NO_NODE : Nat := 5
end Why5

/-- The rank of a reason at one address (R47): the order of the list there, FRAGMENTED last. -/
def reasonRank (r : Nat) : Nat :=
  if r = Why5.UNMAPPED then 0 else if r = Why5.PERMISSION then 1 else if r = Why5.ABSENT_UNIT then 2
  else if r = Why5.NO_NODE then 3 else 4

namespace Ty
def DEPARTED : Nat := 0
def DONE : Nat := 1
def RECEIVED : Nat := 2
def COLLECTIVE : Nat := 3
def NOTICE : Nat := 4
def ADMIN : Nat := 5
def LATE : Nat := 6
end Ty

namespace Pk
def WRITE_DATA : Nat := 0x0
def SEND_DATA : Nat := 0x1
def READ_REQ : Nat := 0x2
def READ_RSP : Nat := 0x3
def ATOMIC_REQ : Nat := 0x4
def ATOMIC_RSP : Nat := 0x5
def ACK : Nat := 0x6
def NAK : Nat := 0x7
def ERROR_RSP : Nat := 0x8
def COL_DATA : Nat := 0x9
def MGT_DATA : Nat := 0xA
end Pk

namespace Cls
def REQ : Nat := 0
def FWD : Nat := 1
def RSP : Nat := 2
def COL : Nat := 3
def MGT : Nat := 4
end Cls

namespace Nk
def REVOKED : Nat := 1
def DENIED : Nat := 2
def BUSY : Nat := 3
def RECV_REFUSED : Nat := 4
def VERSION : Nat := 5
end Nk

namespace Op
def NOP : Nat := 0x01
def WRITE : Nat := 0x10
def READ : Nat := 0x11
def SEND : Nat := 0x12
def RECV : Nat := 0x13
def ATOMIC : Nat := 0x14
def PLACEMENT_FENCE : Nat := 0x15
def COLLECTIVE : Nat := 0x20
def ETH_SEND : Nat := 0x30
def ETH_SEGMENT : Nat := 0x31
def ETH_RECV : Nat := 0x32
def QP_CREATE : Nat := 0x80
def QP_DESTROY : Nat := 0x81
def QP_REARM : Nat := 0x82
def QP_QUERY : Nat := 0x83
def RING_CREATE : Nat := 0x84
def RING_DESTROY : Nat := 0x85
def RING_REARM : Nat := 0x86
def RING_QUERY : Nat := 0x87
def TABLE_SYNC : Nat := 0x90
def TABLE_READBACK : Nat := 0x91
def INVALIDATE_DRAIN : Nat := 0x92
def REGION_REGISTER : Nat := 0x93
def REVOKE : Nat := 0x94
def REGION_QUERY : Nat := 0x95
def REGION_RECLAIM : Nat := 0x96
def GALLERY_ALLOC : Nat := 0x98
def GALLERY_FREE : Nat := 0x99
def GALLERY_QUERY : Nat := 0x9A
def BIAS_SET : Nat := 0x9B
def PART_CREATE : Nat := 0xA0
def PART_RESET : Nat := 0xA1
def PART_DESTROY : Nat := 0xA2
def PART_QUOTA : Nat := 0xA3
def PART_QUERY : Nat := 0xA4
def KEEPER_SET : Nat := 0xA5
def FOG_PUBLISH : Nat := 0xA6
def REDIRECT_SET : Nat := 0xA7
def GROUP_CREATE : Nat := 0xA8
def GROUP_DESTROY : Nat := 0xA9
def PLAN_LOAD : Nat := 0xAA
def PLAN_UNLOAD : Nat := 0xAB
def GROUP_ABORT : Nat := 0xAC
def GROUP_QUERY : Nat := 0xAD
def PLAN_QUERY : Nat := 0xAE
def IMAGE_STAGE : Nat := 0xB0
def IMAGE_COMMIT : Nat := 0xB1
def IMAGE_DISCARD : Nat := 0xB2
def IMAGE_DISTRIBUTE : Nat := 0xB3
def LEDGER_READ : Nat := 0xB4
def DAYMARK_READ : Nat := 0xB5
def ATTEST : Nat := 0xB6
def KEK_ESTABLISH : Nat := 0xB7
def KEY_LOAD : Nat := 0xB8
def DEVICE_RESET : Nat := 0xB9
def FAULTQ_CREATE : Nat := 0xBA
def FAULTQ_DESTROY : Nat := 0xBB
def SAMPLE_ALLOC : Nat := 0xBC
def SAMPLE_FREE : Nat := 0xBD
def SAMPLE_READ : Nat := 0xBE
end Op

/-- The local queue numbers: partition p's admin queue, and the device admin queue (log entry 4). -/
def admQueue (p : Nat) : Nat := 65536 + p
def devQueue : Nat := 65600

end Sys2Proof.Machine
end

