-- ==== Sys2Proof/Machine/Operands.lean ====
section
/-!
DEFINITION. The fields of packets (R184) and descriptors (R151, R152, R174), the builders of header words, the CRC-64 of R187,
and the form checks of R170 and R189.
-/
namespace Sys2Proof
open Machine

/-! ### Header fields (R184) -/

def Packet.ver (p : Packet) : Nat := bits p.w0 60 4
def Packet.type (p : Packet) : Nat := bits p.w0 56 4
def Packet.cls (p : Packet) : Nat := bits p.w0 53 3
def Packet.beacon (p : Packet) : Bool := bit p.w0 52
def Packet.enc (p : Packet) : Bool := bit p.w0 51
def Packet.cm (p : Packet) : Bool := bit p.w0 50
def Packet.hops (p : Packet) : Nat := bits p.w0 43 7
def Packet.age (p : Packet) : Nat := bits p.w0 32 11
def Packet.dst (p : Packet) : Nat := bits p.w0 18 14
def Packet.src (p : Packet) : Nat := bits p.w0 4 14
def Packet.keyId (p : Packet) : Nat := bits p.w0 0 4
def Packet.epoch (p : Packet) : Nat := bits p.w1 48 16
def Packet.inc (p : Packet) : Nat := bits p.w1 32 16
def Packet.key (p : Packet) : Nat := bits p.w1 0 32
def Packet.msgId (p : Packet) : Nat := bits p.w2 32 32
def Packet.psn (p : Packet) : Nat := bits p.w2 21 11
def Packet.plen (p : Packet) : Nat := bits p.w2 7 14
def Packet.pshift (p : Packet) : Nat := bits p.w2 3 4
def Packet.msgLen (p : Packet) : Nat := bits p.w3 41 23
def Packet.destQpn (p : Packet) : Nat := bits p.w3 25 16
def Packet.srcQpn (p : Packet) : Nat := bits p.w3 9 16
def Packet.addr (p : Packet) : Nat := bits p.w4 0 50
def Packet.ts (p : Packet) : Nat := bits p.w5 16 48
def Packet.ece (p : Packet) : Bool := bit p.w5 15
def Packet.opx (p : Packet) : Nat := bits p.w5 0 15
def Packet.nakReason (p : Packet) : Nat := bits p.w5 11 4
def Packet.nakSub (p : Packet) : Nat := bits p.w5 8 3
def Packet.nakHint (p : Packet) : Nat := bits p.w5 0 8
def Packet.aop (p : Packet) : Nat := bits p.w5 0 4
def Packet.fetch (p : Packet) : Bool := bit p.w5 4
def Packet.want (p : Packet) : Nat := bits p.w6 0 32

/-- The widths a link trains to (R111). -/
def widthOk (l width : Nat) : Bool := if l = 0 then [1, 2, 4].contains width else [4, 8, 16].contains width

/-! ### A COL_DATA's words 1, 3 and 4 (R349) -/

def Packet.planId (p : Packet) : Nat := bits p.w1 32 32
def Packet.colGen (p : Packet) : Nat := bits p.w1 16 16
def Packet.colStep (p : Packet) : Nat := bits p.w1 0 16
def Packet.inv (p : Packet) : Nat := bits p.w3 32 32
def Packet.origin (p : Packet) : Nat := bits p.w3 20 12
def Packet.ckind (p : Packet) : Nat := bits p.w3 4 4
def Packet.cause (p : Packet) : Nat := bits p.w3 0 4
def Packet.colOff (p : Packet) : Nat := bits p.w4 0 40
def Packet.colSent (p : Packet) : Nat := bits p.w4 40 24

/-- Word 0 of a header built here: HOPS 0, AGE 0, CM 0. -/
def hdr0 (ver type cls : Nat) (beacon enc : Bool) (dst src keyId : Nat) : Word :=
  word (ver % 16 * 2 ^ 60 + type % 16 * 2 ^ 56 + cls % 8 * 2 ^ 53 + b2n beacon * 2 ^ 52 + b2n enc * 2 ^ 51
    + dst % 2 ^ 14 * 2 ^ 18 + src % 2 ^ 14 * 2 ^ 4 + keyId % 16)

/-- Word 1: SRC_EPOCH, INCARNATION, KEY. -/
def hdr1 (epoch inc key : Nat) : Word := word (epoch % 2 ^ 16 * 2 ^ 48 + inc % 2 ^ 16 * 2 ^ 32 + key % 2 ^ 32)

/-- Word 2: MSG_ID, PSN, PLEN, PSHIFT, LAST. -/
def hdr2 (msgId psn plen pshift : Nat) (last : Bool) : Word :=
  word (msgId % 2 ^ 32 * 2 ^ 32 + psn % 2 ^ 11 * 2 ^ 21 + plen % 2 ^ 14 * 2 ^ 7 + pshift % 16 * 8 + b2n last)

/-- Word 3 of a message: MSG_LEN, DEST_QPN, SRC_QPN. -/
def hdr3 (len dq sq : Nat) : Word := word (len % 2 ^ 23 * 2 ^ 41 + dq % 2 ^ 16 * 2 ^ 25 + sq % 2 ^ 16 * 2 ^ 9)

/-- Word 5: TS, ECE, OPX. -/
def hdr5 (ts : Nat) (ece : Bool) (opx : Nat) : Word := word (ts % 2 ^ 48 * 2 ^ 16 + b2n ece * 2 ^ 15 + opx % 2 ^ 15)

/-- A header's word 0 with CM, HOPS and AGE taken as zero (R187). -/
def clearMutable (w : Word) : Word := setBits w 32 19 0

/-- Header bytes 0 to 55 under the zeroing of R187. -/
def Packet.covered (p : Packet) : List Byte :=
  wordBytes (clearMutable p.w0) ++ wordBytes p.w1 ++ wordBytes p.w2 ++ wordBytes p.w3 ++ wordBytes p.w4 ++ wordBytes p.w5
    ++ wordBytes p.w6

/-- One reflected CRC step over one byte, bit by bit: a register, the reflected polynomial, and the bits left. -/
def crcBits (poly : Nat) : Nat → Nat → Nat
  | 0, r => r
  | n + 1, r => crcBits poly n (if r % 2 = 1 then Nat.xor (r / 2) poly else r / 2)

/-- A reflected CRC over a byte string, from a register value. -/
def crcFold (poly : Nat) (r : Nat) : List Byte → Nat
  | [] => r
  | b :: bs => crcFold poly (crcBits poly 8 (Nat.xor r b.toNat)) bs

/-- CRC-64 with the ECMA-182 polynomial, reflected, initial and final value all ones (R187). The reflected polynomial of
0x42F0_E1EB_A9EA_3693 is 0xC96C_5795_D787_0F42. -/
def crc64 (bs : List Byte) : Nat := Nat.xor (crcFold 0xC96C5795D7870F42 0xFFFFFFFFFFFFFFFF bs) 0xFFFFFFFFFFFFFFFF

/-- What the Lantern die has folded of the flits of a link: the CRC-64 of the message so far, and its bytes (R129). -/
structure Fold where
  crc   : Nat
  bytes : List Byte
  deriving DecidableEq, Repr

/-- A flit's fold is provisional until the verdicts on it, and discarded where one fails: its replayed copy is folded in its place (R129). -/
def foldFlit (ecrc : Bool) (x : Fold) (f : LinkFlit) : Fold :=
  let provisional : Fold := ⟨crcFold 0xC96C5795D7870F42 x.crc f.bytes, x.bytes ++ f.bytes⟩
  if f.passed && (!ecrc || f.ecrcOk) then provisional else x

def foldFlits (ecrc : Bool) (fs : List LinkFlit) : Fold := fs.foldl (foldFlit ecrc) ⟨0xFFFFFFFFFFFFFFFF, []⟩

/-- The CRC a packet's plaintext should carry (R187). -/
def Packet.crc (p : Packet) (plain : List Byte) : Nat := crc64 (p.covered ++ plain)

/-- The flits of a packet (R259): header, payload, trailer. -/
def Packet.flits (p : Packet) : Nat := 1 + ceilDiv p.plen 64 + b2n p.enc

/-- The bytes a packet counts on a fabric port or bridge (R223). -/
def Packet.len (p : Packet) : Nat := 64 * p.flits

/-- A packet with no payload and zero words, to build from. -/
def Packet.zero : Packet := ⟨0, 0, 0, 0, 0, 0, 0, 0, [], [], false⟩

/-- The packet with its CRC set over its own payload, unencrypted (R187). -/
def Packet.seal (p : Packet) : Packet := { p with w7 := word (p.crc p.pay) }

/-- The header and payload as they travel, and read back (R184: byte 0 of word 0 first). -/
def Packet.bytes (p : Packet) : List Byte :=
  wordBytes p.w0 ++ wordBytes p.w1 ++ wordBytes p.w2 ++ wordBytes p.w3 ++ wordBytes p.w4 ++ wordBytes p.w5 ++ wordBytes p.w6
    ++ wordBytes p.w7 ++ p.pay ++ List.replicate (64 * ceilDiv p.pay.length 64 - p.pay.length) 0 ++ p.trailer

/-- Read a packet from bytes. -/
def Packet.ofBytes (b : List Byte) : Packet :=
  let w0 := wordAt b 0
  let w2 := wordAt b 2
  let n := bits w2 7 14
  let m := 64 * ceilDiv n 64
  { w0 := w0, w1 := wordAt b 1, w2 := w2, w3 := wordAt b 3, w4 := wordAt b 4, w5 := wordAt b 5, w6 := wordAt b 6,
    w7 := wordAt b 7, pay := slice b 64 n, trailer := if bit w0 51 then slice b (64 + m) 64 else [], poison := false }

/-! ### Descriptor fields (R151, R152, R174) -/

def Desc.zero : Desc := ⟨0, 0, 0, 0, 0, 0, 0, 0⟩
def Desc.seq (d : Desc) : Nat := bits d.w0 32 32
def Desc.op (d : Desc) : Nat := bits d.w0 24 8
def Desc.part (d : Desc) : Nat := bits d.w0 0 6
def Desc.strided (d : Desc) : Bool := bit d.w0 16
def Desc.tag (d : Desc) : Word := d.w1
def Desc.rows (d : Desc) : Nat := bits d.w4 32 32
def Desc.len (d : Desc) : Nat := bits d.w4 0 32
def Desc.total (d : Desc) : Nat := if d.strided then d.rows * d.len else d.len
def Desc.sendQkey (d : Desc) : Nat := bits d.w3 32 32
def Desc.sendQpn (d : Desc) : Nat := bits d.w3 16 16
def Desc.sendNode (d : Desc) : Nat := bits d.w3 0 14
def Desc.fenceAll (d : Desc) : Bool := bit d.w2 16
def Desc.fenceNode (d : Desc) : Nat := bits d.w2 0 14
def Desc.aop (d : Desc) : Nat := bits d.w5 0 4
def Desc.fetch (d : Desc) : Bool := bit d.w5 4

/-- Eight words as a descriptor. -/
def Desc.ofBytes (b : List Byte) : Desc :=
  ⟨wordAt b 0, wordAt b 1, wordAt b 2, wordAt b 3, wordAt b 4, wordAt b 5, wordAt b 6, wordAt b 7⟩

/-- Operand word n of a descriptor. -/
def Desc.word (d : Desc) : Nat → Word
  | 0 => d.w0 | 1 => d.w1 | 2 => d.w2 | 3 => d.w3 | 4 => d.w4 | 5 => d.w5 | 6 => d.w6 | _ => d.w7

/-- Whether every bit of a word outside the listed fields (lowest bit, width) is zero. -/
def onlyFields (w : Word) (fs : List (Nat × Nat)) : Bool :=
  (fs.foldl (fun x f => setBitsN x f.1 f.2 0) w.toNat) == 0

/-- Whether an atomic code is one of R97. -/
def aopOk (c : Nat) : Bool := decide (1 ≤ c) && decide (c ≤ 9)

/-- The operand size of an atomic (R214). -/
def aopSize (c : Nat) : Nat := if c = 3 ∨ c = 8 ∨ c = 9 then 4 else 8

/-- The extents, rows and strides of R153: LEN and ROWS within range, the reserved words zero when STRIDED is 0. -/
def stridesOk (d : Desc) (hasDst : Bool) : Bool :=
  if d.strided then
    decide (1 ≤ d.rows) && decide (1 ≤ d.len) && decide (d.rows * d.len ≤ 4194304)
      && decide (d.len ≤ d.w5.toNat) && (!hasDst || decide (d.len ≤ d.w6.toNat))
  else
    decide (1 ≤ d.len) && decide (d.len ≤ 4194304) && d.rows == 0 && d.w5 == 0 && (!hasDst || d.w6 == 0)

/-- Word 0 of a data descriptor holds SEQ, OPCODE and, where it is allowed, STRIDED, and nothing else (R151). -/
def dataWord0Ok (d : Desc) (strideable : Bool) : Bool :=
  onlyFields d.w0 (if strideable then [(32, 32), (24, 8), (16, 1)] else [(32, 32), (24, 8)])

/-- The data opcodes' own form checks (R152, R153, R170), for a queue of format version 1. Word 4 of an ATOMIC may hold anything, whatever its
AOP. (log entry 138) -/
def dataWellFormed (d : Desc) : Bool :=
  let op := d.op
  if op = Op.NOP then
    dataWord0Ok d false && d.w2 == 0 && d.w3 == 0 && d.w4 == 0 && d.w5 == 0 && d.w6 == 0 && d.w7 == 0
  else if op = Op.WRITE ∨ op = Op.READ then dataWord0Ok d true && stridesOk d true && d.w7 == 0
  else if op = Op.SEND then
    dataWord0Ok d true && stridesOk d false && onlyFields d.w3 [(32, 32), (16, 16), (0, 14)] && d.w7 == 0
  else if op = Op.RECV ∨ op = Op.ETH_RECV then
    dataWord0Ok d false && d.w3 == 0 && onlyFields d.w4 [(0, 32)] && decide (1 ≤ d.len) && decide (d.len ≤ 4194304)
      && d.w5 == 0 && d.w6 == 0 && d.w7 == 0
  else if op = Op.ATOMIC then
    dataWord0Ok d false && onlyFields d.w5 [(0, 5)] && aopOk (d.aop) && d.w6 == 0 && d.w7 == 0
  else if op = Op.PLACEMENT_FENCE then
    dataWord0Ok d false && onlyFields d.w2 [(16, 1), (0, 14)] && d.w3 == 0 && d.w4 == 0 && d.w5 == 0 && d.w6 == 0
      && d.w7 == 0
  else if op = Op.COLLECTIVE then
    dataWord0Ok d false && onlyFields d.w2 [(48, 16), (32, 12), (0, 14)] && onlyFields d.w5 [(0, 40)] && d.w7 == 0
  else false

/-! ### Packet form (R189) -/

/-- The class that R185 gives a type. -/
def classOk (type cls : Nat) : Bool :=
  if type = Pk.WRITE_DATA ∨ type = Pk.SEND_DATA ∨ type = Pk.READ_REQ ∨ type = Pk.ATOMIC_REQ then cls == Cls.REQ || cls == Cls.FWD
  else if type = Pk.COL_DATA then cls == Cls.COL
  else if type = Pk.MGT_DATA then cls == Cls.MGT
  else if decide (type ≤ 8) then cls == Cls.RSP else false

/-- Whether a type carries data. -/
def hasPayload (type : Nat) : Bool :=
  type == Pk.WRITE_DATA || type == Pk.SEND_DATA || type == Pk.READ_RSP || type == Pk.COL_DATA || type == Pk.MGT_DATA

/-- Word 1 by type (R184): INCARNATION and KEY belong to requests to regions, KEY to SEND_DATA, and answers have neither. MGT_DATA follows
SEND_DATA (R219). -/
def word1Ok (p : Packet) : Bool :=
  if p.type = Pk.WRITE_DATA ∨ p.type = Pk.READ_REQ ∨ p.type = Pk.ATOMIC_REQ ∨ p.type = Pk.COL_DATA then true
  else if p.type = Pk.SEND_DATA ∨ p.type = Pk.MGT_DATA then p.inc == 0
  else p.inc == 0 && p.key == 0

/-- The reserved bits of words 1 to 6 by type (R184); a COL packet's words 1 to 6 are the collective chapter's. -/
def reservedOk (p : Packet) : Bool :=
  let t := p.type
  word1Ok p &&
  let w2 := onlyFields p.w2 [(32, 32), (21, 11), (7, 14), (3, 4), (0, 1)]
  if t = Pk.COL_DATA then onlyFields p.w2 [(32, 32), (21, 11), (7, 14), (3, 4), (0, 1)]
  else if t = Pk.WRITE_DATA then
    w2 && onlyFields p.w3 [(41, 23)] && onlyFields p.w4 [(0, 50)] && onlyFields p.w5 [(16, 48)] && p.w6 == 0
  else if t = Pk.SEND_DATA ∨ t = Pk.MGT_DATA then
    w2 && onlyFields p.w3 [(41, 23), (25, 16), (9, 16)] && onlyFields p.w5 [(16, 48)] && p.w6 == 0
  else if t = Pk.READ_REQ then
    w2 && onlyFields p.w3 [(41, 23)] && onlyFields p.w4 [(0, 50)] && onlyFields p.w5 [(16, 48)] && onlyFields p.w6 [(0, 32)]
  else if t = Pk.READ_RSP then
    w2 && p.w3 == 0 && onlyFields p.w4 [(0, 50)] && onlyFields p.w5 [(16, 48)] && p.w6 == 0
  else if t = Pk.ATOMIC_REQ then
    w2 && onlyFields p.w4 [(0, 50)] && onlyFields p.w5 [(16, 48), (0, 5)] && (p.aop == 2 || p.w3 == 0)
  else if t = Pk.ATOMIC_RSP then w2 && p.w3 == 0 && p.w4 == 0 && onlyFields p.w5 [(16, 48), (15, 1)]
  else if t = Pk.ACK then w2 && p.w3 == 0 && onlyFields p.w5 [(16, 48), (15, 1)] && p.w6 == 0
  else if t = Pk.NAK then
    w2 && p.w3 == 0 && (p.nakReason == Nk.VERSION || p.w4 == 0) && onlyFields p.w4 [(0, 16)]
      && onlyFields p.w5 [(16, 48), (0, 15)] && p.w6 == 0
  else if t = Pk.ERROR_RSP then w2 && p.w3 == 0 && onlyFields p.w5 [(16, 48), (11, 4)] && p.w6 == 0
  else false

/-- PLEN, PSHIFT and MSG_LEN against R183 and R184. -/
def lengthsOk (p : Packet) : Bool :=
  let t := p.type
  let unit := 2 ^ p.pshift
  let shiftOk := p.pshift == 12 || p.pshift == 13
  if t = Pk.WRITE_DATA then
    shiftOk && decide (1 ≤ p.plen) && decide (p.plen ≤ unit) && decide (p.addr % unit + p.plen ≤ unit)
      && decide (1 ≤ p.msgLen) && decide (p.msgLen ≤ 4194304) && decide (p.plen ≤ p.msgLen)
  else if t = Pk.SEND_DATA ∨ t = Pk.MGT_DATA then
    shiftOk && decide (1 ≤ p.plen) && decide (p.plen ≤ unit) && decide (1 ≤ p.msgLen) && decide (p.msgLen ≤ 4194304)
      && decide (p.psn * unit + p.plen ≤ p.msgLen) && (p.psn * unit + p.plen == p.msgLen || p.plen == unit)
  else if t = Pk.READ_REQ then shiftOk && p.plen == 0 && decide (1 ≤ p.msgLen) && decide (p.msgLen ≤ 65536)
  else if t = Pk.READ_RSP then
    shiftOk && decide (1 ≤ p.plen) && decide (p.plen ≤ unit) && decide (p.addr % unit + p.plen ≤ unit)
  else if t = Pk.COL_DATA then p.plen ≤ 8192
  else p.plen == 0

/-- Whether a packet of a type that is cut by PSHIFT is cut at 8 KiB (R183). -/
def Packet.cut8k (p : Packet) : Bool :=
  p.pshift == 13 && (p.type == Pk.WRITE_DATA || p.type == Pk.SEND_DATA || p.type == Pk.READ_REQ || p.type == Pk.READ_RSP || p.type == Pk.MGT_DATA
    || p.type == Pk.COL_DATA)

/-- The form test of R189, but for the destination. -/
def packetFormOk (p : Packet) : Bool :=
  classOk p.type p.cls && reservedOk p && lengthsOk p && p.pay.length == p.plen
    && (p.type != Pk.ATOMIC_REQ || aopOk p.aop) && (p.enc || p.trailer == [])

end Sys2Proof
end

