-- ==== Sys2Proof/Machine/RegMap.lean ====
section
/-!
DEFINITION. The register map: every register of the spec's register tables, with its BAR0 offset (or its offset in the
partition BAR), its strides and counts, its width, and every field with its bits, access code (R9) and reset value.
Transcribed from the tables of spec/00_scope.md (R13, R14) and of the register sections of spec/02 to spec/15.
Reserved fields are not listed: they read as zero and keep nothing (R11).
-/
namespace Sys2Proof.Machine

/-- The access codes of R9 (spec/00_scope.md). -/
inductive Acc where
  | ro | rw | w1c | w1s | wo | rov
  deriving DecidableEq, Repr

/-- Every register, by the manual's own name. -/
inductive RegName where
  | LAMP_DEVICE_ID | LAMP_POPULATION | XLT_NODE_ID | XLT_PART_CFG | XLT_HOST_BASE | XLT_DRAIN_STATUS
  | XLT_FAULT_COUNT | RGN_INCARNATION | RGN_FREE | RGN_RETIRED | RGN_ABORT_LOG | RGN_NAK_COUNT
  | GRT_STACK_STATUS | GRT_POOL | GRT_EVAC_CFG | GRT_POISON_LOG | HST_CTRL | HST_STATUS | HST_STALL_LIMIT
  | HST_DROPPED | ACC_PORT_CFG | ACC_PORT_STATUS | ACC_MEM_CFG | ACC_STALL_LIMIT | ACC_DROPPED | ACC_REFUSED
  | QMG_CAPS | QMG_ADM_SQ_BASE | QMG_ADM_CQ_BASE | QMG_ADM_CFG | QMG_ADM_SQ_DB | QMG_ADM_CQ_DB | QMG_ADM_STATUS
  | QMG_PART_HALT | QMG_MALFORMED_LOG | QMG_BAD_DOORBELL | QMG_PADM_SQ_BASE | QMG_PADM_CQ_BASE | QMG_PADM_CFG
  | QMG_PADM_STATUS | TRN_CAPS | TRN_EPOCH | TRN_RETRY_HORIZON | TRN_RTO | TRN_ACK_CFG | TRN_ETH_NETDELAY
  | TRN_FLIGHT_STATUS | TRN_RD_STATUS | TRN_RSP_POOL | TRN_COUNT | SCH_CC_CFG | SCH_CC_DECREASE | SCH_BEACON_INJ
  | SCH_BEACON_USE | SCH_BEACON_LATE | SCH_ETH_OVERHEAD | SCH_SAMPLE_CFG | SCH_SAMPLE_SEL | SCH_SAMPLE_DATA
  | SCH_PART_SHAPE | SCH_PART_ETH_SHAPE | SCH_PART_POLICE | SCH_PART_BEACON | SCH_PART_QUEUES | SCH_WEIGHTS
  | SCH_STRICT_CAP | SCH_BEACON_PORT | SCH_MARK | SCH_CLASS_MAP | FAB_CAPS | FAB_LINK_CFG | FAB_ENGINE_STATUS
  | FAB_PORT_CFG | FAB_PORT_STATUS | FAB_PORT_ERR | FAB_CREDIT_STATUS | SWT_TOPO | SWT_DIR_LO | SWT_DIR_HI
  | SWT_ROUTE_CTRL | SWT_DRAIN_STATUS | SWT_COUNT | FAB_CAL | ARR_CAPS | ARR_FAULT_LOG | ARR_MAP_SEL
  | ARR_MAP_DATA | ARR_GROUP_STATUS | ARR_COUNT | COL_CAPS | COL_USE | COL_ABORT_LOG | COL_COUNT | ETH_PORT_CFG
  | ETH_PORT_STATUS | ETH_RX_CFG | ETH_GATE_CTRL | ETH_GATE_CYCLE | ETH_GATE_BASE | ETH_GATE_STOP | ETH_TIMER
  | ETH_TIMER_ADJ | ETH_PFC_THRESH | ETH_COUNT | ETH_MAC | ETH_FILTER_W0 | ETH_FILTER_W1 | ETH_GCL_W0
  | ETH_GCL_W1 | ETH_KT_CFG | ETH_KT_ADDR_HI | ETH_KT_ADDR_LO | ETH_WAKE_CFG | ETH_WAKE_STATUS | ETH_WAKE_PAT
  | PRT_STATE | PRT_EXPOSE | PRT_COUNT | PRT_SELF | KPR_STATUS | KPR_LC_CFG | KPR_SUPPRESS | KPR_SW_ALIVE
  | KPR_CFG | KPR_COUNT | LAMP_STATUS | LAMP_POSITION | LAMP_CAPS | LAMP_LEDGER | LAMP_IMAGE | SEC_STAGE
  | SEC_CIPHER | SEC_CIPHER_LOG | SEC_PART_KEYS | SEC_COUNT | LAMP_RTC | LAMP_RTC_ALARM | LAMP_RESET
  | LAMP_FAULT_HEAD | LAMP_FAULT_STATUS | LAMP_FAULT_CFG | LAMP_RTC_SET | LAMP_FAULT_RING | PWR_DOMAIN
  | PWR_WAKE_SET_LO | PWR_WAKE_SET_HI | PWR_THERMAL | PWR_COUNT | CNT_TIME | CNT_STOP | CNT_CFG | CNT_BW_CFG
  | CNT_OVF_LO | CNT_OVF_HI | CNT_CTRL | CNT_VALUE | CNT_BW | CNT_SAMPLE_CFG | CNT_SAMPLE_STATUS
  | CNT_SAMPLE_HEAD
  deriving DecidableEq, Repr

/-- Where a register lies: base offset, two strides with their counts, width in bits. A register of the partition BAR
has base 2^32 plus its offset, and its first index is the partition, with the stride 1 MiB. -/
structure RegPlace where
  base    : Nat
  stride  : Nat
  count   : Nat
  stride2 : Nat
  count2  : Nat
  width   : Nat
  deriving DecidableEq, Repr

/-- A field: its register, lowest bit, width, access code, and reset value. -/
structure Fld where
  reg   : RegName
  lo    : Nat
  width : Nat
  acc   : Acc
  reset : Nat
  deriving DecidableEq, Repr

/-- The offsets of the register tables. -/
def RegName.place : RegName → RegPlace
  | .LAMP_DEVICE_ID => ⟨0x0, 0x0, 1, 0x0, 1, 32⟩
  | .LAMP_POPULATION => ⟨0x8, 0x0, 1, 0x0, 1, 64⟩
  | .XLT_NODE_ID => ⟨0x600000, 0x0, 1, 0x0, 1, 32⟩
  | .XLT_PART_CFG => ⟨0x601000, 0x20, 64, 0x0, 1, 64⟩
  | .XLT_HOST_BASE => ⟨0x601008, 0x20, 64, 0x0, 1, 64⟩
  | .XLT_DRAIN_STATUS => ⟨0x601010, 0x20, 64, 0x0, 1, 64⟩
  | .XLT_FAULT_COUNT => ⟨0x601018, 0x20, 64, 0x0, 1, 64⟩
  | .RGN_INCARNATION => ⟨0x610000, 0x0, 1, 0x0, 1, 32⟩
  | .RGN_FREE => ⟨0x610008, 0x0, 1, 0x0, 1, 64⟩
  | .RGN_RETIRED => ⟨0x610010, 0x0, 1, 0x0, 1, 64⟩
  | .RGN_ABORT_LOG => ⟨0x610018, 0x0, 1, 0x0, 1, 64⟩
  | .RGN_NAK_COUNT => ⟨0x610020, 0x0, 1, 0x0, 1, 64⟩
  | .GRT_STACK_STATUS => ⟨0x620000, 0x8, 20, 0x0, 1, 64⟩
  | .GRT_POOL => ⟨0x620100, 0x0, 1, 0x0, 1, 64⟩
  | .GRT_EVAC_CFG => ⟨0x620108, 0x0, 1, 0x0, 1, 32⟩
  | .GRT_POISON_LOG => ⟨0x620110, 0x0, 1, 0x0, 1, 64⟩
  | .HST_CTRL => ⟨0x630000, 0x0, 1, 0x0, 1, 32⟩
  | .HST_STATUS => ⟨0x630008, 0x0, 1, 0x0, 1, 64⟩
  | .HST_STALL_LIMIT => ⟨0x630010, 0x0, 1, 0x0, 1, 32⟩
  | .HST_DROPPED => ⟨0x630018, 0x0, 1, 0x0, 1, 64⟩
  | .ACC_PORT_CFG => ⟨0x640000, 0x40, 16, 0x0, 1, 64⟩
  | .ACC_PORT_STATUS => ⟨0x640008, 0x40, 16, 0x0, 1, 64⟩
  | .ACC_MEM_CFG => ⟨0x640010, 0x40, 16, 0x0, 1, 32⟩
  | .ACC_STALL_LIMIT => ⟨0x640018, 0x40, 16, 0x0, 1, 32⟩
  | .ACC_DROPPED => ⟨0x640020, 0x40, 16, 0x0, 1, 64⟩
  | .ACC_REFUSED => ⟨0x640028, 0x40, 16, 0x0, 1, 64⟩
  | .QMG_CAPS => ⟨0x650000, 0x0, 1, 0x0, 1, 64⟩
  | .QMG_ADM_SQ_BASE => ⟨0x650008, 0x0, 1, 0x0, 1, 64⟩
  | .QMG_ADM_CQ_BASE => ⟨0x650010, 0x0, 1, 0x0, 1, 64⟩
  | .QMG_ADM_CFG => ⟨0x650018, 0x0, 1, 0x0, 1, 32⟩
  | .QMG_ADM_SQ_DB => ⟨0x650020, 0x0, 1, 0x0, 1, 32⟩
  | .QMG_ADM_CQ_DB => ⟨0x650028, 0x0, 1, 0x0, 1, 64⟩
  | .QMG_ADM_STATUS => ⟨0x650030, 0x0, 1, 0x0, 1, 64⟩
  | .QMG_PART_HALT => ⟨0x650038, 0x0, 1, 0x0, 1, 64⟩
  | .QMG_MALFORMED_LOG => ⟨0x650040, 0x0, 1, 0x0, 1, 64⟩
  | .QMG_BAD_DOORBELL => ⟨0x650048, 0x0, 1, 0x0, 1, 64⟩
  | .QMG_PADM_SQ_BASE => ⟨0x100000100, 0x100000, 64, 0x0, 1, 64⟩
  | .QMG_PADM_CQ_BASE => ⟨0x100000108, 0x100000, 64, 0x0, 1, 64⟩
  | .QMG_PADM_CFG => ⟨0x100000110, 0x100000, 64, 0x0, 1, 32⟩
  | .QMG_PADM_STATUS => ⟨0x100000118, 0x100000, 64, 0x0, 1, 64⟩
  | .TRN_CAPS => ⟨0x660000, 0x0, 1, 0x0, 1, 32⟩
  | .TRN_EPOCH => ⟨0x660008, 0x0, 1, 0x0, 1, 32⟩
  | .TRN_RETRY_HORIZON => ⟨0x660010, 0x0, 1, 0x0, 1, 32⟩
  | .TRN_RTO => ⟨0x660018, 0x0, 1, 0x0, 1, 64⟩
  | .TRN_ACK_CFG => ⟨0x660020, 0x0, 1, 0x0, 1, 32⟩
  | .TRN_ETH_NETDELAY => ⟨0x660028, 0x0, 1, 0x0, 1, 32⟩
  | .TRN_FLIGHT_STATUS => ⟨0x660040, 0x8, 2, 0x0, 1, 64⟩
  | .TRN_RD_STATUS => ⟨0x660050, 0x8, 2, 0x0, 1, 64⟩
  | .TRN_RSP_POOL => ⟨0x660060, 0x8, 2, 0x0, 1, 64⟩
  | .TRN_COUNT => ⟨0x660100, 0x8, 10, 0x0, 1, 64⟩
  | .SCH_CC_CFG => ⟨0x670000, 0x0, 1, 0x0, 1, 64⟩
  | .SCH_CC_DECREASE => ⟨0x670008, 0x0, 1, 0x0, 1, 32⟩
  | .SCH_BEACON_INJ => ⟨0x670010, 0x0, 1, 0x0, 1, 64⟩
  | .SCH_BEACON_USE => ⟨0x670018, 0x0, 1, 0x0, 1, 64⟩
  | .SCH_BEACON_LATE => ⟨0x670020, 0x0, 1, 0x0, 1, 64⟩
  | .SCH_ETH_OVERHEAD => ⟨0x670028, 0x0, 1, 0x0, 1, 32⟩
  | .SCH_SAMPLE_CFG => ⟨0x670030, 0x0, 1, 0x0, 1, 32⟩
  | .SCH_SAMPLE_SEL => ⟨0x670038, 0x0, 1, 0x0, 1, 32⟩
  | .SCH_SAMPLE_DATA => ⟨0x670040, 0x0, 1, 0x0, 1, 64⟩
  | .SCH_PART_SHAPE => ⟨0x671000, 0x40, 64, 0x0, 1, 64⟩
  | .SCH_PART_ETH_SHAPE => ⟨0x671008, 0x40, 64, 0x0, 1, 64⟩
  | .SCH_PART_POLICE => ⟨0x671010, 0x40, 64, 0x0, 1, 64⟩
  | .SCH_PART_BEACON => ⟨0x671018, 0x40, 64, 0x0, 1, 64⟩
  | .SCH_PART_QUEUES => ⟨0x671020, 0x40, 64, 0x0, 1, 64⟩
  | .SCH_WEIGHTS => ⟨0x680000, 0x80, 146, 0x8, 8, 64⟩
  | .SCH_STRICT_CAP => ⟨0x680040, 0x80, 146, 0x0, 1, 64⟩
  | .SCH_BEACON_PORT => ⟨0x680048, 0x80, 146, 0x0, 1, 64⟩
  | .SCH_MARK => ⟨0x680050, 0x80, 146, 0x0, 1, 32⟩
  | .SCH_CLASS_MAP => ⟨0x680058, 0x80, 146, 0x0, 1, 32⟩
  | .FAB_CAPS => ⟨0x690000, 0x0, 1, 0x0, 1, 32⟩
  | .FAB_LINK_CFG => ⟨0x690008, 0x0, 1, 0x0, 1, 32⟩
  | .FAB_ENGINE_STATUS => ⟨0x690100, 0x8, 32, 0x0, 1, 64⟩
  | .FAB_PORT_CFG => ⟨0x691000, 0x40, 128, 0x0, 1, 32⟩
  | .FAB_PORT_STATUS => ⟨0x691008, 0x40, 128, 0x0, 1, 64⟩
  | .FAB_PORT_ERR => ⟨0x691010, 0x40, 128, 0x0, 1, 64⟩
  | .FAB_CREDIT_STATUS => ⟨0x691018, 0x40, 128, 0x0, 1, 64⟩
  | .SWT_TOPO => ⟨0x6A0000, 0x8, 6, 0x0, 1, 32⟩
  | .SWT_DIR_LO => ⟨0x6A0100, 0x10, 6, 0x0, 1, 64⟩
  | .SWT_DIR_HI => ⟨0x6A0108, 0x10, 6, 0x0, 1, 64⟩
  | .SWT_ROUTE_CTRL => ⟨0x6A0200, 0x0, 1, 0x0, 1, 32⟩
  | .SWT_DRAIN_STATUS => ⟨0x6A0210, 0x8, 6, 0x0, 1, 32⟩
  | .SWT_COUNT => ⟨0x6A0300, 0x8, 6, 0x0, 1, 64⟩
  | .FAB_CAL => ⟨0x700000, 0x800, 146, 0x8, 256, 64⟩
  | .ARR_CAPS => ⟨0x780000, 0x0, 1, 0x0, 1, 64⟩
  | .ARR_FAULT_LOG => ⟨0x780008, 0x0, 1, 0x0, 1, 64⟩
  | .ARR_MAP_SEL => ⟨0x780010, 0x0, 1, 0x0, 1, 32⟩
  | .ARR_MAP_DATA => ⟨0x780018, 0x0, 1, 0x0, 1, 32⟩
  | .ARR_GROUP_STATUS => ⟨0x780100, 0x8, 16, 0x0, 1, 64⟩
  | .ARR_COUNT => ⟨0x780200, 0x8, 7, 0x0, 1, 64⟩
  | .COL_CAPS => ⟨0x790000, 0x0, 1, 0x0, 1, 64⟩
  | .COL_USE => ⟨0x790008, 0x0, 1, 0x0, 1, 64⟩
  | .COL_ABORT_LOG => ⟨0x790010, 0x0, 1, 0x0, 1, 64⟩
  | .COL_COUNT => ⟨0x790100, 0x8, 8, 0x0, 1, 64⟩
  | .ETH_PORT_CFG => ⟨0x7A0000, 0x100, 8, 0x0, 1, 64⟩
  | .ETH_PORT_STATUS => ⟨0x7A0008, 0x100, 8, 0x0, 1, 64⟩
  | .ETH_RX_CFG => ⟨0x7A0010, 0x100, 8, 0x0, 1, 32⟩
  | .ETH_GATE_CTRL => ⟨0x7A0018, 0x100, 8, 0x0, 1, 32⟩
  | .ETH_GATE_CYCLE => ⟨0x7A0020, 0x100, 8, 0x0, 1, 32⟩
  | .ETH_GATE_BASE => ⟨0x7A0028, 0x100, 8, 0x0, 1, 64⟩
  | .ETH_GATE_STOP => ⟨0x7A0030, 0x100, 8, 0x0, 1, 64⟩
  | .ETH_TIMER => ⟨0x7A0038, 0x100, 8, 0x0, 1, 64⟩
  | .ETH_TIMER_ADJ => ⟨0x7A0040, 0x100, 8, 0x0, 1, 64⟩
  | .ETH_PFC_THRESH => ⟨0x7A0080, 0x100, 8, 0x8, 8, 64⟩
  | .ETH_COUNT => ⟨0x7A1000, 0x80, 8, 0x8, 10, 64⟩
  | .ETH_MAC => ⟨0x7B0000, 0x200, 8, 0x8, 64, 64⟩
  | .ETH_FILTER_W0 => ⟨0x7C0000, 0x1000, 8, 0x10, 256, 64⟩
  | .ETH_FILTER_W1 => ⟨0x7C0008, 0x1000, 8, 0x10, 256, 64⟩
  | .ETH_GCL_W0 => ⟨0x7D0000, 0x1000, 8, 0x10, 256, 64⟩
  | .ETH_GCL_W1 => ⟨0x7D0008, 0x1000, 8, 0x10, 256, 64⟩
  | .ETH_KT_CFG => ⟨0x7E0000, 0x0, 1, 0x0, 1, 64⟩
  | .ETH_KT_ADDR_HI => ⟨0x7E0008, 0x0, 1, 0x0, 1, 64⟩
  | .ETH_KT_ADDR_LO => ⟨0x7E0010, 0x0, 1, 0x0, 1, 64⟩
  | .ETH_WAKE_CFG => ⟨0x7E0020, 0x0, 1, 0x0, 1, 32⟩
  | .ETH_WAKE_STATUS => ⟨0x7E0028, 0x0, 1, 0x0, 1, 32⟩
  | .ETH_WAKE_PAT => ⟨0x7E0100, 0x100, 4, 0x8, 18, 64⟩
  | .PRT_STATE => ⟨0x800000, 0x10, 64, 0x0, 1, 64⟩
  | .PRT_EXPOSE => ⟨0x800800, 0x8, 16, 0x0, 1, 64⟩
  | .PRT_COUNT => ⟨0x800900, 0x8, 4, 0x0, 1, 64⟩
  | .PRT_SELF => ⟨0x100000010, 0x100000, 64, 0x0, 1, 64⟩
  | .KPR_STATUS => ⟨0x810000, 0x0, 1, 0x0, 1, 64⟩
  | .KPR_LC_CFG => ⟨0x810008, 0x0, 1, 0x0, 1, 64⟩
  | .KPR_SUPPRESS => ⟨0x810010, 0x0, 1, 0x0, 1, 32⟩
  | .KPR_SW_ALIVE => ⟨0x810018, 0x0, 1, 0x0, 1, 32⟩
  | .KPR_CFG => ⟨0x810020, 0x0, 1, 0x0, 1, 32⟩
  | .KPR_COUNT => ⟨0x810100, 0x8, 9, 0x0, 1, 64⟩
  | .LAMP_STATUS => ⟨0x100, 0x0, 1, 0x0, 1, 64⟩
  | .LAMP_POSITION => ⟨0x108, 0x0, 1, 0x0, 1, 32⟩
  | .LAMP_CAPS => ⟨0x110, 0x0, 1, 0x0, 1, 32⟩
  | .LAMP_LEDGER => ⟨0x118, 0x0, 1, 0x0, 1, 64⟩
  | .LAMP_IMAGE => ⟨0x120, 0x0, 1, 0x0, 1, 64⟩
  | .SEC_STAGE => ⟨0x820000, 0x0, 1, 0x0, 1, 64⟩
  | .SEC_CIPHER => ⟨0x820008, 0x0, 1, 0x0, 1, 64⟩
  | .SEC_CIPHER_LOG => ⟨0x820010, 0x0, 1, 0x0, 1, 64⟩
  | .SEC_PART_KEYS => ⟨0x820100, 0x8, 64, 0x0, 1, 64⟩
  | .SEC_COUNT => ⟨0x820400, 0x8, 8, 0x0, 1, 64⟩
  | .LAMP_RTC => ⟨0x200, 0x0, 1, 0x0, 1, 64⟩
  | .LAMP_RTC_ALARM => ⟨0x208, 0x0, 1, 0x0, 1, 64⟩
  | .LAMP_RESET => ⟨0x210, 0x0, 1, 0x0, 1, 32⟩
  | .LAMP_FAULT_HEAD => ⟨0x218, 0x0, 1, 0x0, 1, 64⟩
  | .LAMP_FAULT_STATUS => ⟨0x220, 0x0, 1, 0x0, 1, 64⟩
  | .LAMP_FAULT_CFG => ⟨0x228, 0x0, 1, 0x0, 1, 32⟩
  | .LAMP_RTC_SET => ⟨0x230, 0x0, 1, 0x0, 1, 64⟩
  | .LAMP_FAULT_RING => ⟨0x10000, 0x8, 4096, 0x0, 1, 64⟩
  | .PWR_DOMAIN => ⟨0x830000, 0x8, 84, 0x0, 1, 32⟩
  | .PWR_WAKE_SET_LO => ⟨0x830400, 0x0, 1, 0x0, 1, 64⟩
  | .PWR_WAKE_SET_HI => ⟨0x830408, 0x0, 1, 0x0, 1, 64⟩
  | .PWR_THERMAL => ⟨0x830410, 0x0, 1, 0x0, 1, 64⟩
  | .PWR_COUNT => ⟨0x830500, 0x8, 4, 0x0, 1, 64⟩
  | .CNT_TIME => ⟨0x840000, 0x0, 1, 0x0, 1, 64⟩
  | .CNT_STOP => ⟨0x840008, 0x0, 1, 0x0, 1, 64⟩
  | .CNT_CFG => ⟨0x840010, 0x0, 1, 0x0, 1, 32⟩
  | .CNT_BW_CFG => ⟨0x840018, 0x0, 1, 0x0, 1, 64⟩
  | .CNT_OVF_LO => ⟨0x840020, 0x0, 1, 0x0, 1, 64⟩
  | .CNT_OVF_HI => ⟨0x840028, 0x0, 1, 0x0, 1, 64⟩
  | .CNT_CTRL => ⟨0x841000, 0x10, 128, 0x0, 1, 32⟩
  | .CNT_VALUE => ⟨0x841008, 0x10, 128, 0x0, 1, 32⟩
  | .CNT_BW => ⟨0x842000, 0x8, 163, 0x0, 1, 64⟩
  | .CNT_SAMPLE_CFG => ⟨0x843000, 0x0, 1, 0x0, 1, 64⟩
  | .CNT_SAMPLE_STATUS => ⟨0x843008, 0x0, 1, 0x0, 1, 64⟩
  | .CNT_SAMPLE_HEAD => ⟨0x843010, 0x0, 1, 0x0, 1, 32⟩

/-- Every register, in the order of the manual. -/
def RegName.all : List RegName :=
  ([.LAMP_DEVICE_ID, .LAMP_POPULATION, .XLT_NODE_ID, .XLT_PART_CFG, .XLT_HOST_BASE, .XLT_DRAIN_STATUS, .XLT_FAULT_COUNT, .RGN_INCARNATION, .RGN_FREE, .RGN_RETIRED, .RGN_ABORT_LOG, .RGN_NAK_COUNT] : List RegName) ++
  ([.GRT_STACK_STATUS, .GRT_POOL, .GRT_EVAC_CFG, .GRT_POISON_LOG, .HST_CTRL, .HST_STATUS, .HST_STALL_LIMIT, .HST_DROPPED, .ACC_PORT_CFG, .ACC_PORT_STATUS, .ACC_MEM_CFG, .ACC_STALL_LIMIT] : List RegName) ++
  ([.ACC_DROPPED, .ACC_REFUSED, .QMG_CAPS, .QMG_ADM_SQ_BASE, .QMG_ADM_CQ_BASE, .QMG_ADM_CFG, .QMG_ADM_SQ_DB, .QMG_ADM_CQ_DB, .QMG_ADM_STATUS, .QMG_PART_HALT, .QMG_MALFORMED_LOG, .QMG_BAD_DOORBELL] : List RegName) ++
  ([.QMG_PADM_SQ_BASE, .QMG_PADM_CQ_BASE, .QMG_PADM_CFG, .QMG_PADM_STATUS, .TRN_CAPS, .TRN_EPOCH, .TRN_RETRY_HORIZON, .TRN_RTO, .TRN_ACK_CFG, .TRN_ETH_NETDELAY, .TRN_FLIGHT_STATUS, .TRN_RD_STATUS] : List RegName) ++
  ([.TRN_RSP_POOL, .TRN_COUNT, .SCH_CC_CFG, .SCH_CC_DECREASE, .SCH_BEACON_INJ, .SCH_BEACON_USE, .SCH_BEACON_LATE, .SCH_ETH_OVERHEAD, .SCH_SAMPLE_CFG, .SCH_SAMPLE_SEL, .SCH_SAMPLE_DATA, .SCH_PART_SHAPE] : List RegName) ++
  ([.SCH_PART_ETH_SHAPE, .SCH_PART_POLICE, .SCH_PART_BEACON, .SCH_PART_QUEUES, .SCH_WEIGHTS, .SCH_STRICT_CAP, .SCH_BEACON_PORT, .SCH_MARK, .SCH_CLASS_MAP, .FAB_CAPS, .FAB_LINK_CFG, .FAB_ENGINE_STATUS] : List RegName) ++
  ([.FAB_PORT_CFG, .FAB_PORT_STATUS, .FAB_PORT_ERR, .FAB_CREDIT_STATUS, .SWT_TOPO, .SWT_DIR_LO, .SWT_DIR_HI, .SWT_ROUTE_CTRL, .SWT_DRAIN_STATUS, .SWT_COUNT, .FAB_CAL, .ARR_CAPS] : List RegName) ++
  ([.ARR_FAULT_LOG, .ARR_MAP_SEL, .ARR_MAP_DATA, .ARR_GROUP_STATUS, .ARR_COUNT, .COL_CAPS, .COL_USE, .COL_ABORT_LOG, .COL_COUNT, .ETH_PORT_CFG, .ETH_PORT_STATUS, .ETH_RX_CFG] : List RegName) ++
  ([.ETH_GATE_CTRL, .ETH_GATE_CYCLE, .ETH_GATE_BASE, .ETH_GATE_STOP, .ETH_TIMER, .ETH_TIMER_ADJ, .ETH_PFC_THRESH, .ETH_COUNT, .ETH_MAC, .ETH_FILTER_W0, .ETH_FILTER_W1, .ETH_GCL_W0] : List RegName) ++
  ([.ETH_GCL_W1, .ETH_KT_CFG, .ETH_KT_ADDR_HI, .ETH_KT_ADDR_LO, .ETH_WAKE_CFG, .ETH_WAKE_STATUS, .ETH_WAKE_PAT, .PRT_STATE, .PRT_EXPOSE, .PRT_COUNT, .PRT_SELF, .KPR_STATUS] : List RegName) ++
  ([.KPR_LC_CFG, .KPR_SUPPRESS, .KPR_SW_ALIVE, .KPR_CFG, .KPR_COUNT, .LAMP_STATUS, .LAMP_POSITION, .LAMP_CAPS, .LAMP_LEDGER, .LAMP_IMAGE, .SEC_STAGE, .SEC_CIPHER] : List RegName) ++
  ([.SEC_CIPHER_LOG, .SEC_PART_KEYS, .SEC_COUNT, .LAMP_RTC, .LAMP_RTC_ALARM, .LAMP_RESET, .LAMP_FAULT_HEAD, .LAMP_FAULT_STATUS, .LAMP_FAULT_CFG, .LAMP_RTC_SET, .LAMP_FAULT_RING, .PWR_DOMAIN] : List RegName) ++
  ([.PWR_WAKE_SET_LO, .PWR_WAKE_SET_HI, .PWR_THERMAL, .PWR_COUNT, .CNT_TIME, .CNT_STOP, .CNT_CFG, .CNT_BW_CFG, .CNT_OVF_LO, .CNT_OVF_HI, .CNT_CTRL, .CNT_VALUE] : List RegName) ++
  ([.CNT_BW, .CNT_SAMPLE_CFG, .CNT_SAMPLE_STATUS, .CNT_SAMPLE_HEAD] : List RegName)

namespace F

def LAMP_DEVICE_ID_STEPPING : Fld := ⟨.LAMP_DEVICE_ID, 24, 8, .ro, 0x0⟩
def LAMP_DEVICE_ID_VARIANT : Fld := ⟨.LAMP_DEVICE_ID, 16, 8, .rov, 0x0⟩
def LAMP_DEVICE_ID_FAMILY : Fld := ⟨.LAMP_DEVICE_ID, 0, 16, .ro, 0x5A51⟩
def LAMP_POPULATION_OPTICAL_ENGINES : Fld := ⟨.LAMP_POPULATION, 32, 32, .rov, 0x0⟩
def LAMP_POPULATION_LANTERN : Fld := ⟨.LAMP_POPULATION, 28, 2, .rov, 0x0⟩
def LAMP_POPULATION_PORT_DIES : Fld := ⟨.LAMP_POPULATION, 20, 8, .rov, 0x0⟩
def LAMP_POPULATION_GROTTO_STACKS : Fld := ⟨.LAMP_POPULATION, 0, 20, .rov, 0x0⟩
def XLT_NODE_ID_VALID : Fld := ⟨.XLT_NODE_ID, 31, 1, .rov, 0x0⟩
def XLT_NODE_ID_NODE : Fld := ⟨.XLT_NODE_ID, 0, 14, .rov, 0x0⟩
def XLT_PART_CFG_PAGES : Fld := ⟨.XLT_PART_CFG, 32, 21, .ro, 0x0⟩
def XLT_PART_CFG_ACC_ALLOW : Fld := ⟨.XLT_PART_CFG, 16, 16, .ro, 0x0⟩
def XLT_PART_CFG_HOST_ALLOW : Fld := ⟨.XLT_PART_CFG, 15, 1, .ro, 0x0⟩
def XLT_PART_CFG_GALLERY_ALLOW : Fld := ⟨.XLT_PART_CFG, 14, 1, .ro, 0x0⟩
def XLT_PART_CFG_ENABLED : Fld := ⟨.XLT_PART_CFG, 0, 1, .ro, 0x0⟩
def XLT_HOST_BASE_ADDR : Fld := ⟨.XLT_HOST_BASE, 12, 52, .rw, 0x0⟩
def XLT_DRAIN_STATUS_ACTIVE : Fld := ⟨.XLT_DRAIN_STATUS, 63, 1, .rov, 0x0⟩
def XLT_DRAIN_STATUS_WAITING : Fld := ⟨.XLT_DRAIN_STATUS, 0, 32, .rov, 0x0⟩
def XLT_FAULT_COUNT_COUNT : Fld := ⟨.XLT_FAULT_COUNT, 0, 64, .rov, 0x0⟩
def RGN_INCARNATION_INCARNATION : Fld := ⟨.RGN_INCARNATION, 0, 16, .rov, 0x0⟩
def RGN_FREE_DIE1 : Fld := ⟨.RGN_FREE, 32, 20, .rov, 0x40000⟩
def RGN_FREE_DIE0 : Fld := ⟨.RGN_FREE, 0, 20, .rov, 0x40000⟩
def RGN_RETIRED_DIE1 : Fld := ⟨.RGN_RETIRED, 32, 20, .rov, 0x0⟩
def RGN_RETIRED_DIE0 : Fld := ⟨.RGN_RETIRED, 0, 20, .rov, 0x0⟩
def RGN_ABORT_LOG_VALID : Fld := ⟨.RGN_ABORT_LOG, 63, 1, .w1c, 0x0⟩
def RGN_ABORT_LOG_INDEX : Fld := ⟨.RGN_ABORT_LOG, 32, 19, .rov, 0x0⟩
def RGN_ABORT_LOG_COUNT : Fld := ⟨.RGN_ABORT_LOG, 0, 32, .rov, 0x0⟩
def RGN_NAK_COUNT_DENIED : Fld := ⟨.RGN_NAK_COUNT, 32, 32, .rov, 0x0⟩
def RGN_NAK_COUNT_REVOKED : Fld := ⟨.RGN_NAK_COUNT, 0, 32, .rov, 0x0⟩
def GRT_STACK_STATUS_CE_COUNT : Fld := ⟨.GRT_STACK_STATUS, 32, 32, .rov, 0x0⟩
def GRT_STACK_STATUS_UE_COUNT : Fld := ⟨.GRT_STACK_STATUS, 16, 16, .rov, 0x0⟩
def GRT_STACK_STATUS_POWER : Fld := ⟨.GRT_STACK_STATUS, 4, 4, .rov, 0x0⟩
def GRT_STACK_STATUS_STATE : Fld := ⟨.GRT_STACK_STATUS, 0, 4, .rov, 0x0⟩
def GRT_POOL_FREE : Fld := ⟨.GRT_POOL, 32, 21, .rov, 0x0⟩
def GRT_POOL_INTERNAL : Fld := ⟨.GRT_POOL, 0, 21, .rov, 0x0⟩
def GRT_EVAC_CFG_CE_LIMIT : Fld := ⟨.GRT_EVAC_CFG, 16, 16, .rw, 0x10⟩
def GRT_EVAC_CFG_STACK_LIMIT : Fld := ⟨.GRT_EVAC_CFG, 8, 8, .rw, 0x40⟩
def GRT_EVAC_CFG_AUTO : Fld := ⟨.GRT_EVAC_CFG, 0, 1, .rw, 0x1⟩
def GRT_POISON_LOG_VALID : Fld := ⟨.GRT_POISON_LOG, 63, 1, .w1c, 0x0⟩
def GRT_POISON_LOG_LINE : Fld := ⟨.GRT_POISON_LOG, 6, 42, .rov, 0x0⟩
def HST_CTRL_CXL_EN : Fld := ⟨.HST_CTRL, 3, 1, .rw, 0x0⟩
def HST_CTRL_DETACH : Fld := ⟨.HST_CTRL, 2, 1, .wo, 0x0⟩
def HST_CTRL_ATTACH : Fld := ⟨.HST_CTRL, 1, 1, .wo, 0x0⟩
def HST_CTRL_ENABLE : Fld := ⟨.HST_CTRL, 0, 1, .wo, 0x0⟩
def HST_STATUS_LOSS_COUNT : Fld := ⟨.HST_STATUS, 32, 32, .rov, 0x0⟩
def HST_STATUS_RATE : Fld := ⟨.HST_STATUS, 12, 4, .rov, 0x0⟩
def HST_STATUS_WIDTH : Fld := ⟨.HST_STATUS, 8, 4, .rov, 0x0⟩
def HST_STATUS_MODE : Fld := ⟨.HST_STATUS, 4, 4, .rov, 0x0⟩
def HST_STATUS_LOST : Fld := ⟨.HST_STATUS, 1, 1, .rov, 0x0⟩
def HST_STATUS_UP : Fld := ⟨.HST_STATUS, 0, 1, .rov, 0x0⟩
def HST_STALL_LIMIT_LIMIT : Fld := ⟨.HST_STALL_LIMIT, 0, 20, .rw, 0x7D0⟩
def HST_DROPPED_COUNT : Fld := ⟨.HST_DROPPED, 0, 64, .rov, 0x0⟩
def ACC_PORT_CFG_ADDR_BASE : Fld := ⟨.ACC_PORT_CFG, 44, 20, .rw, 0x0⟩
def ACC_PORT_CFG_CXL_EN : Fld := ⟨.ACC_PORT_CFG, 39, 1, .rw, 0x1⟩
def ACC_PORT_CFG_DETACH : Fld := ⟨.ACC_PORT_CFG, 38, 1, .wo, 0x0⟩
def ACC_PORT_CFG_ATTACH : Fld := ⟨.ACC_PORT_CFG, 37, 1, .wo, 0x0⟩
def ACC_PORT_CFG_ENABLE : Fld := ⟨.ACC_PORT_CFG, 36, 1, .wo, 0x0⟩
def ACC_PORT_STATUS_LOSS_COUNT : Fld := ⟨.ACC_PORT_STATUS, 32, 32, .rov, 0x0⟩
def ACC_PORT_STATUS_NUM_VFS : Fld := ⟨.ACC_PORT_STATUS, 24, 8, .rov, 0x0⟩
def ACC_PORT_STATUS_RATE : Fld := ⟨.ACC_PORT_STATUS, 12, 4, .rov, 0x0⟩
def ACC_PORT_STATUS_WIDTH : Fld := ⟨.ACC_PORT_STATUS, 8, 4, .rov, 0x0⟩
def ACC_PORT_STATUS_MODE : Fld := ⟨.ACC_PORT_STATUS, 4, 4, .rov, 0x0⟩
def ACC_PORT_STATUS_ATOMIC_OK : Fld := ⟨.ACC_PORT_STATUS, 3, 1, .rov, 0x0⟩
def ACC_PORT_STATUS_LOST : Fld := ⟨.ACC_PORT_STATUS, 1, 1, .rov, 0x0⟩
def ACC_PORT_STATUS_UP : Fld := ⟨.ACC_PORT_STATUS, 0, 1, .rov, 0x0⟩
def ACC_MEM_CFG_ENABLE : Fld := ⟨.ACC_MEM_CFG, 31, 1, .rw, 0x0⟩
def ACC_MEM_CFG_PART : Fld := ⟨.ACC_MEM_CFG, 0, 6, .rw, 0x0⟩
def ACC_STALL_LIMIT_LIMIT : Fld := ⟨.ACC_STALL_LIMIT, 0, 20, .rw, 0x7D0⟩
def ACC_DROPPED_COUNT : Fld := ⟨.ACC_DROPPED, 0, 64, .rov, 0x0⟩
def ACC_REFUSED_STORES : Fld := ⟨.ACC_REFUSED, 32, 32, .rov, 0x0⟩
def ACC_REFUSED_LOADS : Fld := ⟨.ACC_REFUSED, 0, 32, .rov, 0x0⟩
def QMG_CAPS_FMT : Fld := ⟨.QMG_CAPS, 48, 16, .ro, 0x2⟩
def QMG_CAPS_RINGS : Fld := ⟨.QMG_CAPS, 20, 20, .ro, 0x10000⟩
def QMG_CAPS_QPS : Fld := ⟨.QMG_CAPS, 0, 20, .ro, 0x10000⟩
def QMG_ADM_SQ_BASE_ADDR : Fld := ⟨.QMG_ADM_SQ_BASE, 12, 52, .rw, 0x0⟩
def QMG_ADM_CQ_BASE_ADDR : Fld := ⟨.QMG_ADM_CQ_BASE, 12, 52, .rw, 0x0⟩
def QMG_ADM_CFG_ENABLE : Fld := ⟨.QMG_ADM_CFG, 31, 1, .rw, 0x0⟩
def QMG_ADM_CFG_VECTOR : Fld := ⟨.QMG_ADM_CFG, 20, 11, .rw, 0x0⟩
def QMG_ADM_CFG_SPLIT : Fld := ⟨.QMG_ADM_CFG, 19, 1, .rw, 0x0⟩
def QMG_ADM_CFG_CQ_LOG2 : Fld := ⟨.QMG_ADM_CFG, 10, 5, .rw, 0x6⟩
def QMG_ADM_CFG_SQ_LOG2 : Fld := ⟨.QMG_ADM_CFG, 5, 5, .rw, 0x6⟩
def QMG_ADM_SQ_DB_PI : Fld := ⟨.QMG_ADM_SQ_DB, 0, 32, .wo, 0x0⟩
def QMG_ADM_CQ_DB_ARM : Fld := ⟨.QMG_ADM_CQ_DB, 63, 1, .wo, 0x0⟩
def QMG_ADM_CQ_DB_HEAD : Fld := ⟨.QMG_ADM_CQ_DB, 0, 32, .wo, 0x0⟩
def QMG_ADM_STATUS_FETCH : Fld := ⟨.QMG_ADM_STATUS, 32, 32, .rov, 0x0⟩
def QMG_ADM_STATUS_HALT : Fld := ⟨.QMG_ADM_STATUS, 11, 1, .rov, 0x0⟩
def QMG_ADM_STATUS_SEQ_WAIT : Fld := ⟨.QMG_ADM_STATUS, 10, 1, .rov, 0x0⟩
def QMG_ADM_STATUS_CQ_STATE : Fld := ⟨.QMG_ADM_STATUS, 4, 4, .rov, 0x0⟩
def QMG_ADM_STATUS_SQ_STATE : Fld := ⟨.QMG_ADM_STATUS, 0, 4, .rov, 0x0⟩
def QMG_PART_HALT_HALTED : Fld := ⟨.QMG_PART_HALT, 0, 64, .rov, 0x0⟩
def QMG_MALFORMED_LOG_VALID : Fld := ⟨.QMG_MALFORMED_LOG, 63, 1, .w1c, 0x0⟩
def QMG_MALFORMED_LOG_DEVICE : Fld := ⟨.QMG_MALFORMED_LOG, 62, 1, .rov, 0x0⟩
def QMG_MALFORMED_LOG_PART : Fld := ⟨.QMG_MALFORMED_LOG, 56, 6, .rov, 0x0⟩
def QMG_MALFORMED_LOG_QUEUE : Fld := ⟨.QMG_MALFORMED_LOG, 40, 16, .rov, 0x0⟩
def QMG_MALFORMED_LOG_OPCODE : Fld := ⟨.QMG_MALFORMED_LOG, 32, 8, .rov, 0x0⟩
def QMG_MALFORMED_LOG_SEQ : Fld := ⟨.QMG_MALFORMED_LOG, 0, 32, .rov, 0x0⟩
def QMG_BAD_DOORBELL_COUNT : Fld := ⟨.QMG_BAD_DOORBELL, 0, 64, .rov, 0x0⟩
def QMG_PADM_SQ_BASE_ADDR : Fld := ⟨.QMG_PADM_SQ_BASE, 12, 52, .rw, 0x0⟩
def QMG_PADM_CQ_BASE_ADDR : Fld := ⟨.QMG_PADM_CQ_BASE, 12, 52, .rw, 0x0⟩
def QMG_PADM_CFG_ENABLE : Fld := ⟨.QMG_PADM_CFG, 31, 1, .rw, 0x0⟩
def QMG_PADM_CFG_VECTOR : Fld := ⟨.QMG_PADM_CFG, 20, 11, .rw, 0x0⟩
def QMG_PADM_CFG_SPLIT : Fld := ⟨.QMG_PADM_CFG, 19, 1, .rw, 0x0⟩
def QMG_PADM_CFG_CQ_LOG2 : Fld := ⟨.QMG_PADM_CFG, 10, 5, .rw, 0x6⟩
def QMG_PADM_CFG_SQ_LOG2 : Fld := ⟨.QMG_PADM_CFG, 5, 5, .rw, 0x6⟩
def QMG_PADM_STATUS_FETCH : Fld := ⟨.QMG_PADM_STATUS, 32, 32, .rov, 0x0⟩
def QMG_PADM_STATUS_HALT : Fld := ⟨.QMG_PADM_STATUS, 11, 1, .rov, 0x0⟩
def QMG_PADM_STATUS_SEQ_WAIT : Fld := ⟨.QMG_PADM_STATUS, 10, 1, .rov, 0x0⟩
def QMG_PADM_STATUS_CQ_STATE : Fld := ⟨.QMG_PADM_STATUS, 4, 4, .rov, 0x0⟩
def QMG_PADM_STATUS_SQ_STATE : Fld := ⟨.QMG_PADM_STATUS, 0, 4, .rov, 0x0⟩
def TRN_CAPS_VERSIONS : Fld := ⟨.TRN_CAPS, 0, 16, .ro, 0x2⟩
def TRN_EPOCH_EPOCH : Fld := ⟨.TRN_EPOCH, 0, 16, .rov, 0x0⟩
def TRN_RETRY_HORIZON_HORIZON : Fld := ⟨.TRN_RETRY_HORIZON, 0, 11, .rw, 0x7D0⟩
def TRN_RTO_RTO_MAX : Fld := ⟨.TRN_RTO, 32, 16, .rw, 0x100⟩
def TRN_RTO_RTO_INIT : Fld := ⟨.TRN_RTO, 16, 16, .rw, 0x14⟩
def TRN_RTO_RTO_MIN : Fld := ⟨.TRN_RTO, 0, 16, .rw, 0x1F40⟩
def TRN_ACK_CFG_COUNT : Fld := ⟨.TRN_ACK_CFG, 8, 6, .rw, 0x8⟩
def TRN_ACK_CFG_DELAY : Fld := ⟨.TRN_ACK_CFG, 0, 8, .rw, 0x20⟩
def TRN_ETH_NETDELAY_NETDELAY : Fld := ⟨.TRN_ETH_NETDELAY, 0, 10, .rw, 0xFA⟩
def TRN_FLIGHT_STATUS_WAITING : Fld := ⟨.TRN_FLIGHT_STATUS, 32, 32, .rov, 0x0⟩
def TRN_FLIGHT_STATUS_IN_USE : Fld := ⟨.TRN_FLIGHT_STATUS, 0, 16, .rov, 0x0⟩
def TRN_RD_STATUS_ENTRIES : Fld := ⟨.TRN_RD_STATUS, 32, 18, .rov, 0x0⟩
def TRN_RD_STATUS_BITMAPS : Fld := ⟨.TRN_RD_STATUS, 0, 15, .rov, 0x0⟩
def TRN_RSP_POOL_FREE : Fld := ⟨.TRN_RSP_POOL, 32, 16, .rov, 0x4000⟩
def TRN_RSP_POOL_SIZE : Fld := ⟨.TRN_RSP_POOL, 0, 16, .ro, 0x4000⟩
def TRN_COUNT_COUNT : Fld := ⟨.TRN_COUNT, 0, 64, .rov, 0x0⟩
def SCH_CC_CFG_R_START : Fld := ⟨.SCH_CC_CFG, 56, 8, .rw, 0x32⟩
def SCH_CC_CFG_AI : Fld := ⟨.SCH_CC_CFG, 48, 8, .rw, 0xA⟩
def SCH_CC_CFG_R_MAX : Fld := ⟨.SCH_CC_CFG, 36, 12, .rw, 0x100⟩
def SCH_CC_CFG_R_MIN : Fld := ⟨.SCH_CC_CFG, 28, 8, .rw, 0x1⟩
def SCH_CC_CFG_TGT_BASE : Fld := ⟨.SCH_CC_CFG, 16, 12, .rw, 0xC8⟩
def SCH_CC_CFG_TGT_PER_HOP : Fld := ⟨.SCH_CC_CFG, 8, 8, .rw, 0x50⟩
def SCH_CC_CFG_TGT_ETH : Fld := ⟨.SCH_CC_CFG, 0, 8, .rw, 0x14⟩
def SCH_CC_DECREASE_BETA : Fld := ⟨.SCH_CC_DECREASE, 24, 8, .rw, 0x80⟩
def SCH_CC_DECREASE_MD_ECN : Fld := ⟨.SCH_CC_DECREASE, 16, 8, .rw, 0x20⟩
def SCH_CC_DECREASE_MD_MAX : Fld := ⟨.SCH_CC_DECREASE, 8, 8, .rw, 0x80⟩
def SCH_CC_DECREASE_MD_RTO : Fld := ⟨.SCH_CC_DECREASE, 0, 8, .rw, 0x80⟩
def SCH_BEACON_INJ_RATE : Fld := ⟨.SCH_BEACON_INJ, 32, 32, .rw, 0x0⟩
def SCH_BEACON_USE_RATE_USED : Fld := ⟨.SCH_BEACON_USE, 32, 32, .rov, 0x0⟩
def SCH_BEACON_USE_QUEUES : Fld := ⟨.SCH_BEACON_USE, 0, 11, .rov, 0x0⟩
def SCH_BEACON_LATE_VALID : Fld := ⟨.SCH_BEACON_LATE, 63, 1, .w1c, 0x0⟩
def SCH_BEACON_LATE_OUTPUT : Fld := ⟨.SCH_BEACON_LATE, 48, 8, .rov, 0x0⟩
def SCH_BEACON_LATE_COUNT : Fld := ⟨.SCH_BEACON_LATE, 0, 32, .rov, 0x0⟩
def SCH_ETH_OVERHEAD_OVERHEAD : Fld := ⟨.SCH_ETH_OVERHEAD, 0, 8, .rw, 0x14⟩
def SCH_SAMPLE_CFG_PERIOD : Fld := ⟨.SCH_SAMPLE_CFG, 0, 20, .rw, 0x3E8⟩
def SCH_SAMPLE_SEL_CLEAR : Fld := ⟨.SCH_SAMPLE_SEL, 31, 1, .wo, 0x0⟩
def SCH_SAMPLE_SEL_OUTPUT : Fld := ⟨.SCH_SAMPLE_SEL, 8, 8, .rw, 0x0⟩
def SCH_SAMPLE_SEL_QUEUE : Fld := ⟨.SCH_SAMPLE_SEL, 0, 6, .rw, 0x0⟩
def SCH_SAMPLE_DATA_MAX_DELAY : Fld := ⟨.SCH_SAMPLE_DATA, 48, 16, .rov, 0x0⟩
def SCH_SAMPLE_DATA_LAST_DELAY : Fld := ⟨.SCH_SAMPLE_DATA, 32, 16, .rov, 0x0⟩
def SCH_SAMPLE_DATA_MAX_DEPTH : Fld := ⟨.SCH_SAMPLE_DATA, 16, 16, .rov, 0x0⟩
def SCH_SAMPLE_DATA_LAST_DEPTH : Fld := ⟨.SCH_SAMPLE_DATA, 0, 16, .rov, 0x0⟩
def SCH_PART_SHAPE_RATE : Fld := ⟨.SCH_PART_SHAPE, 32, 32, .rw, 0x0⟩
def SCH_PART_SHAPE_BURST : Fld := ⟨.SCH_PART_SHAPE, 0, 20, .rw, 0x100⟩
def SCH_PART_ETH_SHAPE_RATE : Fld := ⟨.SCH_PART_ETH_SHAPE, 32, 32, .rw, 0x0⟩
def SCH_PART_ETH_SHAPE_BURST : Fld := ⟨.SCH_PART_ETH_SHAPE, 0, 20, .rw, 0x100⟩
def SCH_PART_POLICE_RATE : Fld := ⟨.SCH_PART_POLICE, 32, 32, .rw, 0x0⟩
def SCH_PART_POLICE_BURST : Fld := ⟨.SCH_PART_POLICE, 0, 20, .rw, 0x100⟩
def SCH_PART_BEACON_USED : Fld := ⟨.SCH_PART_BEACON, 32, 32, .rov, 0x0⟩
def SCH_PART_BEACON_QUOTA : Fld := ⟨.SCH_PART_BEACON, 0, 32, .ro, 0x0⟩
def SCH_PART_QUEUES_ALLOW : Fld := ⟨.SCH_PART_QUEUES, 2, 62, .ro, 0x0⟩
def SCH_WEIGHTS_W7 : Fld := ⟨.SCH_WEIGHTS, 56, 8, .rw, 0x10⟩
def SCH_WEIGHTS_W6 : Fld := ⟨.SCH_WEIGHTS, 48, 8, .rw, 0x10⟩
def SCH_WEIGHTS_W5 : Fld := ⟨.SCH_WEIGHTS, 40, 8, .rw, 0x10⟩
def SCH_WEIGHTS_W4 : Fld := ⟨.SCH_WEIGHTS, 32, 8, .rw, 0x10⟩
def SCH_WEIGHTS_W3 : Fld := ⟨.SCH_WEIGHTS, 24, 8, .rw, 0x10⟩
def SCH_WEIGHTS_W2 : Fld := ⟨.SCH_WEIGHTS, 16, 8, .rw, 0x10⟩
def SCH_WEIGHTS_W1 : Fld := ⟨.SCH_WEIGHTS, 8, 8, .rw, 0x10⟩
def SCH_WEIGHTS_W0 : Fld := ⟨.SCH_WEIGHTS, 0, 8, .rw, 0x10⟩
def SCH_STRICT_CAP_CAP3 : Fld := ⟨.SCH_STRICT_CAP, 32, 16, .rw, 0x64⟩
def SCH_STRICT_CAP_CAP2 : Fld := ⟨.SCH_STRICT_CAP, 16, 16, .rw, 0x64⟩
def SCH_STRICT_CAP_CAP1 : Fld := ⟨.SCH_STRICT_CAP, 0, 16, .rw, 0xC8⟩
def SCH_BEACON_PORT_WAIT_NS : Fld := ⟨.SCH_BEACON_PORT, 48, 16, .rov, 0x0⟩
def SCH_BEACON_PORT_BURST : Fld := ⟨.SCH_BEACON_PORT, 32, 16, .rw, 0x0⟩
def SCH_BEACON_PORT_RATE : Fld := ⟨.SCH_BEACON_PORT, 0, 32, .rw, 0x0⟩
def SCH_MARK_MARK_MAX : Fld := ⟨.SCH_MARK, 16, 16, .rw, 0x190⟩
def SCH_MARK_MARK_MIN : Fld := ⟨.SCH_MARK, 0, 16, .rw, 0x64⟩
def SCH_CLASS_MAP_RSP_DATA : Fld := ⟨.SCH_CLASS_MAP, 12, 6, .rw, 0x6⟩
def SCH_CLASS_MAP_FWD : Fld := ⟨.SCH_CLASS_MAP, 6, 6, .rw, 0x5⟩
def SCH_CLASS_MAP_REQ : Fld := ⟨.SCH_CLASS_MAP, 0, 6, .rw, 0x4⟩
def FAB_CAPS_VERSIONS : Fld := ⟨.FAB_CAPS, 0, 16, .ro, 0x1⟩
def FAB_LINK_CFG_RETRAIN_LIMIT : Fld := ⟨.FAB_LINK_CFG, 16, 8, .rw, 0x8⟩
def FAB_LINK_CFG_UE_LIMIT : Fld := ⟨.FAB_LINK_CFG, 8, 8, .rw, 0x10⟩
def FAB_LINK_CFG_RESERVE : Fld := ⟨.FAB_LINK_CFG, 0, 8, .rw, 0x48⟩
def FAB_ENGINE_STATUS_TEMP : Fld := ⟨.FAB_ENGINE_STATUS, 24, 8, .rov, 0x0⟩
def FAB_ENGINE_STATUS_LASER : Fld := ⟨.FAB_ENGINE_STATUS, 8, 16, .rov, 0x0⟩
def FAB_ENGINE_STATUS_LASER_LOW : Fld := ⟨.FAB_ENGINE_STATUS, 2, 1, .rov, 0x0⟩
def FAB_ENGINE_STATUS_STATE : Fld := ⟨.FAB_ENGINE_STATUS, 0, 2, .rov, 0x0⟩
def FAB_PORT_CFG_ENABLE : Fld := ⟨.FAB_PORT_CFG, 31, 1, .rw, 0x0⟩
def FAB_PORT_CFG_ROUTE : Fld := ⟨.FAB_PORT_CFG, 30, 1, .rw, 0x1⟩
def FAB_PORT_CFG_RETRAIN : Fld := ⟨.FAB_PORT_CFG, 29, 1, .wo, 0x0⟩
def FAB_PORT_CFG_DIM : Fld := ⟨.FAB_PORT_CFG, 8, 3, .rw, 0x7⟩
def FAB_PORT_CFG_DIR : Fld := ⟨.FAB_PORT_CFG, 7, 1, .rw, 0x0⟩
def FAB_PORT_STATUS_PEER_NODE : Fld := ⟨.FAB_PORT_STATUS, 50, 14, .rov, 0x0⟩
def FAB_PORT_STATUS_PEER_VALID : Fld := ⟨.FAB_PORT_STATUS, 49, 1, .rov, 0x0⟩
def FAB_PORT_STATUS_PEER_PORT : Fld := ⟨.FAB_PORT_STATUS, 42, 7, .rov, 0x0⟩
def FAB_PORT_STATUS_DELAY : Fld := ⟨.FAB_PORT_STATUS, 32, 10, .rov, 0x0⟩
def FAB_PORT_STATUS_VERSION : Fld := ⟨.FAB_PORT_STATUS, 24, 8, .rov, 0x0⟩
def FAB_PORT_STATUS_RETRAINS : Fld := ⟨.FAB_PORT_STATUS, 16, 8, .rov, 0x0⟩
def FAB_PORT_STATUS_REASON : Fld := ⟨.FAB_PORT_STATUS, 4, 4, .rov, 0x0⟩
def FAB_PORT_STATUS_STATE : Fld := ⟨.FAB_PORT_STATUS, 0, 4, .rov, 0x0⟩
def FAB_PORT_ERR_CORRECTED : Fld := ⟨.FAB_PORT_ERR, 32, 32, .rov, 0x0⟩
def FAB_PORT_ERR_UNCORRECTABLE : Fld := ⟨.FAB_PORT_ERR, 0, 32, .rov, 0x0⟩
def FAB_CREDIT_STATUS_LOST : Fld := ⟨.FAB_CREDIT_STATUS, 32, 32, .rov, 0x0⟩
def FAB_CREDIT_STATUS_SHARED_FREE : Fld := ⟨.FAB_CREDIT_STATUS, 0, 13, .rov, 0x0⟩
def SWT_TOPO_SIZE_M1 : Fld := ⟨.SWT_TOPO, 24, 6, .rw, 0x0⟩
def SWT_TOPO_DL_PLUS : Fld := ⟨.SWT_TOPO, 16, 6, .rw, 0x0⟩
def SWT_TOPO_DL_MINUS : Fld := ⟨.SWT_TOPO, 8, 6, .rw, 0x0⟩
def SWT_TOPO_COORD : Fld := ⟨.SWT_TOPO, 0, 6, .rov, 0x0⟩
def SWT_DIR_LO_DIR : Fld := ⟨.SWT_DIR_LO, 0, 64, .rw, 0x0⟩
def SWT_DIR_HI_DIR : Fld := ⟨.SWT_DIR_HI, 0, 64, .rw, 0x0⟩
def SWT_ROUTE_CTRL_STOP_ALL : Fld := ⟨.SWT_ROUTE_CTRL, 31, 1, .rw, 0x0⟩
def SWT_ROUTE_CTRL_ALL_STOPPED : Fld := ⟨.SWT_ROUTE_CTRL, 30, 1, .rov, 0x0⟩
def SWT_ROUTE_CTRL_STOPPED : Fld := ⟨.SWT_ROUTE_CTRL, 16, 6, .rov, 0x0⟩
def SWT_ROUTE_CTRL_STOP : Fld := ⟨.SWT_ROUTE_CTRL, 0, 6, .rw, 0x0⟩
def SWT_DRAIN_STATUS_WAITING : Fld := ⟨.SWT_DRAIN_STATUS, 0, 16, .rov, 0x0⟩
def SWT_COUNT_COUNT : Fld := ⟨.SWT_COUNT, 0, 64, .rov, 0x0⟩
def FAB_CAL_SLOTS : Fld := ⟨.FAB_CAL, 0, 64, .rov, 0x0⟩
def ARR_CAPS_FORMATS : Fld := ⟨.ARR_CAPS, 32, 32, .ro, 0x73F3F⟩
def ARR_CAPS_ENABLED : Fld := ⟨.ARR_CAPS, 12, 10, .ro, 0x200⟩
def ARR_CAPS_GROUPS : Fld := ⟨.ARR_CAPS, 0, 5, .ro, 0x10⟩
def ARR_FAULT_LOG_VALID : Fld := ⟨.ARR_FAULT_LOG, 63, 1, .w1c, 0x0⟩
def ARR_FAULT_LOG_CGROUP : Fld := ⟨.ARR_FAULT_LOG, 32, 12, .rov, 0x0⟩
def ARR_FAULT_LOG_PHYSICAL : Fld := ⟨.ARR_FAULT_LOG, 16, 10, .rov, 0x0⟩
def ARR_FAULT_LOG_LOGICAL : Fld := ⟨.ARR_FAULT_LOG, 4, 9, .rov, 0x0⟩
def ARR_FAULT_LOG_KIND : Fld := ⟨.ARR_FAULT_LOG, 0, 4, .rov, 0x0⟩
def ARR_MAP_SEL_LOGICAL : Fld := ⟨.ARR_MAP_SEL, 0, 9, .rw, 0x0⟩
def ARR_MAP_DATA_PHYSICAL : Fld := ⟨.ARR_MAP_DATA, 16, 10, .rov, 0x3FF⟩
def ARR_MAP_DATA_DOUBLED : Fld := ⟨.ARR_MAP_DATA, 15, 1, .rov, 0x0⟩
def ARR_MAP_DATA_SHARED_WITH : Fld := ⟨.ARR_MAP_DATA, 0, 9, .rov, 0x0⟩
def ARR_GROUP_STATUS_DOUBLED : Fld := ⟨.ARR_GROUP_STATUS, 32, 32, .rov, 0x0⟩
def ARR_GROUP_STATUS_OUT : Fld := ⟨.ARR_GROUP_STATUS, 26, 1, .rov, 0x0⟩
def ARR_GROUP_STATUS_FAILED : Fld := ⟨.ARR_GROUP_STATUS, 20, 6, .rov, 0x0⟩
def ARR_GROUP_STATUS_SPARES_USED : Fld := ⟨.ARR_GROUP_STATUS, 18, 2, .rov, 0x0⟩
def ARR_GROUP_STATUS_POWER : Fld := ⟨.ARR_GROUP_STATUS, 12, 4, .rov, 0x0⟩
def ARR_GROUP_STATUS_BUSY : Fld := ⟨.ARR_GROUP_STATUS, 6, 6, .rov, 0x0⟩
def ARR_GROUP_STATUS_ASSIGNED : Fld := ⟨.ARR_GROUP_STATUS, 0, 6, .rov, 0x0⟩
def ARR_COUNT_COUNT : Fld := ⟨.ARR_COUNT, 0, 64, .rov, 0x0⟩
def COL_CAPS_FMT : Fld := ⟨.COL_CAPS, 48, 16, .ro, 0x2⟩
def COL_CAPS_PLANS : Fld := ⟨.COL_CAPS, 16, 16, .ro, 0x4000⟩
def COL_CAPS_GROUPS : Fld := ⟨.COL_CAPS, 0, 16, .ro, 0x1000⟩
def COL_USE_PLANS : Fld := ⟨.COL_USE, 32, 15, .rov, 0x0⟩
def COL_USE_GROUPS : Fld := ⟨.COL_USE, 0, 13, .rov, 0x0⟩
def COL_ABORT_LOG_VALID : Fld := ⟨.COL_ABORT_LOG, 63, 1, .w1c, 0x0⟩
def COL_ABORT_LOG_CAUSE : Fld := ⟨.COL_ABORT_LOG, 56, 4, .rov, 0x0⟩
def COL_ABORT_LOG_GROUP : Fld := ⟨.COL_ABORT_LOG, 44, 12, .rov, 0x0⟩
def COL_ABORT_LOG_MEMBER : Fld := ⟨.COL_ABORT_LOG, 32, 12, .rov, 0x0⟩
def COL_ABORT_LOG_STEP : Fld := ⟨.COL_ABORT_LOG, 16, 16, .rov, 0x0⟩
def COL_ABORT_LOG_GEN : Fld := ⟨.COL_ABORT_LOG, 0, 16, .rov, 0x0⟩
def COL_COUNT_COUNT : Fld := ⟨.COL_COUNT, 0, 64, .rov, 0x0⟩
def ETH_PORT_CFG_PFC_EN : Fld := ⟨.ETH_PORT_CFG, 40, 8, .rw, 0x0⟩
def ETH_PORT_CFG_DEFAULT_PCP : Fld := ⟨.ETH_PORT_CFG, 32, 3, .rw, 0x0⟩
def ETH_PORT_CFG_ENABLE : Fld := ⟨.ETH_PORT_CFG, 31, 1, .rw, 0x0⟩
def ETH_PORT_CFG_IFACE : Fld := ⟨.ETH_PORT_CFG, 2, 1, .rw, 0x0⟩
def ETH_PORT_CFG_SPEED : Fld := ⟨.ETH_PORT_CFG, 0, 2, .rw, 0x0⟩
def ETH_PORT_STATUS_PAUSED : Fld := ⟨.ETH_PORT_STATUS, 56, 8, .rov, 0x0⟩
def ETH_PORT_STATUS_XOFF : Fld := ⟨.ETH_PORT_STATUS, 48, 8, .rov, 0x0⟩
def ETH_PORT_STATUS_LINK_DOWNS : Fld := ⟨.ETH_PORT_STATUS, 32, 16, .rov, 0x0⟩
def ETH_PORT_STATUS_REMOTE_FAULT : Fld := ⟨.ETH_PORT_STATUS, 2, 1, .rov, 0x0⟩
def ETH_PORT_STATUS_LOCAL_FAULT : Fld := ⟨.ETH_PORT_STATUS, 1, 1, .rov, 0x0⟩
def ETH_PORT_STATUS_UP : Fld := ⟨.ETH_PORT_STATUS, 0, 1, .rov, 0x0⟩
def ETH_RX_CFG_PFC_REFRESH : Fld := ⟨.ETH_RX_CFG, 24, 8, .rw, 0x14⟩
def ETH_RX_CFG_RX_HOLD : Fld := ⟨.ETH_RX_CFG, 0, 20, .rw, 0x64⟩
def ETH_GATE_CTRL_RUN : Fld := ⟨.ETH_GATE_CTRL, 31, 1, .rw, 0x0⟩
def ETH_GATE_CTRL_STOPPED : Fld := ⟨.ETH_GATE_CTRL, 30, 1, .rov, 0x1⟩
def ETH_GATE_CTRL_ERROR : Fld := ⟨.ETH_GATE_CTRL, 29, 1, .rov, 0x0⟩
def ETH_GATE_CTRL_LEN : Fld := ⟨.ETH_GATE_CTRL, 0, 9, .rw, 0x1⟩
def ETH_GATE_CYCLE_CYCLE : Fld := ⟨.ETH_GATE_CYCLE, 0, 32, .rw, 0xF4240⟩
def ETH_GATE_BASE_BASE : Fld := ⟨.ETH_GATE_BASE, 0, 64, .rw, 0x0⟩
def ETH_GATE_STOP_GATES : Fld := ⟨.ETH_GATE_STOP, 0, 64, .rw, 0xFFFFFFFFFFFFFFFF⟩
def ETH_TIMER_TIME : Fld := ⟨.ETH_TIMER, 0, 64, .rov, 0x0⟩
def ETH_TIMER_ADJ_OFFSET : Fld := ⟨.ETH_TIMER_ADJ, 0, 64, .wo, 0x0⟩
def ETH_PFC_THRESH_LIMIT : Fld := ⟨.ETH_PFC_THRESH, 32, 13, .rw, 0x200⟩
def ETH_PFC_THRESH_XOFF : Fld := ⟨.ETH_PFC_THRESH, 16, 13, .rw, 0x100⟩
def ETH_PFC_THRESH_XON : Fld := ⟨.ETH_PFC_THRESH, 0, 13, .rw, 0x80⟩
def ETH_COUNT_COUNT : Fld := ⟨.ETH_COUNT, 0, 64, .rov, 0x0⟩
def ETH_MAC_VALID : Fld := ⟨.ETH_MAC, 63, 1, .rw, 0x0⟩
def ETH_MAC_OWNER : Fld := ⟨.ETH_MAC, 56, 6, .rw, 0x0⟩
def ETH_MAC_ADDR : Fld := ⟨.ETH_MAC, 0, 48, .rw, 0x0⟩
def ETH_FILTER_W0_VALID : Fld := ⟨.ETH_FILTER_W0, 63, 1, .rw, 0x0⟩
def ETH_FILTER_W0_DROP : Fld := ⟨.ETH_FILTER_W0, 62, 1, .rw, 0x0⟩
def ETH_FILTER_W0_PART : Fld := ⟨.ETH_FILTER_W0, 56, 6, .rw, 0x0⟩
def ETH_FILTER_W0_MAC_IDX : Fld := ⟨.ETH_FILTER_W0, 48, 8, .rw, 0xFF⟩
def ETH_FILTER_W0_TAG_MODE : Fld := ⟨.ETH_FILTER_W0, 46, 2, .rw, 0x0⟩
def ETH_FILTER_W0_VID : Fld := ⟨.ETH_FILTER_W0, 34, 12, .rw, 0x0⟩
def ETH_FILTER_W0_ETYPE_ANY : Fld := ⟨.ETH_FILTER_W0, 33, 1, .rw, 0x1⟩
def ETH_FILTER_W0_ETYPE : Fld := ⟨.ETH_FILTER_W0, 0, 16, .rw, 0x0⟩
def ETH_FILTER_W1_QPN : Fld := ⟨.ETH_FILTER_W1, 0, 16, .rw, 0x0⟩
def ETH_GCL_W0_GATES : Fld := ⟨.ETH_GCL_W0, 0, 64, .rw, 0xFFFFFFFFFFFFFFFF⟩
def ETH_GCL_W1_INTERVAL : Fld := ⟨.ETH_GCL_W1, 0, 32, .rw, 0xF4240⟩
def ETH_KT_CFG_UDP_PORT : Fld := ⟨.ETH_KT_CFG, 48, 16, .ro, 0x0⟩
def ETH_KT_CFG_PORTS : Fld := ⟨.ETH_KT_CFG, 40, 8, .rw, 0x0⟩
def ETH_KT_CFG_DSCP : Fld := ⟨.ETH_KT_CFG, 34, 6, .rw, 0x0⟩
def ETH_KT_CFG_TAG : Fld := ⟨.ETH_KT_CFG, 33, 1, .rw, 0x0⟩
def ETH_KT_CFG_PCP_RSP : Fld := ⟨.ETH_KT_CFG, 29, 3, .rw, 0x0⟩
def ETH_KT_CFG_PCP_REQ : Fld := ⟨.ETH_KT_CFG, 26, 3, .rw, 0x0⟩
def ETH_KT_CFG_VID : Fld := ⟨.ETH_KT_CFG, 12, 12, .rw, 0x0⟩
def ETH_KT_CFG_HOPLIMIT : Fld := ⟨.ETH_KT_CFG, 0, 8, .rw, 0x40⟩
def ETH_KT_ADDR_HI_ADDR : Fld := ⟨.ETH_KT_ADDR_HI, 0, 64, .rw, 0x0⟩
def ETH_KT_ADDR_LO_ADDR : Fld := ⟨.ETH_KT_ADDR_LO, 0, 64, .rw, 0x0⟩
def ETH_WAKE_CFG_ENABLE : Fld := ⟨.ETH_WAKE_CFG, 31, 1, .rw, 0x0⟩
def ETH_WAKE_CFG_LINK : Fld := ⟨.ETH_WAKE_CFG, 5, 1, .rw, 0x0⟩
def ETH_WAKE_CFG_MAGIC : Fld := ⟨.ETH_WAKE_CFG, 4, 1, .rw, 0x0⟩
def ETH_WAKE_CFG_PATTERN : Fld := ⟨.ETH_WAKE_CFG, 0, 4, .rw, 0x0⟩
def ETH_WAKE_STATUS_VALID : Fld := ⟨.ETH_WAKE_STATUS, 31, 1, .w1c, 0x0⟩
def ETH_WAKE_STATUS_SOURCE : Fld := ⟨.ETH_WAKE_STATUS, 0, 6, .rov, 0x0⟩
def ETH_WAKE_PAT_PAT : Fld := ⟨.ETH_WAKE_PAT, 0, 64, .rw, 0x0⟩
def PRT_STATE_GEN : Fld := ⟨.PRT_STATE, 48, 16, .rov, 0x0⟩
def PRT_STATE_RESETS : Fld := ⟨.PRT_STATE, 32, 16, .rov, 0x0⟩
def PRT_STATE_STATE : Fld := ⟨.PRT_STATE, 0, 4, .rov, 0x0⟩
def PRT_EXPOSE_EXPOSE : Fld := ⟨.PRT_EXPOSE, 0, 64, .ro, 0x0⟩
def PRT_COUNT_COUNT : Fld := ⟨.PRT_COUNT, 0, 64, .rov, 0x0⟩
def PRT_SELF_GEN : Fld := ⟨.PRT_SELF, 48, 16, .rov, 0x0⟩
def PRT_SELF_STATE : Fld := ⟨.PRT_SELF, 44, 4, .rov, 0x0⟩
def PRT_SELF_HALTED : Fld := ⟨.PRT_SELF, 43, 1, .rov, 0x0⟩
def PRT_SELF_FABRIC_ENC : Fld := ⟨.PRT_SELF, 42, 1, .rov, 0x0⟩
def PRT_SELF_CNT_USER : Fld := ⟨.PRT_SELF, 41, 1, .rov, 0x0⟩
def KPR_STATUS_TERM : Fld := ⟨.KPR_STATUS, 32, 32, .rov, 0x0⟩
def KPR_STATUS_ROLE : Fld := ⟨.KPR_STATUS, 28, 4, .rov, 0x0⟩
def KPR_STATUS_ORPHAN : Fld := ⟨.KPR_STATUS, 27, 1, .rov, 0x0⟩
def KPR_STATUS_DORMANT : Fld := ⟨.KPR_STATUS, 26, 1, .rov, 0x0⟩
def KPR_STATUS_KGROUP : Fld := ⟨.KPR_STATUS, 14, 12, .rov, 0x0⟩
def KPR_STATUS_ACTIVE_NODE : Fld := ⟨.KPR_STATUS, 0, 14, .rov, 0x0⟩
def KPR_LC_CFG_PERIOD : Fld := ⟨.KPR_LC_CFG, 48, 16, .rw, 0xFA⟩
def KPR_LC_CFG_MISS : Fld := ⟨.KPR_LC_CFG, 40, 8, .rw, 0x4⟩
def KPR_LC_CFG_REPORTERS : Fld := ⟨.KPR_LC_CFG, 32, 8, .rw, 0x2⟩
def KPR_LC_CFG_PROBE_WAIT : Fld := ⟨.KPR_LC_CFG, 16, 16, .rw, 0x14⟩
def KPR_LC_CFG_GROUP_SIZE : Fld := ⟨.KPR_LC_CFG, 0, 9, .rov, 0x0⟩
def KPR_SUPPRESS_INTERVAL : Fld := ⟨.KPR_SUPPRESS, 16, 16, .rw, 0xA⟩
def KPR_SUPPRESS_LINK_HOLD : Fld := ⟨.KPR_SUPPRESS, 0, 16, .rw, 0x1F4⟩
def KPR_SW_ALIVE_ALIVE : Fld := ⟨.KPR_SW_ALIVE, 0, 32, .wo, 0x0⟩
def KPR_CFG_MIRROR_OK : Fld := ⟨.KPR_CFG, 31, 1, .rw, 0x0⟩
def KPR_CFG_SW_LIMIT : Fld := ⟨.KPR_CFG, 0, 16, .rw, 0x64⟩
def KPR_COUNT_COUNT : Fld := ⟨.KPR_COUNT, 0, 64, .rov, 0x0⟩
def LAMP_STATUS_START_COUNT : Fld := ⟨.LAMP_STATUS, 32, 32, .rov, 0x0⟩
def LAMP_STATUS_REASON : Fld := ⟨.LAMP_STATUS, 8, 4, .rov, 0x0⟩
def LAMP_STATUS_WARM : Fld := ⟨.LAMP_STATUS, 4, 1, .rov, 0x0⟩
def LAMP_STATUS_STAGE : Fld := ⟨.LAMP_STATUS, 0, 4, .rov, 0x0⟩
def LAMP_POSITION_POSITION : Fld := ⟨.LAMP_POSITION, 0, 32, .rw, 0xFFFFFFFF⟩
def LAMP_CAPS_IMG_FMT : Fld := ⟨.LAMP_CAPS, 16, 16, .ro, 0x2⟩
def LAMP_CAPS_ATT_FMT : Fld := ⟨.LAMP_CAPS, 0, 16, .ro, 0x2⟩
def LAMP_LEDGER_FULL : Fld := ⟨.LAMP_LEDGER, 63, 1, .rov, 0x0⟩
def LAMP_LEDGER_LAST_KIND : Fld := ⟨.LAMP_LEDGER, 48, 8, .rov, 0x0⟩
def LAMP_LEDGER_ADDED : Fld := ⟨.LAMP_LEDGER, 20, 20, .rov, 0x0⟩
def LAMP_LEDGER_ENTRIES : Fld := ⟨.LAMP_LEDGER, 0, 20, .rov, 0x0⟩
def LAMP_IMAGE_VERSION : Fld := ⟨.LAMP_IMAGE, 32, 32, .rov, 0x0⟩
def LAMP_IMAGE_FLOOR : Fld := ⟨.LAMP_IMAGE, 0, 32, .rov, 0x0⟩
def SEC_STAGE_STATE : Fld := ⟨.SEC_STAGE, 60, 4, .rov, 0x0⟩
def SEC_STAGE_REASON : Fld := ⟨.SEC_STAGE, 56, 4, .rov, 0x0⟩
def SEC_STAGE_SOURCE : Fld := ⟨.SEC_STAGE, 55, 1, .rov, 0x0⟩
def SEC_STAGE_BYTES : Fld := ⟨.SEC_STAGE, 0, 32, .rov, 0x0⟩
def SEC_CIPHER_IN_SERVICE : Fld := ⟨.SEC_CIPHER, 32, 32, .rov, 0x0⟩
def SEC_CIPHER_GALLERY_KEYS : Fld := ⟨.SEC_CIPHER, 16, 13, .rov, 0x0⟩
def SEC_CIPHER_MISMATCHES : Fld := ⟨.SEC_CIPHER, 0, 16, .rov, 0x0⟩
def SEC_CIPHER_LOG_VALID : Fld := ⟨.SEC_CIPHER_LOG, 63, 1, .w1c, 0x0⟩
def SEC_CIPHER_LOG_CORE : Fld := ⟨.SEC_CIPHER_LOG, 40, 5, .rov, 0x0⟩
def SEC_CIPHER_LOG_MODE : Fld := ⟨.SEC_CIPHER_LOG, 36, 4, .rov, 0x0⟩
def SEC_CIPHER_LOG_PART : Fld := ⟨.SEC_CIPHER_LOG, 0, 6, .rov, 0x0⟩
def SEC_PART_KEYS_KEK_SET : Fld := ⟨.SEC_PART_KEYS, 63, 1, .rov, 0x0⟩
def SEC_PART_KEYS_TX_VALID : Fld := ⟨.SEC_PART_KEYS, 60, 1, .rov, 0x0⟩
def SEC_PART_KEYS_TX_KEY_ID : Fld := ⟨.SEC_PART_KEYS, 56, 4, .rov, 0x0⟩
def SEC_PART_KEYS_SLOTS : Fld := ⟨.SEC_PART_KEYS, 32, 16, .rov, 0x0⟩
def SEC_PART_KEYS_HANDLES : Fld := ⟨.SEC_PART_KEYS, 0, 7, .rov, 0x0⟩
def SEC_COUNT_COUNT : Fld := ⟨.SEC_COUNT, 0, 64, .rov, 0x0⟩
def LAMP_RTC_COUNT : Fld := ⟨.LAMP_RTC, 0, 48, .rov, 0x0⟩
def LAMP_RTC_ALARM_ENABLE : Fld := ⟨.LAMP_RTC_ALARM, 63, 1, .rw, 0x0⟩
def LAMP_RTC_ALARM_FIRED : Fld := ⟨.LAMP_RTC_ALARM, 62, 1, .w1c, 0x0⟩
def LAMP_RTC_ALARM_VECTOR : Fld := ⟨.LAMP_RTC_ALARM, 50, 11, .rw, 0x0⟩
def LAMP_RTC_ALARM_AT : Fld := ⟨.LAMP_RTC_ALARM, 0, 48, .rw, 0x0⟩
def LAMP_RESET_KEY : Fld := ⟨.LAMP_RESET, 16, 16, .wo, 0x0⟩
def LAMP_RESET_DEVICE : Fld := ⟨.LAMP_RESET, 0, 1, .wo, 0x0⟩
def LAMP_FAULT_HEAD_ARM : Fld := ⟨.LAMP_FAULT_HEAD, 63, 1, .wo, 0x0⟩
def LAMP_FAULT_HEAD_HEAD : Fld := ⟨.LAMP_FAULT_HEAD, 0, 32, .wo, 0x0⟩
def LAMP_FAULT_STATUS_LOST : Fld := ⟨.LAMP_FAULT_STATUS, 32, 32, .rov, 0x0⟩
def LAMP_FAULT_STATUS_TAIL : Fld := ⟨.LAMP_FAULT_STATUS, 0, 32, .rov, 0x0⟩
def LAMP_FAULT_CFG_VECTOR : Fld := ⟨.LAMP_FAULT_CFG, 21, 11, .rw, 0x0⟩
def LAMP_RTC_SET_VALUE : Fld := ⟨.LAMP_RTC_SET, 0, 48, .wo, 0x0⟩
def LAMP_FAULT_RING_WORD : Fld := ⟨.LAMP_FAULT_RING, 0, 64, .rov, 0x0⟩
def PWR_DOMAIN_IDLE_TICKS : Fld := ⟨.PWR_DOMAIN, 16, 16, .rw, 0x21⟩
def PWR_DOMAIN_CEILING : Fld := ⟨.PWR_DOMAIN, 14, 2, .rw, 0x1⟩
def PWR_DOMAIN_HOLD : Fld := ⟨.PWR_DOMAIN, 13, 1, .rw, 0x0⟩
def PWR_DOMAIN_LAST_WAKE : Fld := ⟨.PWR_DOMAIN, 4, 4, .rov, 0x0⟩
def PWR_DOMAIN_STATE : Fld := ⟨.PWR_DOMAIN, 0, 4, .rov, 0x0⟩
def PWR_WAKE_SET_LO_DOMAINS : Fld := ⟨.PWR_WAKE_SET_LO, 0, 64, .rw, 0x0⟩
def PWR_WAKE_SET_HI_DOMAINS : Fld := ⟨.PWR_WAKE_SET_HI, 0, 64, .rw, 0x0⟩
def PWR_THERMAL_TRIPPED : Fld := ⟨.PWR_THERMAL, 63, 1, .rov, 0x0⟩
def PWR_THERMAL_WARNING : Fld := ⟨.PWR_THERMAL, 62, 1, .rov, 0x0⟩
def PWR_THERMAL_TEMP : Fld := ⟨.PWR_THERMAL, 40, 8, .rov, 0x0⟩
def PWR_THERMAL_DIE : Fld := ⟨.PWR_THERMAL, 32, 8, .rov, 0x0⟩
def PWR_THERMAL_WARN_AT : Fld := ⟨.PWR_THERMAL, 8, 8, .rw, 0x5F⟩
def PWR_COUNT_COUNT : Fld := ⟨.PWR_COUNT, 0, 64, .rov, 0x0⟩
def CNT_TIME_TIME : Fld := ⟨.CNT_TIME, 0, 48, .rov, 0x0⟩
def CNT_STOP_ARMED : Fld := ⟨.CNT_STOP, 63, 1, .rw, 0x0⟩
def CNT_STOP_STOPPED : Fld := ⟨.CNT_STOP, 62, 1, .w1c, 0x0⟩
def CNT_STOP_AT : Fld := ⟨.CNT_STOP, 0, 48, .rw, 0x0⟩
def CNT_CFG_VECTOR : Fld := ⟨.CNT_CFG, 21, 11, .rw, 0x0⟩
def CNT_BW_CFG_WINDOW_SEQ : Fld := ⟨.CNT_BW_CFG, 32, 32, .rov, 0x0⟩
def CNT_BW_CFG_WINDOW : Fld := ⟨.CNT_BW_CFG, 0, 14, .rw, 0x64⟩
def CNT_OVF_LO_OVF : Fld := ⟨.CNT_OVF_LO, 0, 64, .w1c, 0x0⟩
def CNT_OVF_HI_OVF : Fld := ⟨.CNT_OVF_HI, 0, 64, .w1c, 0x0⟩
def CNT_CTRL_ENABLE : Fld := ⟨.CNT_CTRL, 31, 1, .rw, 0x0⟩
def CNT_CTRL_MODE : Fld := ⟨.CNT_CTRL, 30, 1, .rw, 0x0⟩
def CNT_CTRL_CHAIN : Fld := ⟨.CNT_CTRL, 29, 1, .rw, 0x0⟩
def CNT_CTRL_INT : Fld := ⟨.CNT_CTRL, 28, 1, .rw, 0x0⟩
def CNT_CTRL_OWNER : Fld := ⟨.CNT_CTRL, 22, 6, .rw, 0x0⟩
def CNT_CTRL_UNIT : Fld := ⟨.CNT_CTRL, 8, 8, .rw, 0x0⟩
def CNT_CTRL_EVENT : Fld := ⟨.CNT_CTRL, 0, 8, .rw, 0x0⟩
def CNT_VALUE_VALUE : Fld := ⟨.CNT_VALUE, 0, 32, .rw, 0x0⟩
def CNT_BW_RX : Fld := ⟨.CNT_BW, 32, 32, .rov, 0x0⟩
def CNT_BW_TX : Fld := ⟨.CNT_BW, 0, 32, .rov, 0x0⟩
def CNT_SAMPLE_CFG_ENABLE : Fld := ⟨.CNT_SAMPLE_CFG, 63, 1, .rw, 0x0⟩
def CNT_SAMPLE_CFG_INTERVAL : Fld := ⟨.CNT_SAMPLE_CFG, 32, 16, .rw, 0x400⟩
def CNT_SAMPLE_CFG_PART : Fld := ⟨.CNT_SAMPLE_CFG, 26, 6, .rw, 0x0⟩
def CNT_SAMPLE_CFG_ANY_PART : Fld := ⟨.CNT_SAMPLE_CFG, 25, 1, .rw, 0x1⟩
def CNT_SAMPLE_CFG_ANY_QP : Fld := ⟨.CNT_SAMPLE_CFG, 24, 1, .rw, 0x1⟩
def CNT_SAMPLE_CFG_OPCODE : Fld := ⟨.CNT_SAMPLE_CFG, 16, 8, .rw, 0x0⟩
def CNT_SAMPLE_CFG_QPN : Fld := ⟨.CNT_SAMPLE_CFG, 0, 16, .rw, 0x0⟩
def CNT_SAMPLE_STATUS_TAIL : Fld := ⟨.CNT_SAMPLE_STATUS, 32, 32, .rov, 0x0⟩
def CNT_SAMPLE_STATUS_DROPPED : Fld := ⟨.CNT_SAMPLE_STATUS, 0, 32, .rov, 0x0⟩
def CNT_SAMPLE_HEAD_HEAD : Fld := ⟨.CNT_SAMPLE_HEAD, 0, 32, .rw, 0x0⟩

end F

/-- The fields of a register, as its table lists them. -/
def RegName.fields : RegName → List Fld
  | .LAMP_DEVICE_ID => [F.LAMP_DEVICE_ID_STEPPING, F.LAMP_DEVICE_ID_VARIANT, F.LAMP_DEVICE_ID_FAMILY]
  | .LAMP_POPULATION => [F.LAMP_POPULATION_OPTICAL_ENGINES, F.LAMP_POPULATION_LANTERN,
      F.LAMP_POPULATION_PORT_DIES, F.LAMP_POPULATION_GROTTO_STACKS]
  | .XLT_NODE_ID => [F.XLT_NODE_ID_VALID, F.XLT_NODE_ID_NODE]
  | .XLT_PART_CFG => [F.XLT_PART_CFG_PAGES, F.XLT_PART_CFG_ACC_ALLOW, F.XLT_PART_CFG_HOST_ALLOW,
      F.XLT_PART_CFG_GALLERY_ALLOW, F.XLT_PART_CFG_ENABLED]
  | .XLT_HOST_BASE => [F.XLT_HOST_BASE_ADDR]
  | .XLT_DRAIN_STATUS => [F.XLT_DRAIN_STATUS_ACTIVE, F.XLT_DRAIN_STATUS_WAITING]
  | .XLT_FAULT_COUNT => [F.XLT_FAULT_COUNT_COUNT]
  | .RGN_INCARNATION => [F.RGN_INCARNATION_INCARNATION]
  | .RGN_FREE => [F.RGN_FREE_DIE1, F.RGN_FREE_DIE0]
  | .RGN_RETIRED => [F.RGN_RETIRED_DIE1, F.RGN_RETIRED_DIE0]
  | .RGN_ABORT_LOG => [F.RGN_ABORT_LOG_VALID, F.RGN_ABORT_LOG_INDEX, F.RGN_ABORT_LOG_COUNT]
  | .RGN_NAK_COUNT => [F.RGN_NAK_COUNT_DENIED, F.RGN_NAK_COUNT_REVOKED]
  | .GRT_STACK_STATUS => [F.GRT_STACK_STATUS_CE_COUNT, F.GRT_STACK_STATUS_UE_COUNT, F.GRT_STACK_STATUS_POWER,
      F.GRT_STACK_STATUS_STATE]
  | .GRT_POOL => [F.GRT_POOL_FREE, F.GRT_POOL_INTERNAL]
  | .GRT_EVAC_CFG => [F.GRT_EVAC_CFG_CE_LIMIT, F.GRT_EVAC_CFG_STACK_LIMIT, F.GRT_EVAC_CFG_AUTO]
  | .GRT_POISON_LOG => [F.GRT_POISON_LOG_VALID, F.GRT_POISON_LOG_LINE]
  | .HST_CTRL => [F.HST_CTRL_CXL_EN, F.HST_CTRL_DETACH, F.HST_CTRL_ATTACH, F.HST_CTRL_ENABLE]
  | .HST_STATUS => [F.HST_STATUS_LOSS_COUNT, F.HST_STATUS_RATE, F.HST_STATUS_WIDTH, F.HST_STATUS_MODE,
      F.HST_STATUS_LOST, F.HST_STATUS_UP]
  | .HST_STALL_LIMIT => [F.HST_STALL_LIMIT_LIMIT]
  | .HST_DROPPED => [F.HST_DROPPED_COUNT]
  | .ACC_PORT_CFG => [F.ACC_PORT_CFG_ADDR_BASE, F.ACC_PORT_CFG_CXL_EN, F.ACC_PORT_CFG_DETACH,
      F.ACC_PORT_CFG_ATTACH, F.ACC_PORT_CFG_ENABLE]
  | .ACC_PORT_STATUS => [F.ACC_PORT_STATUS_LOSS_COUNT, F.ACC_PORT_STATUS_NUM_VFS, F.ACC_PORT_STATUS_RATE,
      F.ACC_PORT_STATUS_WIDTH, F.ACC_PORT_STATUS_MODE, F.ACC_PORT_STATUS_ATOMIC_OK, F.ACC_PORT_STATUS_LOST,
      F.ACC_PORT_STATUS_UP]
  | .ACC_MEM_CFG => [F.ACC_MEM_CFG_ENABLE, F.ACC_MEM_CFG_PART]
  | .ACC_STALL_LIMIT => [F.ACC_STALL_LIMIT_LIMIT]
  | .ACC_DROPPED => [F.ACC_DROPPED_COUNT]
  | .ACC_REFUSED => [F.ACC_REFUSED_STORES, F.ACC_REFUSED_LOADS]
  | .QMG_CAPS => [F.QMG_CAPS_FMT, F.QMG_CAPS_RINGS, F.QMG_CAPS_QPS]
  | .QMG_ADM_SQ_BASE => [F.QMG_ADM_SQ_BASE_ADDR]
  | .QMG_ADM_CQ_BASE => [F.QMG_ADM_CQ_BASE_ADDR]
  | .QMG_ADM_CFG => [F.QMG_ADM_CFG_ENABLE, F.QMG_ADM_CFG_VECTOR, F.QMG_ADM_CFG_SPLIT, F.QMG_ADM_CFG_CQ_LOG2,
      F.QMG_ADM_CFG_SQ_LOG2]
  | .QMG_ADM_SQ_DB => [F.QMG_ADM_SQ_DB_PI]
  | .QMG_ADM_CQ_DB => [F.QMG_ADM_CQ_DB_ARM, F.QMG_ADM_CQ_DB_HEAD]
  | .QMG_ADM_STATUS => [F.QMG_ADM_STATUS_FETCH, F.QMG_ADM_STATUS_HALT, F.QMG_ADM_STATUS_SEQ_WAIT,
      F.QMG_ADM_STATUS_CQ_STATE, F.QMG_ADM_STATUS_SQ_STATE]
  | .QMG_PART_HALT => [F.QMG_PART_HALT_HALTED]
  | .QMG_MALFORMED_LOG => [F.QMG_MALFORMED_LOG_VALID, F.QMG_MALFORMED_LOG_DEVICE, F.QMG_MALFORMED_LOG_PART,
      F.QMG_MALFORMED_LOG_QUEUE, F.QMG_MALFORMED_LOG_OPCODE, F.QMG_MALFORMED_LOG_SEQ]
  | .QMG_BAD_DOORBELL => [F.QMG_BAD_DOORBELL_COUNT]
  | .QMG_PADM_SQ_BASE => [F.QMG_PADM_SQ_BASE_ADDR]
  | .QMG_PADM_CQ_BASE => [F.QMG_PADM_CQ_BASE_ADDR]
  | .QMG_PADM_CFG => [F.QMG_PADM_CFG_ENABLE, F.QMG_PADM_CFG_VECTOR, F.QMG_PADM_CFG_SPLIT, F.QMG_PADM_CFG_CQ_LOG2,
      F.QMG_PADM_CFG_SQ_LOG2]
  | .QMG_PADM_STATUS => [F.QMG_PADM_STATUS_FETCH, F.QMG_PADM_STATUS_HALT, F.QMG_PADM_STATUS_SEQ_WAIT,
      F.QMG_PADM_STATUS_CQ_STATE, F.QMG_PADM_STATUS_SQ_STATE]
  | .TRN_CAPS => [F.TRN_CAPS_VERSIONS]
  | .TRN_EPOCH => [F.TRN_EPOCH_EPOCH]
  | .TRN_RETRY_HORIZON => [F.TRN_RETRY_HORIZON_HORIZON]
  | .TRN_RTO => [F.TRN_RTO_RTO_MAX, F.TRN_RTO_RTO_INIT, F.TRN_RTO_RTO_MIN]
  | .TRN_ACK_CFG => [F.TRN_ACK_CFG_COUNT, F.TRN_ACK_CFG_DELAY]
  | .TRN_ETH_NETDELAY => [F.TRN_ETH_NETDELAY_NETDELAY]
  | .TRN_FLIGHT_STATUS => [F.TRN_FLIGHT_STATUS_WAITING, F.TRN_FLIGHT_STATUS_IN_USE]
  | .TRN_RD_STATUS => [F.TRN_RD_STATUS_ENTRIES, F.TRN_RD_STATUS_BITMAPS]
  | .TRN_RSP_POOL => [F.TRN_RSP_POOL_FREE, F.TRN_RSP_POOL_SIZE]
  | .TRN_COUNT => [F.TRN_COUNT_COUNT]
  | .SCH_CC_CFG => [F.SCH_CC_CFG_R_START, F.SCH_CC_CFG_AI, F.SCH_CC_CFG_R_MAX, F.SCH_CC_CFG_R_MIN,
      F.SCH_CC_CFG_TGT_BASE, F.SCH_CC_CFG_TGT_PER_HOP, F.SCH_CC_CFG_TGT_ETH]
  | .SCH_CC_DECREASE => [F.SCH_CC_DECREASE_BETA, F.SCH_CC_DECREASE_MD_ECN, F.SCH_CC_DECREASE_MD_MAX,
      F.SCH_CC_DECREASE_MD_RTO]
  | .SCH_BEACON_INJ => [F.SCH_BEACON_INJ_RATE]
  | .SCH_BEACON_USE => [F.SCH_BEACON_USE_RATE_USED, F.SCH_BEACON_USE_QUEUES]
  | .SCH_BEACON_LATE => [F.SCH_BEACON_LATE_VALID, F.SCH_BEACON_LATE_OUTPUT, F.SCH_BEACON_LATE_COUNT]
  | .SCH_ETH_OVERHEAD => [F.SCH_ETH_OVERHEAD_OVERHEAD]
  | .SCH_SAMPLE_CFG => [F.SCH_SAMPLE_CFG_PERIOD]
  | .SCH_SAMPLE_SEL => [F.SCH_SAMPLE_SEL_CLEAR, F.SCH_SAMPLE_SEL_OUTPUT, F.SCH_SAMPLE_SEL_QUEUE]
  | .SCH_SAMPLE_DATA => [F.SCH_SAMPLE_DATA_MAX_DELAY, F.SCH_SAMPLE_DATA_LAST_DELAY, F.SCH_SAMPLE_DATA_MAX_DEPTH,
      F.SCH_SAMPLE_DATA_LAST_DEPTH]
  | .SCH_PART_SHAPE => [F.SCH_PART_SHAPE_RATE, F.SCH_PART_SHAPE_BURST]
  | .SCH_PART_ETH_SHAPE => [F.SCH_PART_ETH_SHAPE_RATE, F.SCH_PART_ETH_SHAPE_BURST]
  | .SCH_PART_POLICE => [F.SCH_PART_POLICE_RATE, F.SCH_PART_POLICE_BURST]
  | .SCH_PART_BEACON => [F.SCH_PART_BEACON_USED, F.SCH_PART_BEACON_QUOTA]
  | .SCH_PART_QUEUES => [F.SCH_PART_QUEUES_ALLOW]
  | .SCH_WEIGHTS => [F.SCH_WEIGHTS_W7, F.SCH_WEIGHTS_W6, F.SCH_WEIGHTS_W5, F.SCH_WEIGHTS_W4, F.SCH_WEIGHTS_W3,
      F.SCH_WEIGHTS_W2, F.SCH_WEIGHTS_W1, F.SCH_WEIGHTS_W0]
  | .SCH_STRICT_CAP => [F.SCH_STRICT_CAP_CAP3, F.SCH_STRICT_CAP_CAP2, F.SCH_STRICT_CAP_CAP1]
  | .SCH_BEACON_PORT => [F.SCH_BEACON_PORT_WAIT_NS, F.SCH_BEACON_PORT_BURST, F.SCH_BEACON_PORT_RATE]
  | .SCH_MARK => [F.SCH_MARK_MARK_MAX, F.SCH_MARK_MARK_MIN]
  | .SCH_CLASS_MAP => [F.SCH_CLASS_MAP_RSP_DATA, F.SCH_CLASS_MAP_FWD, F.SCH_CLASS_MAP_REQ]
  | .FAB_CAPS => [F.FAB_CAPS_VERSIONS]
  | .FAB_LINK_CFG => [F.FAB_LINK_CFG_RETRAIN_LIMIT, F.FAB_LINK_CFG_UE_LIMIT, F.FAB_LINK_CFG_RESERVE]
  | .FAB_ENGINE_STATUS => [F.FAB_ENGINE_STATUS_TEMP, F.FAB_ENGINE_STATUS_LASER, F.FAB_ENGINE_STATUS_LASER_LOW,
      F.FAB_ENGINE_STATUS_STATE]
  | .FAB_PORT_CFG => [F.FAB_PORT_CFG_ENABLE, F.FAB_PORT_CFG_ROUTE, F.FAB_PORT_CFG_RETRAIN, F.FAB_PORT_CFG_DIM,
      F.FAB_PORT_CFG_DIR]
  | .FAB_PORT_STATUS => [F.FAB_PORT_STATUS_PEER_NODE, F.FAB_PORT_STATUS_PEER_VALID, F.FAB_PORT_STATUS_PEER_PORT,
      F.FAB_PORT_STATUS_DELAY, F.FAB_PORT_STATUS_VERSION, F.FAB_PORT_STATUS_RETRAINS, F.FAB_PORT_STATUS_REASON,
      F.FAB_PORT_STATUS_STATE]
  | .FAB_PORT_ERR => [F.FAB_PORT_ERR_CORRECTED, F.FAB_PORT_ERR_UNCORRECTABLE]
  | .FAB_CREDIT_STATUS => [F.FAB_CREDIT_STATUS_LOST, F.FAB_CREDIT_STATUS_SHARED_FREE]
  | .SWT_TOPO => [F.SWT_TOPO_SIZE_M1, F.SWT_TOPO_DL_PLUS, F.SWT_TOPO_DL_MINUS, F.SWT_TOPO_COORD]
  | .SWT_DIR_LO => [F.SWT_DIR_LO_DIR]
  | .SWT_DIR_HI => [F.SWT_DIR_HI_DIR]
  | .SWT_ROUTE_CTRL => [F.SWT_ROUTE_CTRL_STOP_ALL, F.SWT_ROUTE_CTRL_ALL_STOPPED, F.SWT_ROUTE_CTRL_STOPPED,
      F.SWT_ROUTE_CTRL_STOP]
  | .SWT_DRAIN_STATUS => [F.SWT_DRAIN_STATUS_WAITING]
  | .SWT_COUNT => [F.SWT_COUNT_COUNT]
  | .FAB_CAL => [F.FAB_CAL_SLOTS]
  | .ARR_CAPS => [F.ARR_CAPS_FORMATS, F.ARR_CAPS_ENABLED, F.ARR_CAPS_GROUPS]
  | .ARR_FAULT_LOG => [F.ARR_FAULT_LOG_VALID, F.ARR_FAULT_LOG_CGROUP, F.ARR_FAULT_LOG_PHYSICAL,
      F.ARR_FAULT_LOG_LOGICAL, F.ARR_FAULT_LOG_KIND]
  | .ARR_MAP_SEL => [F.ARR_MAP_SEL_LOGICAL]
  | .ARR_MAP_DATA => [F.ARR_MAP_DATA_PHYSICAL, F.ARR_MAP_DATA_DOUBLED, F.ARR_MAP_DATA_SHARED_WITH]
  | .ARR_GROUP_STATUS => [F.ARR_GROUP_STATUS_DOUBLED, F.ARR_GROUP_STATUS_OUT, F.ARR_GROUP_STATUS_FAILED,
      F.ARR_GROUP_STATUS_SPARES_USED, F.ARR_GROUP_STATUS_POWER, F.ARR_GROUP_STATUS_BUSY,
      F.ARR_GROUP_STATUS_ASSIGNED]
  | .ARR_COUNT => [F.ARR_COUNT_COUNT]
  | .COL_CAPS => [F.COL_CAPS_FMT, F.COL_CAPS_PLANS, F.COL_CAPS_GROUPS]
  | .COL_USE => [F.COL_USE_PLANS, F.COL_USE_GROUPS]
  | .COL_ABORT_LOG => [F.COL_ABORT_LOG_VALID, F.COL_ABORT_LOG_CAUSE, F.COL_ABORT_LOG_GROUP,
      F.COL_ABORT_LOG_MEMBER, F.COL_ABORT_LOG_STEP, F.COL_ABORT_LOG_GEN]
  | .COL_COUNT => [F.COL_COUNT_COUNT]
  | .ETH_PORT_CFG => [F.ETH_PORT_CFG_PFC_EN, F.ETH_PORT_CFG_DEFAULT_PCP, F.ETH_PORT_CFG_ENABLE,
      F.ETH_PORT_CFG_IFACE, F.ETH_PORT_CFG_SPEED]
  | .ETH_PORT_STATUS => [F.ETH_PORT_STATUS_PAUSED, F.ETH_PORT_STATUS_XOFF, F.ETH_PORT_STATUS_LINK_DOWNS,
      F.ETH_PORT_STATUS_REMOTE_FAULT, F.ETH_PORT_STATUS_LOCAL_FAULT, F.ETH_PORT_STATUS_UP]
  | .ETH_RX_CFG => [F.ETH_RX_CFG_PFC_REFRESH, F.ETH_RX_CFG_RX_HOLD]
  | .ETH_GATE_CTRL => [F.ETH_GATE_CTRL_RUN, F.ETH_GATE_CTRL_STOPPED, F.ETH_GATE_CTRL_ERROR, F.ETH_GATE_CTRL_LEN]
  | .ETH_GATE_CYCLE => [F.ETH_GATE_CYCLE_CYCLE]
  | .ETH_GATE_BASE => [F.ETH_GATE_BASE_BASE]
  | .ETH_GATE_STOP => [F.ETH_GATE_STOP_GATES]
  | .ETH_TIMER => [F.ETH_TIMER_TIME]
  | .ETH_TIMER_ADJ => [F.ETH_TIMER_ADJ_OFFSET]
  | .ETH_PFC_THRESH => [F.ETH_PFC_THRESH_LIMIT, F.ETH_PFC_THRESH_XOFF, F.ETH_PFC_THRESH_XON]
  | .ETH_COUNT => [F.ETH_COUNT_COUNT]
  | .ETH_MAC => [F.ETH_MAC_VALID, F.ETH_MAC_OWNER, F.ETH_MAC_ADDR]
  | .ETH_FILTER_W0 => [F.ETH_FILTER_W0_VALID, F.ETH_FILTER_W0_DROP, F.ETH_FILTER_W0_PART,
      F.ETH_FILTER_W0_MAC_IDX, F.ETH_FILTER_W0_TAG_MODE, F.ETH_FILTER_W0_VID, F.ETH_FILTER_W0_ETYPE_ANY,
      F.ETH_FILTER_W0_ETYPE]
  | .ETH_FILTER_W1 => [F.ETH_FILTER_W1_QPN]
  | .ETH_GCL_W0 => [F.ETH_GCL_W0_GATES]
  | .ETH_GCL_W1 => [F.ETH_GCL_W1_INTERVAL]
  | .ETH_KT_CFG => [F.ETH_KT_CFG_UDP_PORT, F.ETH_KT_CFG_PORTS, F.ETH_KT_CFG_DSCP, F.ETH_KT_CFG_TAG,
      F.ETH_KT_CFG_PCP_RSP, F.ETH_KT_CFG_PCP_REQ, F.ETH_KT_CFG_VID, F.ETH_KT_CFG_HOPLIMIT]
  | .ETH_KT_ADDR_HI => [F.ETH_KT_ADDR_HI_ADDR]
  | .ETH_KT_ADDR_LO => [F.ETH_KT_ADDR_LO_ADDR]
  | .ETH_WAKE_CFG => [F.ETH_WAKE_CFG_ENABLE, F.ETH_WAKE_CFG_LINK, F.ETH_WAKE_CFG_MAGIC, F.ETH_WAKE_CFG_PATTERN]
  | .ETH_WAKE_STATUS => [F.ETH_WAKE_STATUS_VALID, F.ETH_WAKE_STATUS_SOURCE]
  | .ETH_WAKE_PAT => [F.ETH_WAKE_PAT_PAT]
  | .PRT_STATE => [F.PRT_STATE_GEN, F.PRT_STATE_RESETS, F.PRT_STATE_STATE]
  | .PRT_EXPOSE => [F.PRT_EXPOSE_EXPOSE]
  | .PRT_COUNT => [F.PRT_COUNT_COUNT]
  | .PRT_SELF => [F.PRT_SELF_GEN, F.PRT_SELF_STATE, F.PRT_SELF_HALTED, F.PRT_SELF_FABRIC_ENC,
      F.PRT_SELF_CNT_USER]
  | .KPR_STATUS => [F.KPR_STATUS_TERM, F.KPR_STATUS_ROLE, F.KPR_STATUS_ORPHAN, F.KPR_STATUS_DORMANT,
      F.KPR_STATUS_KGROUP, F.KPR_STATUS_ACTIVE_NODE]
  | .KPR_LC_CFG => [F.KPR_LC_CFG_PERIOD, F.KPR_LC_CFG_MISS, F.KPR_LC_CFG_REPORTERS, F.KPR_LC_CFG_PROBE_WAIT,
      F.KPR_LC_CFG_GROUP_SIZE]
  | .KPR_SUPPRESS => [F.KPR_SUPPRESS_INTERVAL, F.KPR_SUPPRESS_LINK_HOLD]
  | .KPR_SW_ALIVE => [F.KPR_SW_ALIVE_ALIVE]
  | .KPR_CFG => [F.KPR_CFG_MIRROR_OK, F.KPR_CFG_SW_LIMIT]
  | .KPR_COUNT => [F.KPR_COUNT_COUNT]
  | .LAMP_STATUS => [F.LAMP_STATUS_START_COUNT, F.LAMP_STATUS_REASON, F.LAMP_STATUS_WARM, F.LAMP_STATUS_STAGE]
  | .LAMP_POSITION => [F.LAMP_POSITION_POSITION]
  | .LAMP_CAPS => [F.LAMP_CAPS_IMG_FMT, F.LAMP_CAPS_ATT_FMT]
  | .LAMP_LEDGER => [F.LAMP_LEDGER_FULL, F.LAMP_LEDGER_LAST_KIND, F.LAMP_LEDGER_ADDED, F.LAMP_LEDGER_ENTRIES]
  | .LAMP_IMAGE => [F.LAMP_IMAGE_VERSION, F.LAMP_IMAGE_FLOOR]
  | .SEC_STAGE => [F.SEC_STAGE_STATE, F.SEC_STAGE_REASON, F.SEC_STAGE_SOURCE, F.SEC_STAGE_BYTES]
  | .SEC_CIPHER => [F.SEC_CIPHER_IN_SERVICE, F.SEC_CIPHER_GALLERY_KEYS, F.SEC_CIPHER_MISMATCHES]
  | .SEC_CIPHER_LOG => [F.SEC_CIPHER_LOG_VALID, F.SEC_CIPHER_LOG_CORE, F.SEC_CIPHER_LOG_MODE,
      F.SEC_CIPHER_LOG_PART]
  | .SEC_PART_KEYS => [F.SEC_PART_KEYS_KEK_SET, F.SEC_PART_KEYS_TX_VALID, F.SEC_PART_KEYS_TX_KEY_ID,
      F.SEC_PART_KEYS_SLOTS, F.SEC_PART_KEYS_HANDLES]
  | .SEC_COUNT => [F.SEC_COUNT_COUNT]
  | .LAMP_RTC => [F.LAMP_RTC_COUNT]
  | .LAMP_RTC_ALARM => [F.LAMP_RTC_ALARM_ENABLE, F.LAMP_RTC_ALARM_FIRED, F.LAMP_RTC_ALARM_VECTOR,
      F.LAMP_RTC_ALARM_AT]
  | .LAMP_RESET => [F.LAMP_RESET_KEY, F.LAMP_RESET_DEVICE]
  | .LAMP_FAULT_HEAD => [F.LAMP_FAULT_HEAD_ARM, F.LAMP_FAULT_HEAD_HEAD]
  | .LAMP_FAULT_STATUS => [F.LAMP_FAULT_STATUS_LOST, F.LAMP_FAULT_STATUS_TAIL]
  | .LAMP_FAULT_CFG => [F.LAMP_FAULT_CFG_VECTOR]
  | .LAMP_RTC_SET => [F.LAMP_RTC_SET_VALUE]
  | .LAMP_FAULT_RING => [F.LAMP_FAULT_RING_WORD]
  | .PWR_DOMAIN => [F.PWR_DOMAIN_IDLE_TICKS, F.PWR_DOMAIN_CEILING, F.PWR_DOMAIN_HOLD, F.PWR_DOMAIN_LAST_WAKE,
      F.PWR_DOMAIN_STATE]
  | .PWR_WAKE_SET_LO => [F.PWR_WAKE_SET_LO_DOMAINS]
  | .PWR_WAKE_SET_HI => [F.PWR_WAKE_SET_HI_DOMAINS]
  | .PWR_THERMAL => [F.PWR_THERMAL_TRIPPED, F.PWR_THERMAL_WARNING, F.PWR_THERMAL_TEMP, F.PWR_THERMAL_DIE,
      F.PWR_THERMAL_WARN_AT]
  | .PWR_COUNT => [F.PWR_COUNT_COUNT]
  | .CNT_TIME => [F.CNT_TIME_TIME]
  | .CNT_STOP => [F.CNT_STOP_ARMED, F.CNT_STOP_STOPPED, F.CNT_STOP_AT]
  | .CNT_CFG => [F.CNT_CFG_VECTOR]
  | .CNT_BW_CFG => [F.CNT_BW_CFG_WINDOW_SEQ, F.CNT_BW_CFG_WINDOW]
  | .CNT_OVF_LO => [F.CNT_OVF_LO_OVF]
  | .CNT_OVF_HI => [F.CNT_OVF_HI_OVF]
  | .CNT_CTRL => [F.CNT_CTRL_ENABLE, F.CNT_CTRL_MODE, F.CNT_CTRL_CHAIN, F.CNT_CTRL_INT, F.CNT_CTRL_OWNER,
      F.CNT_CTRL_UNIT, F.CNT_CTRL_EVENT]
  | .CNT_VALUE => [F.CNT_VALUE_VALUE]
  | .CNT_BW => [F.CNT_BW_RX, F.CNT_BW_TX]
  | .CNT_SAMPLE_CFG => [F.CNT_SAMPLE_CFG_ENABLE, F.CNT_SAMPLE_CFG_INTERVAL, F.CNT_SAMPLE_CFG_PART,
      F.CNT_SAMPLE_CFG_ANY_PART, F.CNT_SAMPLE_CFG_ANY_QP, F.CNT_SAMPLE_CFG_OPCODE, F.CNT_SAMPLE_CFG_QPN]
  | .CNT_SAMPLE_STATUS => [F.CNT_SAMPLE_STATUS_TAIL, F.CNT_SAMPLE_STATUS_DROPPED]
  | .CNT_SAMPLE_HEAD => [F.CNT_SAMPLE_HEAD_HEAD]

end Sys2Proof.Machine
end

