-- ==== Sys2Proof/Machine/State.lean ====
section
/-!
DEFINITION. The state of the block as plain data: every register, table, queue, buffer, counter, mode and pin the spec gives
the adapter, the queue of commands that wait, and the model's own bookkeeping (the free-value counter, the identifiers of
outstanding link accesses, and the record of what has left the block). And the state right after reset.
-/
namespace Sys2Proof.Machine

/-! ### Queues, rings and descriptors (spec/05_queues_and_descriptors.md) -/

/-- A place a link write or read goes to: the link (0 the host link, 1 + n accelerator port n), the function (routing ID, R120)
and the address presented on the link (R119). -/
structure Loc where
  link : Nat
  fn   : Nat
  addr : Nat
  deriving DecidableEq, Repr

/-- An extent of R46: at this adapter (node none) or at a node, a 50-bit local address there, a length, and for a remote one
the region key and the incarnation. Protected and unprotected Gallery memory are different kinds (R106). -/
structure Extent where
  node : Option Nat
  addr : Nat
  len  : Nat
  key  : Nat
  inc  : Nat
  xts  : Bool
  deriving DecidableEq, Repr

/-- A descriptor ring (R140): where its memory is, its size, producer and fetch index; whether a slot is being fetched, how
many stale copies of it came back (R156), SEQ_WAIT (R157), whether a failed fetch waits to be repeated (R131), when its slot was first fetched, and when a stale
copy last came or a fetch last failed. -/
structure DRing where
  loc      : Loc
  ext      : Option Extent
  log2     : Nat
  pi       : Nat
  fetch    : Nat
  busy     : Bool
  stale    : Nat
  seqWait  : Bool
  retry    : Bool
  since    : Nat
  retAt    : Nat
  deriving DecidableEq, Repr

/-- The queue-pair states of R145. -/
inductive QpState where
  | free | active | error | hostLost | halted | destroying
  deriving DecidableEq, Repr

/-- A queue pair (R142, R145). `ethPort` is none for a transport queue; `flags` holds bits
35 to 32 of its creation word (R373). `debt` (bytes) stood at `debtAt` ns and falls at
`rate` MB/s (R235). `recvs` are the accepted receive descriptors no message has begun to fill, oldest first (R210).
`destroyer` is the QP_DESTROY record that waits (R147). `flushed` counts completions recorded, not written (R134).
`failAll`, `failBy`, `linkBy`: of the finished WRITEs, SENDs and ATOMICs of the send ring, those that failed, in all and by node,
and the links that carried their placements here, by node and under 16,384 for all (R162, R122). -/
structure Qp where
  state     : QpState
  part      : Nat
  ethPort   : Option Nat
  beacon    : Bool
  schQueue  : Nat
  fmt       : Nat
  qkey      : Nat
  maxOut    : Nat
  flags     : Nat
  sqRing    : Nat
  rqRing    : Nat
  sq        : DRing
  rq        : Option DRing
  rate      : Nat
  burst     : Nat
  debt      : Rat
  debtAt    : Nat
  doorbell  : Nat
  recvs     : List Nat
  destroyer : Option Nat
  flushed   : Nat
  failAll   : Nat
  failBy    : Tbl Nat
  linkBy    : Tbl (List Nat)
  deriving DecidableEq, Repr

/-- The completion-ring states of R148. -/
inductive RingState where
  | free | active | stalled | hostLost
  deriving DecidableEq, Repr

/-- A completion entry (R158) before its ring index gives it PHASE and SEQ. `src` is the generation test of R404: the
partition whose current generation must equal `gen`, none for the device admin queue. `recId` is the record it ends or reports on, 0 for
none. -/
structure Entry where
  type   : Nat
  reason : Nat
  status : Nat
  gen    : Nat
  qpn    : Nat
  tag    : Word
  bytes  : Nat
  node   : Nat
  rq     : Bool
  srcQpn : Nat
  data   : Word
  owner  : Option Nat
  recId  : Nat
  deriving DecidableEq, Repr

/-- A completion ring (R148, R163 to R169). `held` is the holding buffer followed by the entries that still sit in their
acceptance records: the first 64 of the list are in the buffer. -/
structure Ring where
  state    : RingState
  part     : Nat
  loc      : Loc
  ext      : Option Extent
  log2     : Nat
  vector   : Nat
  split    : Bool
  head     : Nat
  tail     : Nat
  armed    : Bool
  held     : List Entry
  lost     : Nat
  doorbell : Nat
  deriving DecidableEq, Repr

/-- An admin command ring's state, as QMG_ADM_STATUS shows it (R178). -/
inductive AdmState where
  | free | active | hostLost | halted | fault
  deriving DecidableEq, Repr

/-- An admin queue's command ring: key p for partition p, 64 for the device admin queue. -/
structure AdmQ where
  state : AdmState
  sq    : DRing
  deriving DecidableEq, Repr

/-- How far an accepted descriptor has come. -/
inductive RecPhase where
  | accepted      -- accepted and translated; its own row has not run
  | running       -- carried out; parts of it are under way
  | waiting       -- an admin command that waits for an event, or a descriptor whose event has not begun
  | departed      -- its DEPARTED entry has been written (R159)
  | ended         -- carried out; its last entry has still to be written or held (R161)
  deriving DecidableEq, Repr

/-- An acceptance record: one accepted and unfinished descriptor (R155, R161), with the translated copy it keeps (R45).
`queue` is a queue-pair number, 65,536 + p for partition p's admin queue, 65,600 for the device admin queue. `left` counts
first-copy packets that have not left (R203); `local` counts local pieces not yet placed; `msgs` its messages or read requests
not ended; `ranges` the partition addresses and lengths its extents were taken from (R56); `cover` the descriptors a fence, a drain or a
GALLERY_FREE still waits for, `failed` those of them that failed (R162); `localBad` whether a local piece was not placed (R203); `bytes` the count its last entry reports; `links` the links that
carried placements it reports (R122); `aux` counters an operation needs; `source` where its completion goes:
0 its ring, 1 an ORDER_DONE to the node in `srcQpn` (R413), 2 the I3C (R33), 3 nowhere: its ring was lost (R134). -/
structure Rec where
  queue  : Nat
  rq     : Bool
  idx    : Nat
  part   : Nat
  gen    : Nat
  desc   : Desc
  phase  : RecPhase
  src    : List Extent
  dst    : List Extent
  xtra   : List Extent
  ranges : List (Nat × Nat)
  msgs   : List Nat
  started : Bool
  left   : Nat
  localLeft : Nat
  localBad : Bool
  placed : Nat
  bytes  : Nat
  status : Nat
  reason : Nat
  data   : Word
  node   : Nat
  srcQpn : Nat
  cover  : List Nat
  failed : Nat
  links  : List Nat
  aux    : List Nat
  buf    : List Byte
  source : Nat
  at0    : Nat
  at1    : Nat
  at2    : Nat
  retx   : Nat
  sampled : Bool
  deriving DecidableEq, Repr

/-! ### Translation, regions and the Grotto pool (spec/02, spec/03) -/

/-- A translation entry of R43: its two words. -/
structure TEntry where
  w0 : Word
  w1 : Word
  deriving DecidableEq, Repr

/-- The region-entry states of R63. -/
inductive RgnState where
  | closed | open | closing | retired
  deriving DecidableEq, Repr

/-- A region entry (R63), with what the adapter keeps beside it: the count of accepted unfinished packets (R68), the order in
which it became CLOSED (R66), whether it goes to RETIRED at the end (R71), and the REVOKE that began the closing (R72). -/
structure Region where
  base    : Nat
  pages   : Nat
  atRest  : Bool
  a       : Bool
  w       : Bool
  r       : Bool
  owner   : Nat
  state   : RgnState
  gen     : Nat
  tag     : Word
  busy    : Nat
  seq     : Nat
  retire  : Bool
  revoker : Option Nat
  waiters : List Nat
  deriving DecidableEq, Repr

/-- The states of a 2 MiB block (R84). -/
inductive BlkState where
  | free | internal | gallery | freeing | lost
  deriving DecidableEq, Repr

/-- What a block holds (R84, R85). Mirrored structures carry their copy number. -/
inductive Use where
  | none
  | regionTable (die copy : Nat)
  | blockMap (die copy : Nat)
  | tablePool (part k copy : Nat)
  | planBody (slot k copy : Nat)
  | groupArea (group k : Nat)
  | rspPool (die k : Nat)
  | recvMap (slot k : Nat)
  | sample (k : Nat)
  | staging (k : Nat)
  | context (die : Nat)
  | gallery (n : Nat)
  deriving DecidableEq, Repr

/-- A block of a stack. -/
structure Blk where
  state : BlkState
  use   : Use
  deriving DecidableEq, Repr

/-- A block-map entry (R86): whether the Gallery block is allocated, its state, owner, XTS flag, key, stack and stack block, and the first
Gallery block of the allocation it came with (R109). -/
structure GBlk where
  alloc : Bool
  state : BlkState
  owner : Nat
  xts   : Bool
  key   : Nat
  stack : Nat
  block : Nat
  first : Nat
  deriving DecidableEq, Repr

/-- The bias of a Gallery page (R91) and its share mask (R93). -/
structure Bias where
  shared : Bool
  mask   : Nat
  deriving DecidableEq, Repr

/-- The states of a stack, as GRT_STACK_STATUS shows them (R110). -/
inductive StackState where
  | absent | serving | evacuating | lost
  deriving DecidableEq, Repr

/-- A stack: state, lines corrected and found uncorrectable, blocks migrated away (R104), and the migration in progress. -/
structure Stack where
  state    : StackState
  ce       : Nat
  ue       : Nat
  migrated : Nat
  deriving DecidableEq, Repr

/-- A block migration in progress (R103): from a physical block to another, and the accesses that wait. -/
structure Migration where
  src : Nat
  dst : Nat
  deriving DecidableEq, Repr

/-- A run of Gallery blocks being freed: the command that waits, if any, the run, and whether scrubbing has begun (R90); or the area of a
destroyed group, under a number past the Gallery blocks (R327, log entry 134). -/
structure Freeing where
  recId : Option Nat
  part  : Nat
  first : Nat
  count : Nat
  scrub : Bool
  deriving DecidableEq, Repr

/-! ### Links (spec/04_host_and_accelerator_ports.md) -/

/-- An entry of an MSI-X table with its bit of the PBA (R114): message address and data, masked, pending. -/
structure Vec where
  addr    : Nat
  data    : Nat
  masked  : Bool
  pending : Bool
  deriving DecidableEq, Repr

/-- The host link (0) or accelerator port n (1 + n): data link, LOST, disabled by a stall (R133), mode (0 down, 1 PCIe,
2 CXL), width, rate, VFs enabled by the far side, 64-bit AtomicOp completer, failed fetches in a row, power state L1, losses,
and the drop and refusal counts (R116, R127). Of the configuration space of its functions, beside the VFs: the completion timeout
in ns (R131), ECRC enabled (R111), and the MSI-X tables by function × 2,048 + vector (R114). `acceptAt` when it last accepted a posted
write, or had the first to wait (R133). -/
structure Link where
  up      : Bool
  lost    : Bool
  disabled : Bool
  training : Bool
  perst   : Bool
  mode    : Nat
  width   : Nat
  rate    : Nat
  numVfs  : Nat
  atomicOk : Bool
  fails   : Nat
  l1      : Bool
  losses  : Nat
  dropped : Nat
  refLoads  : Nat
  refStores : Nat
  timeout : Nat
  ecrc    : Bool
  vecs    : Tbl Vec
  acceptAt : Nat
  deriving DecidableEq, Repr

/-- What the bytes a gathering operation collects are for. -/
inductive Why where
  | copy (rec off : Nat)                     -- a local copy's piece, at this offset of the byte stream
  | message (msg : Nat)                      -- the first copies of a message
  | resend (msg psn : Nat)                   -- a retransmitted copy of one packet
  | readRsp (req : Packet) (psn : Nat)       -- one READ_RSP packet of a request
  | atomicLocal (rec : Nat)                  -- an atomic's old value read on a link, local descriptor
  | atomicRemote (req : Packet)              -- an atomic's old value read on a link, remote request
  | admin (rec : Nat)                        -- an admin command's input
  | entry (ring : Nat) (e : Entry)           -- the zero-length reads before a completion entry (R122)
  | ethFrame (rec : Nat)                     -- an Ethernet send's bytes
  | ethAgain (rec frame : Nat)               -- the same, read again for a frame whose check failed (R392)
  | colSend (slot uid step off len : Nat)    -- a collective step's outgoing bytes, or a COPY's
  | colFold (slot uid step : Nat)            -- a pass's local contribution
  | colCounts (rec : Nat)                    -- the count table of an ALL_TO_ALL (R363)
  deriving DecidableEq, Repr

/-- A gathering operation: its pieces in order (none: still being read), and what to do with the whole. -/
structure Build where
  pieces : List (Option (List Byte))
  why    : Why
  bad    : Option Nat
  deriving DecidableEq, Repr

/-- A read outstanding on a link: a descriptor fetch, or piece k of a gathering operation. -/
inductive ReadWhy where
  | fetch (queue : Nat) (rq : Bool)
  | piece (build k : Nat)
  deriving DecidableEq, Repr

/-- An outstanding read on a link. -/
structure LinkRead where
  loc : Loc
  len : Nat
  at0 : Nat
  why : ReadWhy
  deriving DecidableEq, Repr

/-- What a placement finishes when it meets R26. -/
inductive PlaceWhy where
  | packet (key psn ts : Nat) (ece : Bool)   -- a remote message's packet: recent-delivery key, PSN, and what its ACK echoes
  | copy (rec : Nat)                         -- a piece of a local copy
  | readRsp (msg psn : Nat)                  -- a read response's packet at the reader
  | ethRecv (rec : Nat)                      -- a received frame
  | colData (slot uid step idx : Nat) (p : Packet) -- a collective packet: unit idx of a RECV step's transfer
  | colWrite (slot uid step : Nat) (units : List Nat) -- passes of a REDUCE, units of a COPY, or a bounded step's count
  deriving DecidableEq, Repr

/-- The writes of one packet or piece on their way to memory, not yet meeting R26: local addresses with their bytes. `region` is
the region index that counts the packet (R68). `landed`: the stacks have applied the Gallery parts already, for an access that
came after them (R29). `at0` when a Beacon packet's header arrived, for its residence (R240, R244). -/
structure Placement where
  parts  : List (Nat × List Byte)
  region : Option Nat
  part   : Nat
  why    : PlaceWhy
  landed : Bool
  at0    : Option Nat
  deriving DecidableEq, Repr

/-! ### Transport (spec/06_transport.md) -/

/-- What a message carries (R179, R212, R214, R219). -/
inductive MsgKind where
  | write | send | read | atomic | mgt | col
  deriving DecidableEq, Repr

/-- A message at the sender (R179, R193 to R201). `beganAt` when it began; `d` the departure of its first copy (R197); `left` its
first copies still to leave and `unsent` their bytes (R194); `acked` its PSNs placed, or for a read the packets placed; `sent`
each PSN's latest departure and `tmo` its timeout in ns; `units` response units held and `staged` packets on their way to memory
(R212); `busy` the NAK BUSY state: since when, the wait in ns, and the PSN sent again (R199); `hz` and `nd` the retry horizon and the
network delay in ns taken when it began (R221); `ethPort` its port (R384); `ctl`
words 1, 3, 4 and 6 of a COL message and `plan` its plan slot, with `data` the bytes of a COL or MGT message; `bad` the packets whose bytes could
not be read or placed, and `err` the status and DATA the message then ends with (R102, R131); `unfit` the packets whose frame on an Ethernet
port has failed its check once (R392). -/
structure Msg where
  recId  : Nat
  queue  : Nat
  part   : Nat
  gen    : Nat
  kind   : MsgKind
  node   : Nat
  len    : Nat
  src    : List Extent
  dst    : List Extent
  raddr  : Nat
  key    : Nat
  inc    : Nat
  qpn    : Nat
  imm    : Word
  opx    : Nat
  opnd   : Word
  comp   : Word
  pshift : Nat
  ver    : Nat
  npkts  : Nat
  begun  : Bool
  beganAt : Nat
  d      : Option Nat
  left   : Nat
  unsent : Nat
  acked  : List Nat
  sent   : Tbl Nat
  tmo    : Tbl Nat
  units  : Nat
  staged : List Nat
  busy   : Option (Nat × Nat)
  busyPsn : Option Nat
  hz     : Nat
  nd     : Nat
  beacon : Bool
  ethPort : Option Nat
  data   : List Byte
  ctl    : List Word
  plan   : Nat
  step   : Nat
  off    : Nat
  bad    : List Nat
  err    : Option (Nat × Word)
  unfit  : List Nat
  deriving DecidableEq, Repr

/-- A flight entry (R193, R230): rate in bytes per ns, SRTT and RTTVAR in ns once a sample has come, the hold and grow times,
and the time until which its rate is used up by copies already sent. -/
structure Flight where
  rate  : Rat
  srtt  : Option Rat
  var   : Rat
  hold  : Rat
  grow  : Rat
  next  : Rat
  deriving DecidableEq, Repr

/-- A recent-delivery entry (R204): the message's key, whether it is DELIVERED, when it was taken or entered DELIVERED, the PSNs
placed and those whose placement has met R26, the bytes of each and the sum of the counted, whether it holds a bitmap, whether it
and its bitmap draw on the Beacon reserve (R246), the old value of a fetching atomic, the RECV it bound, and the ACK that is due: its PSNs in the order of their placement, each with its copy's TS and
whether it was marked (R184, R195), and by when it leaves (R208). `mgt` collects a management message. `src` is 65,536 + p for one that
came by port p in state MGT_ONLY (R264). -/
structure Rd where
  src    : Nat
  epoch  : Nat
  msgId  : Nat
  delivered : Bool
  since  : Nat
  psns   : List Nat
  met    : List Nat
  lens   : Tbl Nat
  bytes  : Nat
  len    : Nat
  bitmap : Bool
  bmRes  : Bool
  beacon : Bool
  old    : Word
  fetching : Bool
  isMgt  : Bool
  recv   : Option Nat
  qpn    : Nat
  srcQpn : Nat
  imm    : Word
  part   : Nat
  due    : List (Nat × Nat × Bool)
  dueAt  : Nat
  mgt    : List (Nat × List Byte)
  links  : List Nat
  deriving DecidableEq, Repr

/-- An entry of the redirect table (R429), by old key: old incarnation and base, new node, key, incarnation and base. -/
structure Redirect where
  oldInc  : Nat
  oldBase : Nat
  node    : Nat
  key     : Nat
  inc     : Nat
  base    : Nat
  deriving DecidableEq, Repr

/-! ### The switch, scheduling and the fabric links (spec/07, spec/08) -/

/-- A packet or frame inside the switch: the input it came by (0 to 127 a fabric port, 128 + d the transport engine of die d,
130 and 131 bridge 4 into die 1 and die 0, 132 to 135 bridges 0 to 3 into the port dies, 136 to 139 back into the Lantern dies, 140 + e a frame of Ethernet port e), the virtual channel and pool it occupies there, when it came to this adapter and the
delay of the link it came by (R192); the output's virtual channel, whether the hop is an escape hop (R272), when it entered the
output list; the queue of the queue pair that injected it; the message copy it is (R203), and whether it is paced by a flight
entry; an Ethernet frame's bytes and descriptor; a collective packet's plan slot, and the link output
and bridge output of its route (255 for none); the output chosen before a bridge; whether it
leaves the fabric here; since when it resides here: released by the pacer, or its header come (R240); its poisoned flits, by number (R261);
whether a copy of a message has been built (R267), and whether its frame has failed its check once (R392). Of an Ethernet send `psn` is the
frame's number. -/
structure SwPkt where
  pkt    : Packet
  frame  : List Byte
  input  : Nat
  inVc   : Nat
  inRes  : Bool
  at0    : Nat
  delta  : Nat
  vc     : Nat
  escape : Bool
  at1    : Nat
  queue  : Option Nat
  len    : Nat
  msg    : Option Nat
  psn    : Nat
  first  : Bool
  paced  : Bool
  recId  : Option Nat
  part   : Nat
  plan   : Option Nat
  route  : Option (Nat × Nat)
  out    : Option Nat
  eject  : Bool
  dimIn  : Option Nat
  rel    : Nat
  marks  : List Nat
  built  : Bool
  again  : Bool
  deriving DecidableEq, Repr

/-- A token bucket: its level in bytes at a time; a bucket not listed is full. -/
structure Bucket where
  level : Rat
  at0   : Nat
  deriving DecidableEq, Repr

/-- What sampling keeps of one queue (R251): depth in units of 64 B, delay in units of 10 ns, and the largest of each. -/
structure QSample where
  depth    : Nat
  delay    : Nat
  maxDepth : Nat
  maxDelay : Nat
  deriving DecidableEq, Repr

/-- An output (R224, R252): its lists by queue × 16 + virtual channel (queue 64: collective packets, by plan), the buckets of
queues 1 to 3, the deficits and the turn of the weighted group, until when it sends, the last late record (R244), its samples,
its calendar (slot to plan slot + 1) and the changes that wait for the frame boundary (R275), the time at which slot 0 of frame
0 began (R274), and the packet being sent. -/
structure Output where
  lists   : Tbl (List SwPkt)
  caps    : Tbl Bucket
  deficit : Tbl Nat
  turn    : Nat
  busyTo  : Rat
  lateAt  : Option Nat
  samples : Tbl QSample
  cal     : Tbl Nat
  calNext : List (Nat × Nat)
  frame0  : Rat
  cur     : Option SwPkt
  deriving DecidableEq, Repr

/-- A flit slot of an outgoing codeword (R256, R257): its bytes, its bit of ATTR, whether a packet's header is in it, and whether its codeword
goes out with its FCRC inverted (R263). -/
structure TxSlot where
  bytes : List Byte
  attr  : Bool
  head  : Bool
  bad   : Bool
  deriving DecidableEq, Repr

/-- The states of a fabric port (R264). -/
inductive PortState where
  | disabled | detect | align | negotiate | measure | sync | up | mgtOnly | failed
  deriving DecidableEq, Repr

/-- A fabric port: training (R264 to R269), its input list being received (R261), credits as transmitter and receiver (R270 to
R272, R262), codeword errors and retrains (R267). `sent`, `ret`: flits sent and returned; `rx`, `freed`: flits accepted and
freed; all by 2 × virtual channel + pool (0 shared, 1 reserved minimum); `lostFlits` found lost under R262. When the last CREDIT and
HEALTH flits left; whether the peer's FRAME_START has come and the slot number of the next codeword received (R274); since when the port is out of UP (R423); `rxAt` when the header of the
packet being received came; `rxPoison` its flits found bad so far, by number. `tx` the slots filled of codewords that have not
been sent whole, by number from slot 0 of the codeword that begins frame 0 (R256). A bridge's transmit credits stand under its output, 136 to 145. -/
structure Port where
  state    : PortState
  reason   : Nat
  version  : Nat
  peerValid : Bool
  peerNode : Nat
  peerPort : Nat
  delay    : Nat
  echoes   : Nat
  minDelay : Option Rat
  retrains : Nat
  history  : List Nat
  ueTimes  : List Nat
  corrected : Nat
  uncorrectable : Nat
  lostFlits : Nat
  peerReserve : Nat
  ownReserve : Nat
  sent     : Tbl Nat
  ret      : Tbl Nat
  rx       : Tbl Nat
  freed    : Tbl Nat
  creditAt : Nat
  healthAt : Nat
  frameSeen : Bool
  downAt   : Option Nat
  parseLost : Bool
  rxAt     : Nat
  rxHead   : Option (Packet × Bool)
  rxLeft   : Nat
  rxBytes  : List Byte
  rxPoison : List Nat
  rxSlot   : Nat
  tx       : List (Nat × TxSlot)
  peerCorrected : Nat
  peerUncorrectable : Nat
  deriving DecidableEq, Repr

/-- An optical engine (R254): failed, photonic die temperature, laser input power, laser low. -/
structure Engine where
  failed   : Bool
  temp     : Nat
  laser    : Nat
  laserLow : Bool
  deriving DecidableEq, Repr

/-! ### Ethernet (spec/11) -/

/-- A classified frame that waits for its queue pair's RECV (R382): its bytes from the destination address through the FCS, whether
the PCS reported an error in it, whether its CRC-64 will fail at placement (R392), its priority, queue pair and filter entry, and
since when it waits. -/
structure HeldFrame where
  bytes   : List Byte
  codeErr : Bool
  crcBad  : Bool
  prio    : Nat
  qpn     : Nat
  filter  : Nat
  at0     : Nat
  deriving DecidableEq, Repr

/-- An Ethernet port: link training, UP and the fault signals (R370); the committed filter entries (R379); frames that wait (R382);
until when each priority is paused, and when the last PFC frame that holds a priority off was sent (R386, R387); the timer, as the
local time at which it restarted and the offset added to it (R389); the gates as they stand, the first cycle's start and the time at
which a stop takes hold, on the timer (R390, R391); the priorities, and their times, of the PFC frame that waits for the frame boundary (R386). -/
structure EthPort where
  training : Bool
  up      : Bool
  localFault : Bool
  remoteFault : Bool
  filters : Tbl (Word × Word)
  held    : List HeldFrame
  pauses  : Tbl Rat
  xoff    : Tbl Nat
  timerAt : Nat
  timerOff : Nat
  gates   : Nat
  start   : Nat
  stopAt  : Option Nat
  pfcDue  : List (Nat × Nat)
  deriving DecidableEq, Repr

/-! ### Reduction arrays and collectives (spec/09, spec/10) -/

/-- The arrays (R292 to R294, R321): physical arrays that failed, logical arrays to physical arrays plus 1 (absent ones are not
listed), the groups tested so far in this start, and by physical array the logical one whose pass it took last. -/
structure Arr where
  failed : List Nat
  amap   : Tbl Nat
  tested : List Nat
  turn   : Tbl Nat
  deriving DecidableEq, Repr

/-- A step record (R335). -/
structure PStep where
  op       : Nat
  peer     : Nat
  route    : Nat
  stream   : Bool
  afterA   : Nat
  afterB   : Nat
  srcSpace : Nat
  dstSpace : Nat
  ncontrib : Nat
  srcSlot  : Nat
  dstSlot  : Nat
  aux      : Nat
  srcOff   : Nat
  dstOff   : Nat
  len      : Nat
  elem     : Nat
  localPos : Nat
  deriving DecidableEq, Repr

/-- A link-table entry (R332), with its reserved slots in rising order. -/
structure PLink where
  output : Nat
  dim    : Nat
  dir    : Nat
  slots  : List Nat
  deriving DecidableEq, Repr

/-- A route-table entry (R333). -/
structure PRoute where
  route  : Nat
  link   : Nat
  bridge : Nat
  deriving DecidableEq, Repr

/-- A slot-table entry (R334). -/
structure PSlot where
  node  : Nat
  off   : Nat
  serves : Nat
  bytes : Nat
  deriving DecidableEq, Repr

/-- A plan part (R329 to R335). -/
structure PlanBody where
  id      : Nat
  members : Nat
  relays  : Nat
  control : Word
  seed    : Word
  kind    : Nat
  count   : Nat
  lag     : Nat
  abort   : Nat
  self    : Nat
  root    : Nat
  relay   : Bool
  inplace : Bool
  mask    : Nat
  ownStart : Nat
  ownLen  : Nat
  arrays  : Nat
  nodes   : List Nat
  links   : List PLink
  routes  : List PRoute
  slots   : List PSlot
  steps   : List PStep
  deriving DecidableEq, Repr

/-- A pass in progress (R295): its number in its step, and its contributions once the local one has been read. -/
structure Pass where
  idx      : Nat
  contribs : Option (List (List Byte × List Byte))
  deriving DecidableEq, Repr

/-- An invocation (R345 to R364): the model's own number of it, its COLLECTIVE record, the translated SEND_BUF, RECV_BUF and OVF_ADDR,
its signature; the steps started and
completed; by RECV step the 4 KiB units in the receive map, those that met R26, the window granted, SENT of a bounded one, and the
unread bytes of one into STREAM; by REDUCE step the next pass and the pass in progress; by SEND or COPY step the 4 KiB units
asked for; the passes or units a step has written; the wait counters, the steps reported as lagging; bytes written to RECV_BUF, drop
counts and the counts of an ALL_TO_ALL; whether it has ended. -/
structure Run where
  uid     : Nat
  recId   : Nat
  src     : List Extent
  dst     : List Extent
  ovf     : List Extent
  sig     : Word
  started : List Nat
  done    : List Nat
  maps    : Tbl (List Nat)
  met     : Tbl (List Nat)
  grants  : Tbl Nat
  sent    : Tbl Nat
  strm    : Tbl (List (Nat × List Byte))
  next    : Tbl Nat
  cur     : Tbl Pass
  written : Tbl (List Nat)
  asked   : Tbl Nat
  since   : Tbl Nat
  noticed : List Nat
  bytes   : Nat
  drops   : Tbl Nat
  counts  : List Nat
  ended   : Bool
  deriving DecidableEq, Repr

/-- The state of a plan slot: waiting for its calendars (R341), loaded, or being unloaded (R342). -/
inductive PlanState where
  | loading | loaded | unloading
  deriving DecidableEq, Repr

/-- A loaded plan (R341 to R347): its body, owner and group, its logical arrays, INV, the invocation in progress or last ended, the
COLLECTIVE records that wait, the commands that wait for it, and the READYs kept, as (INV, own step, window). -/
structure Plan where
  body   : PlanBody
  part   : Nat
  group  : Nat
  state  : PlanState
  arrays : List Nat
  inv    : Nat
  run    : Option Run
  queue  : List Nat
  loader : Option Nat
  unloaders : List Nat
  readys : List (Nat × Nat × Nat)
  deriving DecidableEq, Repr

/-- The group states of R327. -/
inductive GroupState where
  | free | active | aborting
  deriving DecidableEq, Repr

/-- A collective group: state, owner, generation, area in blocks, its own last abort in COL_ABORT_LOG form (R367). -/
structure Group where
  state : GroupState
  part  : Nat
  gen   : Nat
  area  : Nat
  last  : Word
  deriving DecidableEq, Repr

/-- Groups by number, plans by slot, and the collective engine's round-trip times by node (R348). -/
structure Col where
  groups : Tbl Group
  plans  : Tbl Plan
  rtt    : Tbl Flight
  deriving DecidableEq, Repr

/-! ### Security (spec/13) -/

/-- The key store (R467 to R469): KEKs by partition, transport keys by partition × 16 + slot, the transmit slot of a partition,
XTS keys by partition × 64 + slot; the cipher engine's cores out of service and the times of their mismatches (R463, R464). -/
structure Sec where
  keks  : Tbl (List Byte)
  tkeys : Tbl (List Byte)
  tx    : Tbl Nat
  xts   : Tbl (List Byte)
  cores : List Nat
  miss  : Tbl (List Nat)
  deriving DecidableEq, Repr

/-! ### The groups -/

/-- The Grotto pool (spec/03). `mem` holds the bytes of the stacks by physical address (stack × 65,536 + block) × 2 MiB +
offset; an unlisted byte reads zero (R84, R89). `xtsKeys` are the Gallery key slots (R105, R469). By physical line: `poison` (R102); `bad` the
errors in stored lines that no read has found yet, true for one that the code corrects (R83); `wrote` the lines of XTS blocks written since the
block was scrubbed (R89). -/
structure Pool where
  mem     : List Host.Cell
  poison  : Tbl Bool
  ce      : Tbl Nat
  blks    : Tbl Blk
  gmap    : Tbl GBlk
  bias    : Tbl Bias
  stackTbl : Tbl Stack
  migr    : Tbl Migration
  freeing : Tbl Freeing
  xtsKeys : Tbl (List Byte)
  bad     : Tbl Bool
  wrote   : Tbl Bool
  deriving DecidableEq, Repr

/-- Translation tables by partition, then page × 256 + index; and the region table by index (spec/02). -/
structure Xl where
  tables : Tbl (Tbl TEntry)
  rgn    : Tbl Region
  rgnSeq : Nat
  deriving DecidableEq, Repr

/-- A register write of the host (source 1) or over I3C (2) that waits for the end of a change that another source has stopped something
for (R33). -/
structure LateWrite where
  seq   : Nat
  source : Nat
  reg   : RegName
  i     : Nat
  j     : Nat
  w     : Word
  deriving DecidableEq, Repr

/-- The links and what is outstanding on them (spec/04); and the stop–change–restarts in progress, 0 of the routing (R288), 1 + e of the
gates of Ethernet port e (R391), with the source that stopped it, and the writes that wait for them (R33). -/
structure Io where
  links  : Tbl Link
  reads  : Tbl LinkRead
  builds : Tbl Build
  places : Tbl Placement
  nextId : Nat
  stops  : Tbl Nat
  late   : List LateWrite
  deriving DecidableEq, Repr

/-- Queue management (spec/05). -/
structure Qm where
  qps     : Tbl Qp
  rings   : Tbl Ring
  admqs   : Tbl AdmQ
  recs    : Tbl Rec
  devHalt : Bool
  deriving DecidableEq, Repr

/-- The transport engine (spec/06): messages by MSG_ID, the next MSG_ID by die less the die number (R180), flight entries by
node (65,536 + p: whatever is behind port p in state MGT_ONLY), the recent-delivery table, the redirect table by old key (R429), and the management messages delivered to the Lamp room and
not yet acted on, as (source, IMM, bytes) (R219). -/
structure Tr where
  msgs    : Tbl Msg
  nextMsg : Tbl Nat
  flights : Tbl Flight
  rds     : Tbl Rd
  redirs  : Tbl Redirect
  inbox   : List (Nat × Nat × List Byte)
  deriving DecidableEq, Repr

/-- The switch, the fabric ports and engines, and scheduling (spec/07, spec/08): input lists, packets that left the fabric here
and await their own row with their arrival times (2^63 + p in place of the time: it came on port p in state MGT_ONLY), outputs, ports, engines, the rotation of R282 by input, the pacers' lists and
release times by queue pair (R237), the injection regulator (R238), and the shapers and policers by partition (R248, R249). -/
structure Sw where
  inq     : Tbl (List SwPkt)
  ejected : List (Nat × Packet)
  outs    : Tbl Output
  ports   : Tbl Port
  engines : Tbl Engine
  rot     : Tbl Nat
  pacer   : Tbl (List SwPkt)
  pacerAt : Tbl Rat
  inj     : Bucket
  shape   : Tbl Bucket
  ethShape : Tbl Bucket
  police  : Tbl Bucket
  sampleAt : Nat
  deriving DecidableEq, Repr

/-! ### Partitions and the domain map (spec/12) -/

/-- The partition states of R401. -/
inductive PartState where
  | free | active | resetting | destroying
  deriving DecidableEq, Repr

/-- A partition: state, 16-bit generation (R404), quota record (R398, eight words), whether it is halted (R171), the pages of
its table-page pool (0 when it has none, R540), its TRANSLATION_FAULT count (R48), and the command a reset or teardown waits
with. -/
structure Part where
  state  : PartState
  gen    : Nat
  quota  : Desc
  halted : Bool
  pages  : Nat
  faults : Nat
  cmds   : List Nat
  deriving DecidableEq, Repr

/-- An entry of the domain address map (R414): KIND 0 absent, 1 fabric node, 2 peer over Ethernet. -/
structure MapEntry where
  kind     : Nat
  keeper   : Bool
  dead     : Bool
  kgroup   : Nat
  versions : Nat
  pshift   : Nat
  mac      : Nat
  ipv6     : Nat
  epoch    : Nat
  deriving DecidableEq, Repr

/-! ### Fault queues and power (spec/14) -/

/-- A fault queue (R496, R499, R500): key p for partition p, 64 for the Lamp room, whose ring `slots` is held here (four words
a record). `tally` by class; `owed` an OVERFLOW record is due. -/
structure FaultQ where
  state    : RingState
  loc      : Loc
  ext      : Option Extent
  log2     : Nat
  vector   : Nat
  head     : Nat
  tail     : Nat
  armed    : Bool
  lost     : Nat
  tally    : Tbl Nat
  owed     : Bool
  doorbell : Nat
  slots    : Tbl (List Word)
  deriving DecidableEq, Repr

/-- The states of a power domain, as PWR_DOMAIN shows them (R506). -/
inductive DomState where
  | off | on | retain | waking | failed
  deriving DecidableEq, Repr

/-- A power domain d of R478: state, when its idle timer started or was last reset (R481), what woke it last, when its wake began and
whether it began from OFF (R486, R487), and the CEILING and IDLE_TICKS that the timer goes by (R481). -/
structure Domain where
  state   : DomState
  idleAt  : Option Nat
  lastWake : Nat
  wakeAt  : Nat
  fromOff : Bool
  ceil    : Nat
  ticks   : Nat
  deriving DecidableEq, Repr

/-- Work that waits for domains to reach ON (R482) or for a migration (R103): a fetch; a packet that no region has accepted; a packet that
leaves the fabric; a descriptor; an invocation; a request that a region has accepted, with its plaintext (R69); a READ_RSP that is to be placed;
a direct access of a port (R127). -/
inductive Work where
  | fetch (queue : Nat) (rq : Bool)
  | packet (p : Packet) (at0 : Nat)
  | switchIn (input : Nat)
  | record (rec : Nat)
  | invoke (slot : Nat)
  | accepted (p : Packet) (plain : List Byte) (at0 region : Nat)
  | response (p : Packet) (plain : List Byte)
  | direct (port addr : Nat) (store : Option (List Byte))
  deriving DecidableEq, Repr

/-- Everything the block leaves or sends: in order, what has left it. (log entry 17) -/
inductive Egress where
  | linkWrite (loc : Loc) (bytes : List Byte)       -- a posted write on a link
  | linkRead (tag : Nat) (loc : Loc) (len : Nat) (cache : Bool) -- a read request: of PCIe, snooped, or through CXL.cache (R125)
  | linkAtomic (tag : Nat) (loc : Loc) (op : Nat) (a b : Word)  -- a PCIe FetchAdd or CAS (R128)
  | linkOwn (loc : Loc)                             -- a line taken exclusive through CXL.cache (R128)
  | snoop (link gaddr : Nat)                        -- a CXL.cache snoop of a Gallery line (R91)
  | cxlData (link : Nat) (bytes : Option (List Byte)) -- the answer to a direct load; none is poison
  | msix (link fn vector addr data : Nat)           -- an MSI-X message (R114, R167)
  | packet (output : Nat) (p : Packet) (reserved : Bool) -- a packet leaving on a fabric port, with its pool (R257)
  | frame (port : Nat) (bytes : List Byte)          -- a frame leaving on an Ethernet port
  | flit (port : Nat) (bytes : List Byte)           -- a link-control flit
  | badCodeword (port : Nat)                        -- a packet's codeword with its FCRC inverted (R263)
  | codeword (port n : Nat) (c : Codeword) (lanes : List (List Nat)) -- codeword n since frame 0, and its symbols by lane (R256)
  | cut (port : Nat)                                -- the packet being sent is cut short (R267)
  | i3c (bytes : List Byte)                         -- the completion of a command that came over I3C (R33)
  deriving DecidableEq, Repr

/-- What outlives a device reset: the current counter record of the configuration memory (source epoch R181, region-table
incarnation R64, start count, version floor, last node, SEQ; R436), the ledger's entries oldest first (four words each, R449),
the image area from address 0 (R434; an unlisted byte is erased), the trusted image-key slots 1 to 3 of the Lamp-room store (R444),
and the RTC: its count at a local time (R484). (log entry 94) -/
structure Nv where
  epoch  : Nat
  inc    : Nat
  starts : Nat
  floor  : Nat
  lastNode : Option Nat
  seq    : Nat
  ledger : List (List Word)
  image  : List Byte
  trust  : Tbl (List Byte)
  rtc    : Nat
  rtcAt  : Nat
  deriving DecidableEq, Repr

/-- The part itself: stepping (0xA0, 0xA1, 0xB0), VARIANT (0 not discovered, 1 ZQX-9120, 2 ZQX-9064), population. -/
structure Chip where
  stepping : Nat
  variant  : Nat
  pop      : Nat
  deriving DecidableEq, Repr

/-- Counters and sampling beside their registers (spec/15): the blocks of the sample buffer (0: none), the descriptors that have
matched the filter since the last sample; the counters' values, with wraps that COUNTER_WRAP still has to carry (R511); by counter
the last ns it counted in and what it added in that ns (R508); the conditions seen true last; bytes sent and received by index of
CNT_BW since the last window, the window in force in µs, and when the last one ended (R515); and by stack the table reads of the last µs, as
time and bytes (R24). -/
structure Ct where
  blocks  : Nat
  matched : Nat
  vals    : Tbl Nat
  last    : Tbl (Nat × Nat)
  conds   : List Nat
  tx      : Tbl Nat
  rx      : Tbl Nat
  window  : Nat
  winAt   : Nat
  treads  : Tbl (List (Nat × Nat))
  deriving DecidableEq, Repr

/-! ### Keepers (spec/12) -/

/-- The Keeper states of R419. -/
inductive KRole where
  | worker | paired | solo | waiting | mirror
  deriving DecidableEq, Repr

/-- An entry of the suppression table (R424): the suspect's kind, subject and epoch, when it was reported last, the events held since,
and whether its report is kept until a member is heard (R417). -/
structure Suppress where
  kind  : Nat
  node  : Nat
  port  : Nat
  epoch : Nat
  at0   : Nat
  held  : Nat
  kept  : Bool
  deriving DecidableEq, Repr

/-- An entry of the suspect table (R425): identity and epoch, the other end of a link, the distinct reporters, when it was reported
first, when the probe LIGHT left, whether its verdict is out, and whether it was passed to the suspect's own group. -/
structure Suspect where
  kind    : Nat
  node    : Nat
  port    : Nat
  epoch   : Nat
  peer    : Nat
  sources : List Nat
  at0     : Nat
  probeAt : Option Nat
  verdict : Bool
  passed  : Bool
  deriving DecidableEq, Repr

/-- One change to the Keeper record (R418): a fog signal (its word 0, its reporters and the FOG_PUBLISH that waits for it), a
directory change (its subtype, handle and source), map entries with a version, or a piece of the record copied to a new mirror. -/
inductive Change where
  | fog (w0 : Word) (reporters : Nat) (cmd : Option Nat)
  | dir (sub : Nat) (handle : List Byte) (src : Nat)
  | map (version : Nat) (entries : List Byte)
  | piece (bytes : List Byte)
  deriving DecidableEq, Repr

/-- The KPR logic (R410 to R433): role, TERM, group, the other member, the member followed, GROUP_SIZE, ORPHAN and DORMANT; the counts
of messages and of publications, the map version; when the software watch was last restarted, LIGHTs were last sent and a JOIN was
last sent; when each member was last heard; each worker's latest answer, as its time and HEARS_OTHER, and the dormant workers; to
which member an answer with HEARS_OTHER = 0 went last (R420); the suppression and suspect tables; the fog signals acted on, as
(VERDICT, NODE, PORT, EPOCH); the record's fog signals and directory handles, and its revocations, each a handle with the nodes that have not
confirmed it (R78: complete when none is left); changes that wait for the mirror's acknowledgement by
their SEQ, and changes held in WAITING; the KEEPER_SET that waits for the copy; what Keeper software is to see: JOINs as (source,
port, body), completions of ORDERs, directory messages; and whether the adapter rejoins (R428). -/
structure Kpr where
  role    : KRole
  term    : Nat
  kgroup  : Nat
  other   : Option Nat
  active  : Option Nat
  size    : Nat
  orphan  : Bool
  dormant : Bool
  seq     : Nat
  fogSeq  : Nat
  version : Nat
  swAt    : Nat
  lightAt : Nat
  joinAt  : Nat
  heard   : Tbl Nat
  answers : Tbl (Nat × Bool)
  asleep  : List Nat
  said    : Option (Nat × Nat)
  supp    : List Suppress
  susp    : List Suspect
  acted   : List (Nat × Nat × Nat × Nat)
  fogs    : List (List Byte)
  dir     : List (List Byte)
  revs    : List (List Byte × List Nat)
  syncs   : List (Nat × Change)
  held    : List Change
  copier  : Option Nat
  joins   : List (Nat × Nat × List Byte)
  dones   : List (Nat × List Byte)
  notes   : List (Nat × List Byte)
  rejoin  : Bool
  deriving DecidableEq, Repr

/-! ### Start-up and the image (spec/13) -/

/-- A start in progress or past (R437): whether it followed a device reset, whether it is in lamp out, whether it is still running;
waves of arrays powered, engines still to power, ledger entries of this start as (KIND, UNIT, CAUSE, DETAIL), the measurements
M_IMAGE and M_LEDGER of R471 with the valid ledger entries behind the latter, and the node ID that JOINs request (R443, R492). -/
structure Start where
  warm    : Bool
  lampOut : Bool
  running : Bool
  waves   : List Nat
  engines : List Nat
  entries : List (Nat × Nat × Nat × Nat)
  mImage  : List Byte
  mLedger : List Byte
  nLedger : Nat
  request : Nat
  deriving DecidableEq, Repr

/-- The staging area beside SEC_STAGE (R453 to R461): TOTAL, what is present (byte ranges from the host, chunks of a distribution), the
digest D verified, the IMAGE_COMMIT that waits, whether the image is committed without an ORDER (R459); the manifest,
the node it came from and the MGT_ONLY port it came by; when a chunk last came or a REQUEST was last sent, and the REQUESTs sent; at a
Keeper, the IMAGE_DISTRIBUTE in progress, its manifest, when the last chunk was sent, and the workers that verified or rejected; and at
a neighbour the ORIGIN of the manifest last sent on through a port (R459). -/
structure Stg where
  total   : Nat
  runs    : List (Nat × Nat)
  got     : List Nat
  digest  : List Byte
  commit  : Option Nat
  auto    : Bool
  man     : List Byte
  origin  : Nat
  port    : Option Nat
  lastAt  : Nat
  asks    : Nat
  dist    : Option Nat
  distMan : List Byte
  sentAt  : Nat
  good    : List Nat
  bad     : List Nat
  relays  : Tbl Nat
  deriving DecidableEq, Repr

/-! ### Supplies, clocks and heat (spec/14, spec/16) -/

/-- Since when MAIN_PG has been high (R526); the dies that warned and have not cooled, those still at or above WARN_AT, and the halves
whose array clocks are halved (R488); the
reference clocks lost, 0 the 100 MHz and 1 the optical (R485); a start that waits for the dies to cool, and whether it is a device
reset (R489, R528); and TRIP# (R530). -/
structure Pwr where
  pgAt    : Option Nat
  hot     : List Nat
  atWarn  : List Nat
  slow    : List Nat
  lost    : List Nat
  waiting : Option Bool
  trip    : Bool
  deriving DecidableEq, Repr

/-- The faults of a step. There is none: the spec gives every command of its table an effect, and a block has no exception entry. -/
inductive Fault
  deriving DecidableEq, Repr

/-- The refusals of a step. -/
inductive Refusal where
  /-- Raised by exec for a command that has no meaning yet; safe, since nothing is claimed of it. No command is left without one. -/
  | notModelled (mnemonic : String)
  deriving DecidableEq, Repr

/-- The whole state of the block. `pending` the commands that wait, first in first out; `now` local time in ns (R7); `free` how many
free choices have been drawn; `egress` what has left the block, in order; `regs` the register file by register, then index × 256 +
second index; `parts` partitions, `dmap` the domain address map and `node` the node ID (spec/12); `doms` power domains; `waiting` the
work that waits for domains or migrations, with what it waits for (R482, R103). -/
structure State where
  pending : List Instr
  now     : Nat
  free    : Nat
  egress  : List Egress
  regs    : Tbl (Tbl Word)
  chip    : Chip
  nv      : Nv
  pool    : Pool
  xl      : Xl
  io      : Io
  qm      : Qm
  tr      : Tr
  sw      : Sw
  eth     : Tbl EthPort
  arr     : Arr
  col     : Col
  sec     : Sec
  parts   : Tbl Part
  dmap    : Tbl MapEntry
  node    : Option Nat
  faultqs : Tbl FaultQ
  doms    : Tbl Domain
  cnt     : Ct
  kpr     : Kpr
  start   : Start
  stg     : Stg
  pwr     : Pwr
  waiting : List (List Nat × Work)
  deriving DecidableEq, Repr

/-! ### Reset -/

/-- The KPR logic before any start: a WORKER of group 0 that follows nobody (R433). -/
def Kpr.reset : Kpr :=
  { role := .worker, term := 0, kgroup := 0, other := none, active := none, size := 0, orphan := false, dormant := false, seq := 0
    fogSeq := 0, version := 0, swAt := 0, lightAt := 0, joinAt := 0, heard := [], answers := [], asleep := [], said := none, supp := []
    susp := [], acted := [], fogs := [], dir := [], revs := [], syncs := [], held := [], copier := none, joins := [], dones := [], notes := []
    rejoin := false }

/-- The staging area IDLE (R453). -/
def Stg.reset : Stg :=
  { total := 0, runs := [], got := [], digest := [], commit := none, auto := false, man := [], origin := 0, port := none, lastAt := 0, asks := 0
    dist := none, distMan := [], sentAt := 0, good := [], bad := [], relays := [] }

/-- No start yet; the measurements of an adapter without an image are zero (R471). -/
def Start.reset : Start :=
  { warm := false, lampOut := false, running := false, waves := [], engines := [], entries := []
    mImage := List.replicate 64 0, mLedger := List.replicate 64 0, nLedger := 0, request := 0 }

/-- A configuration memory without a good counter record, ledger entry or image (R436). -/
def Nv.blank : Nv :=
  { epoch := 0, inc := 0, starts := 0, floor := 0, lastNode := none, seq := 0, ledger := [], image := [], trust := [], rtc := 0, rtcAt := 0 }

/-- The block right after reset: before the first start, with every register at its reset value (R12), no supply good yet, every domain
OFF, every table, queue and memory empty, and an erased configuration memory. The stepping is B0 (log entries 1, 2). -/
def State.reset : State :=
  { pending := [], now := 0, free := 0, egress := [], regs := []
    chip := { stepping := 0xB0, variant := 0, pop := 0 }
    nv := Nv.blank
    pool := { mem := [], poison := [], ce := [], blks := [], gmap := [], bias := [], stackTbl := [], migr := [], freeing := [], xtsKeys := [], bad := [], wrote := [] }
    xl := { tables := [], rgn := [], rgnSeq := 0 }
    io := { links := [], reads := [], builds := [], places := [], nextId := 1, stops := [], late := [] }
    qm := { qps := [], rings := [], admqs := [], recs := [], devHalt := false }
    tr := { msgs := [], nextMsg := [], flights := [], rds := [], redirs := [], inbox := [] }
    sw := { inq := [], ejected := [], outs := [], ports := [], engines := [], rot := [], pacer := [], pacerAt := []
            inj := { level := 8448, at0 := 0 }, shape := [], ethShape := [], police := [], sampleAt := 0 }
    eth := []
    arr := { failed := [], amap := [], tested := [], turn := [] }
    col := { groups := [], plans := [], rtt := [] }
    sec := { keks := [], tkeys := [], tx := [], xts := [], cores := [], miss := [] }
    parts := [], dmap := [], node := none, faultqs := [], doms := []
    cnt := { blocks := 0, matched := 0, vals := [], last := [], conds := [], tx := [], rx := [], window := 100, winAt := 0, treads := [] }
    kpr := Kpr.reset
    start := Start.reset
    stg := Stg.reset
    pwr := { pgAt := none, hot := [], atWarn := [], slow := [], lost := [], waiting := none, trip := false }
    waiting := [] }

end Sys2Proof.Machine
end

