-- ==== Sys2Proof/Machine/Codeword.lean ====
section
/-!
DEFINITION. Codewords of a fabric link (R256 to R260, R263, spec/08_fabric_links_and_routing.md): the control field with its FCRC, the
scrambler, the RS(544,514) code, the lanes, and the flits of a packet.
-/
namespace Sys2Proof.Machine

/-! ### The control field (R257, R258) -/

/-- FCRC of a codeword (R257): CRC-6 with x^6 + x + 1 over the slot bits and bits [19:6] of the control field, bytes from their highest
bit. -/
def crc6Bit (r : Nat) (b : Bool) : Nat :=
  let top := r / 32 % 2
  let r := r * 2 % 64
  if (top == 1) != b then Nat.xor r 3 else r

def crc6Bits (r n : Nat) (v : Nat) : Nat := ((List.range n).reverse).foldl (fun r i => crc6Bit r (v.testBit i)) r

def cwFcrc (c : Codeword) : Nat := crc6Bits ((c.slots.flatMap id).foldl (fun r b => crc6Bits r 8 b.toNat) 0) 14 (c.ctl / 64)

/-- Whether a received codeword is uncorrectable (R258). (log entry 57) -/
def cwBad (c : Codeword) : Bool := c.failed || cwFcrc c != c.ctl % 64 || c.slots.length != 10

/-- An IDLE flit (R260). -/
def TxSlot.idle : TxSlot := ⟨List.replicate 64 0, false, false, false⟩

/-- The codeword of ten filled slots (R257): FIRST_HEAD, ATTR by slot, and the FCRC, inverted where a header's buffer ECC failed (R263). -/
def codewordOf (l : List TxSlot) : Codeword :=
  let first := (l.findIdx? (·.head)).getD 15
  let attr := ((List.range 10).map (fun i => b2n ((l[i]?).any (·.attr)) * 2 ^ (6 + i))).foldl (· + ·) 0
  let ctl := first * 2 ^ 16 + attr
  let c : Codeword := { slots := l.map (·.bytes), ctl := ctl, corrected := false, failed := false }
  let f := cwFcrc c
  { c with ctl := ctl + (if l.any (·.bad) then 63 - f else f) }

/-! ### Scrambler, code and lanes (R256). (log entry 123) -/

/-- The 5,140 data bits: the slots' bytes in order, then the control field, each from its lowest bit. -/
def codewordBits (c : Codeword) : List Bool :=
  c.slots.flatten.flatMap (fun b => (List.range 8).map b.toNat.testBit) ++ (List.range 20).map c.ctl.testBit

/-- The scrambler x^58 + x^39 + 1: each bit is added to those sent 39 and 58 bits before it. -/
def scramble : List Bool → List Bool → List Bool
  | _, [] => []
  | past, b :: bs =>
    let o := b != ((past.getD 38 false) != (past.getD 57 false))
    o :: scramble ((o :: past).take 58) bs

/-- Multiplication in GF(2^10), with x^10 + x^3 + 1. -/
def gfMul (a b : Nat) : Nat :=
  (List.range 10).foldl (fun r i =>
    let d := if 1024 ≤ 2 * r then Nat.xor (2 * r) 0x409 else 2 * r
    if b.testBit (9 - i) then Nat.xor d a else d) 0

def gfPow (n : Nat) : Nat := (List.range n).foldl (fun r _ => gfMul r 2) 1

/-- The generator, the product of x + α^j for j below 30, without its leading 1, highest power first. -/
def rsGen : List Nat :=
  ((List.range 30).foldl (fun (g : List Nat) j => List.zipWith Nat.xor (g ++ [0]) (0 :: g.map (gfMul (gfPow j)))) [1]).drop 1

/-- The 30 check symbols of a message. -/
def rsParity (g : List Nat) (m : List Nat) : List Nat :=
  m.foldl (fun r x =>
    let f := Nat.xor x (r.headD 0)
    List.zipWith Nat.xor (r.drop 1 ++ [0]) (g.map (gfMul f))) (List.replicate 30 0)

/-- The symbols of the four lanes of a codeword: scrambled, in symbols of ten bits, encoded, and dealt in turn. -/
def codewordLanes (past : List Bool) (c : Codeword) : List (List Nat) :=
  let bs := scramble past (codewordBits c)
  let m := (List.range 514).map (fun i => ((List.range 10).map (fun j => b2n (bs.getD (10 * i + j) false) * 2 ^ j)).foldl (· + ·) 0)
  let w := m ++ rsParity rsGen m
  (List.range 4).map (fun k => (List.range 136).map (fun i => w.getD (4 * i + k) 0))

/-! ### The flits of a packet (R259, R261) -/

/-- The slots of a packet: ATTR of the header tells the pool, of another flit whether it is poisoned. -/
def packetSlots (p : Packet) (marks : List Nat) (reserved bad : Bool) : List TxSlot :=
  let b := p.bytes
  (List.range p.flits).map (fun i => ⟨slice b (64 * i) 64, if i = 0 then reserved else marks.contains i, i == 0, bad && i == 0⟩)

/-- The twenty 20-bit counters of a CREDIT or AUDIT flit (R260). -/
def flitCounters (b : List Byte) : List Nat := (List.range 20).map (fun i => leNat (slice b 8 50) / 2 ^ (20 * i) % 2 ^ 20)

end Sys2Proof.Machine
end

