-- ==== Sys2Proof/Machine/Tables.lean ====
section
/-!
DEFINITION. Reading and writing a sparse table in its one canonical form.
-/
namespace Sys2Proof.Machine

/-- What index i holds; d where nothing is listed. -/
def Tbl.get {α : Type} (d : α) : Tbl α → Nat → α
  | [], _ => d
  | (k, v) :: t, i => if k = i then v else Tbl.get d t i

/-- Put an entry at its place in the rising order. -/
def Tbl.ins {α : Type} (i : Nat) (v : α) : Tbl α → Tbl α
  | [] => [(i, v)]
  | (k, w) :: t => if i < k then (i, v) :: (k, w) :: t else (k, w) :: Tbl.ins i v t

/-- Drop what index i holds. -/
def Tbl.del {α : Type} (t : Tbl α) (i : Nat) : Tbl α := t.filter (fun p => p.1 != i)

/-- Write index i; writing the default removes the entry. -/
def Tbl.set {α : Type} [DecidableEq α] (d : α) (t : Tbl α) (i : Nat) (v : α) : Tbl α :=
  if v = d then Tbl.del t i else Tbl.ins i v (Tbl.del t i)

/-- Whether index i is listed. -/
def Tbl.has {α : Type} (t : Tbl α) (i : Nat) : Bool := t.any (fun p => p.1 == i)

/-- The listed entry, if any. -/
def Tbl.find {α : Type} (t : Tbl α) (i : Nat) : Option α := (t.find? (fun p => p.1 == i)).map (·.2)

/-- Write index i of a table without a default. -/
def Tbl.put {α : Type} (t : Tbl α) (i : Nat) (v : α) : Tbl α := Tbl.ins i v (Tbl.del t i)

/-- Apply f to every listed value. -/
def Tbl.map {α : Type} (f : Nat → α → α) (t : Tbl α) : Tbl α := t.map (fun p => (p.1, f p.1 p.2))

/-- The first index not listed, from a start. -/
def Tbl.fresh {α : Type} (t : Tbl α) (i : Nat) : Nat := t.foldl (fun m p => max m (p.1 + 1)) i

/-- The canonical form: indices strictly rising. -/
def Tbl.rising {α : Type} : Tbl α → Bool
  | [] => true
  | [_] => true
  | (a, _) :: (b, y) :: t => decide (a < b) && Tbl.rising ((b, y) :: t)

/-- The canonical form of a table with a default: rising, and no entry equal to the default. -/
def Tbl.wf {α : Type} [DecidableEq α] (d : α) (t : Tbl α) : Bool :=
  Tbl.rising t && t.all (fun p => decide (p.2 ≠ d))

end Sys2Proof.Machine
end

