-- ==== Sys2Proof/Machine/Ops.lean ====
section
/-!
DEFINITION. The shared operations over the state: time, registers and their access codes (R9), counters, what leaves the block,
variant sizes (R4), partitions and their quotas, local addresses and where they are presented (R38, R119), Grotto memory, and
the free values.
-/
namespace Sys2Proof.Machine

/-! ### Time and free values -/

/-- Draw the next free choice below n (log entry 3). -/
def State.pick (s : State) (n : Nat) : Nat × State := (Config.freeNat s.free % n, { s with free := s.free + 1 })

/-- One of a list, chosen freely; the first-order default where the list is empty. -/
def State.pickFrom (s : State) (l : List Nat) (d : Nat) : Nat × State :=
  (l.getD (Config.freeNat s.free % l.length) d, { s with free := s.free + 1 })

/-- The index of CNT_BW and the bytes that a write on a link sends (R515). -/
def Egress.linkBytes : Egress → Option (Nat × Nat)
  | .linkWrite loc bs => some (if loc.link = 0 then 162 else 145 + loc.link, bs.length)
  | .msix l _ _ _ _ => some (if l = 0 then 162 else 145 + l, 4)
  | _ => none

/-- What leaves the block, appended in order; the payload of a link's writes counts in its bandwidth window (R515). -/
def State.emit (s : State) (e : Egress) : State :=
  let cnt := match e.linkBytes with
    | some (j, n) => { s.cnt with tx := Tbl.set 0 s.cnt.tx j (Tbl.get 0 s.cnt.tx j + n) }
    | none => s.cnt
  { s with egress := s.egress ++ [e], cnt := cnt }

/-- A fresh identifier of the model's own bookkeeping. -/
def State.fresh (s : State) : Nat × State := (s.io.nextId, { s with io := { s.io with nextId := s.io.nextId + 1 } })

/-! ### Registers (R9, R11, R12) -/

/-- A register's reset value, from its fields; the weights of queues 0 to 3 read zero (R252). -/
def RegName.reset (r : RegName) (_i j : Nat) : Word :=
  if r = .SCH_WEIGHTS ∧ j = 0 then word 0x1010101000000000
  else word ((r.fields.map (fun f => f.reset * 2 ^ f.lo)).foldl (· + ·) 0)

/-- What the register file holds for a register. -/
def State.reg (s : State) (r : RegName) (i : Nat := 0) (j : Nat := 0) : Word :=
  Tbl.get (r.reset i j) (Tbl.get [] s.regs r.ctorIdx) (i * 256 + j)

/-- Put a value into the register file. -/
def State.setReg (s : State) (r : RegName) (i j : Nat) (w : Word) : State :=
  { s with regs := Tbl.set [] s.regs r.ctorIdx (Tbl.set (r.reset i j) (Tbl.get [] s.regs r.ctorIdx) (i * 256 + j) w) }

/-- A field's value. -/
def State.fld (s : State) (f : Fld) (i : Nat := 0) (j : Nat := 0) : Nat := bits (s.reg f.reg i j) f.lo f.width

/-- A one-bit field. -/
def State.flag (s : State) (f : Fld) (i : Nat := 0) (j : Nat := 0) : Bool := s.fld f i j == 1

/-- Set a field. -/
def State.setFld (s : State) (f : Fld) (v : Nat) (i : Nat := 0) (j : Nat := 0) : State :=
  s.setReg f.reg i j (setBits (s.reg f.reg i j) f.lo f.width v)

/-- Count one event in a field that wraps. -/
def State.count (s : State) (f : Fld) (i : Nat := 0) (j : Nat := 0) (n : Nat := 1) : State :=
  s.setFld f (s.fld f i j + n) i j

/-- Count one event in a field that saturates. -/
def State.countSat (s : State) (f : Fld) (i : Nat := 0) (j : Nat := 0) (n : Nat := 1) : State :=
  s.setFld f (satAdd (s.fld f i j) n f.width) i j

/-- What a write of v leaves in one field that held old (R9). -/
def Acc.after (a : Acc) (old v : Nat) : Nat :=
  match a with
  | .rw => v
  | .w1c => old - Nat.land old v
  | .w1s => Nat.lor old v
  | .ro => old
  | .rov => old
  | .wo => old

/-- What a write of a word leaves in a register, field by field (R9); reserved bits stay zero (R11). -/
def RegName.written (r : RegName) (old v : Word) : Word :=
  r.fields.foldl (fun w f => setBits w f.lo f.width (f.acc.after (bits old f.lo f.width) (bits v f.lo f.width))) old

/-- A plain write under the access codes. -/
def State.writeReg (s : State) (r : RegName) (i j : Nat) (v : Word) : State :=
  s.setReg r i j (r.written (s.reg r i j) v)

/-- Whether STAGE does not read OUT_OF_SERVICE: then every fitted register serves (R35). -/
def State.serving (s : State) : Bool := s.fld F.LAMP_STATUS_STAGE != 8

/-- What a write does to a register that serves only in service (R35). -/
def State.ifServing (s : State) (f : State → State) : State := if s.serving then f s else s

/-- The partition BAR's place in the model's register address space: 2^32 + p × 1 MiB; and that of BAR4 of function p:
2^33 + p × 64 KiB (R114). (log entry 5) -/
def partBar : Nat := 2 ^ 32
def vecBar : Nat := 2 ^ 33

/-- The indices under which a register answers an offset, if it does. -/
def RegName.locate (r : RegName) (a : Nat) : Option (Nat × Nat) :=
  let p := r.place
  if a < p.base then none
  else
    let o := a - p.base
    let i := if p.stride = 0 then 0 else min (o / p.stride) (p.count - 1)
    let o2 := o - i * p.stride
    let j := if p.stride2 = 0 then 0 else o2 / p.stride2
    if i < p.count ∧ j < p.count2 ∧ i * p.stride + j * p.stride2 = o then some (i, j) else none

/-- The register at an offset. -/
def regAt (a : Nat) : Option (RegName × Nat × Nat) :=
  RegName.all.findSome? (fun r => (r.locate a).map (fun x => (r, x.1, x.2)))

/-! ### The variant (R1 to R5, R17 to R20) -/

/-- The half-scale variant. -/
def State.half (s : State) : Bool := s.chip.variant == 2

/-- A size that the ZQX-9064 halves (R4). -/
def State.sized (s : State) (n : Nat) : Nat := if s.half then n / 2 else n

def State.nDies (s : State) : Nat := s.sized 2
def State.nStacks (s : State) : Nat := s.sized 20
def State.nPorts (s : State) : Nat := s.sized 128
def State.nEngines (s : State) : Nat := s.sized 32
def State.nAcc (s : State) : Nat := s.sized 16
def State.nEth (s : State) : Nat := s.sized 8

/-- Queue pairs and completion rings (R139): those of a ZQX-9064 are numbered 0 to 32,767. (log entry 139) -/
def State.nQps (s : State) : Nat := s.sized 65536
def State.nRings (s : State) : Nat := s.sized 65536

/-- The die a table key selects (R18, R20). -/
def State.dieOf (s : State) (key : Nat) : Nat := if s.half then 0 else key % 2

/-- The die of a stack, of an accelerator port, of a fabric port (R17). -/
def stackDie (k : Nat) : Nat := if k < 10 then 0 else 1
def accDie (n : Nat) : Nat := if n < 8 then 0 else 1
def portDie (p : Nat) : Nat := if p < 64 then 0 else 1

/-! ### Partitions and quotas (R398) -/

def Part.none : Part := ⟨.free, 0, Desc.zero, false, 0, 0, []⟩
def State.part (s : State) (p : Nat) : Part := Tbl.get Part.none s.parts p
def State.setPart (s : State) (p : Nat) (x : Part) : State := { s with parts := Tbl.set Part.none s.parts p x }
def State.modPart (s : State) (p : Nat) (f : Part → Part) : State := s.setPart p (f (s.part p))

def Part.qps (x : Part) : Nat := bits x.quota.w0 32 32
def Part.rings (x : Part) : Nat := bits x.quota.w0 0 32
def Part.regions (x : Part) : Nat := bits x.quota.w1 32 32
def Part.pagesWanted (x : Part) : Nat := bits x.quota.w1 0 32
def Part.blocks (x : Part) : Nat := bits x.quota.w2 32 32
def Part.beaconRate (x : Part) : Nat := bits x.quota.w2 0 32
def Part.groups (x : Part) : Nat := bits x.quota.w3 48 16
def Part.plans (x : Part) : Nat := bits x.quota.w3 32 16
def Part.arrays (x : Part) : Nat := bits x.quota.w3 16 16
def Part.calSlots (x : Part) : Nat := bits x.quota.w3 0 16
def Part.queues (x : Part) : Nat := bits x.quota.w4 0 64
def Part.accAllow (x : Part) : Nat := bits x.quota.w5 48 16
def Part.expose (x : Part) : Nat := bits x.quota.w5 32 16
def Part.cntUser (x : Part) : Bool := bit x.quota.w5 4
def Part.fabricEnc (x : Part) : Bool := bit x.quota.w5 3
def Part.hostAllow (x : Part) : Bool := bit x.quota.w5 2
def Part.galleryAllow (x : Part) : Bool := bit x.quota.w5 1

/-- A partition that exists (R539): neither FREE nor DESTROYING. -/
def Part.lives (x : Part) : Bool := x.state == .active || x.state == .resetting

/-! ### Links (R38, R119, R120) -/

/-- A link that is down, its configuration space as a reset leaves it: the default completion timeout is 10 ms (R131). -/
def Link.down : Link := ⟨false, false, false, false, false, 0, 0, 0, 0, false, 0, false, 0, 0, 0, 0, 10000000, false, [], 0⟩
def State.link (s : State) (l : Nat) : Link := Tbl.get Link.down s.io.links l
def State.setLink (s : State) (l : Nat) (x : Link) : State :=
  { s with io := { s.io with links := Tbl.set Link.down s.io.links l x } }
def State.modLink (s : State) (l : Nat) (f : Link → Link) : State := s.setLink l (f (s.link l))

/-- An MSI-X vector is masked until software sets it up. (log entry 125) -/
def Vec.none : Vec := ⟨0, 0, true, false⟩
def Link.vec (x : Link) (fn v : Nat) : Vec := Tbl.get Vec.none x.vecs (fn * 2048 + v)
def Link.setVec (x : Link) (fn v : Nat) (y : Vec) : Link := { x with vecs := Tbl.set Vec.none x.vecs (fn * 2048 + v) y }

/-- An MSI-X message of function fn of a link (R114, R167): none leaves on a lost link (R134), and one whose vector is masked stays pending. -/
def State.sendMsix (s : State) (l fn v : Nat) : State :=
  let y := (s.link l).vec fn v
  if (s.link l).lost then s
  else if y.masked then s.modLink l (fun x => x.setVec fn v { y with pending := true })
  else s.emit (.msix l fn v y.addr y.data)

/-- The window of a local address (R38): 0 accelerator, 1 Gallery, 2 host, 3 reserved. -/
def winOf (a : Nat) : Nat := bitsN a 48 2

/-- The link behind a local address: none for the Gallery and reserved windows. -/
def linkOf (a : Nat) : Option Nat :=
  if winOf a = 0 then some (1 + bitsN a 44 4) else if winOf a = 2 then some 0 else none

/-- The address presented on the link for a local address (R119). -/
def State.presented (s : State) (a : Nat) : Nat :=
  if winOf a = 0 then s.fld F.ACC_PORT_CFG_ADDR_BASE (bitsN a 44 4) * 2 ^ 44 + bitsN a 0 44 else bitsN a 0 48

/-- Where a local address is presented, for a partition (R119, R120). -/
def State.locOf (s : State) (part a : Nat) : Loc := ⟨(linkOf a).getD 0, part, s.presented a⟩

/-- Whether a link can serve a partition's requests: the far side has enabled its VF (R120). -/
def State.vfOk (s : State) (l part : Nat) : Bool := decide (part ≤ (s.link l).numVfs)

/-- Whether a partition is exposed on a link (R117). -/
def State.exposed (s : State) (l part : Nat) : Bool :=
  (s.part part).state != .free && (l == 0 || (s.part part).expose.testBit (l - 1))

/-! ### Grotto memory (R84, R86, R87) -/

def Blk.free : Blk := ⟨.free, .none⟩
def GBlk.none : GBlk := ⟨false, .free, 0, false, 0, 0, 0, 0⟩
def Stack.none : Stack := ⟨.absent, 0, 0, 0⟩
def Bias.device : Bias := ⟨false, 0⟩

/-- The physical number of a block, and the physical address of a byte of it. -/
def physBlk (stack block : Nat) : Nat := stack * 65536 + block
def blkBytes : Nat := 2097152

def State.blk (s : State) (b : Nat) : Blk := Tbl.get Blk.free s.pool.blks b
def State.setBlk (s : State) (b : Nat) (x : Blk) : State :=
  { s with pool := { s.pool with blks := Tbl.set Blk.free s.pool.blks b x } }
def State.gblk (s : State) (n : Nat) : GBlk := Tbl.get GBlk.none s.pool.gmap n
def State.setGblk (s : State) (n : Nat) (x : GBlk) : State :=
  { s with pool := { s.pool with gmap := Tbl.set GBlk.none s.pool.gmap n x } }
def State.stack (s : State) (k : Nat) : Stack := Tbl.get Stack.none s.pool.stackTbl k
def State.setStack (s : State) (k : Nat) (x : Stack) : State :=
  { s with pool := { s.pool with stackTbl := Tbl.set Stack.none s.pool.stackTbl k x } }
def State.biasOf (s : State) (page : Nat) : Bias := Tbl.get Bias.device s.pool.bias page

/-- A byte of the stacks; an unlisted byte reads zero (R84, R89). (log entry 19) -/
def State.memByte (s : State) (a : Nat) : Byte := Tbl.get 0 s.pool.mem a

/-- Store a byte string at a physical address. -/
def memPut : List Host.Cell → Nat → List Byte → List Host.Cell
  | m, _, [] => m
  | m, a, b :: bs => memPut (Tbl.set 0 m a b) (a + 1) bs

def State.memWrite (s : State) (a : Nat) (bs : List Byte) : State :=
  { s with pool := { s.pool with mem := memPut s.pool.mem a bs } }

def State.memRead (s : State) (a n : Nat) : List Byte := (List.range n).map (fun i => s.memByte (a + i))

/-- Whether a Gallery address may be reached for a partition (R87): a translation that yields a LOST block is rejected, while a request that
reaches one through an open region is answered as for poison (R109). -/
def State.galleryOk (s : State) (part g : Nat) : Bool :=
  let b := s.gblk (g / blkBytes)
  decide (g < 2 ^ 42) && b.alloc && b.state == .gallery && b.owner == part

/-- The physical address behind a Gallery address through the block map (R86). -/
def State.galleryPhys (s : State) (g : Nat) : Nat :=
  let b := s.gblk (g / blkBytes)
  physBlk b.stack b.block * blkBytes + g % blkBytes

/-- Whether a stack block is LOST: it is, or its stack is, on which every block is LOST (R104, R109). -/
def State.blkLost (s : State) (b : Nat) : Bool := (s.blk b).state == .lost || (s.stack (b / 65536)).state == .lost

/-- The block that holds a use, if any. -/
def State.useBlk (s : State) (u : Use) : Option Nat :=
  (s.pool.blks.find? (fun p => p.2.use == u && p.2.state == .internal)).map (·.1)

/-- The physical address of a byte of an internal use made of 2 MiB blocks numbered by `u`. -/
def State.usePhys (s : State) (u : Nat → Use) (off : Nat) : Nat :=
  ((s.useBlk (u (off / blkBytes))).getD 0) * blkBytes + off % blkBytes

/-! ### Node ID and the domain map (R37, R414) -/

def MapEntry.none : MapEntry := ⟨0, false, false, 0, 0, 0, 0, 0, 0⟩
def State.mapEntry (s : State) (n : Nat) : MapEntry := Tbl.get MapEntry.none s.dmap n

/-- Whether a node can be reached: this node itself, or one its map holds and does not mark dead (R201). -/
def State.reachable (s : State) (n : Nat) : Bool :=
  s.node == some n || ((s.mapEntry n).kind != 0 && !(s.mapEntry n).dead)

/-- Whether a peer is reached over Ethernet. -/
def State.overEth (s : State) (n : Nat) : Bool := s.node != some n && (s.mapEntry n).kind == 2

/-- PSHIFT toward a node (R183). -/
def State.pshiftTo (s : State) (n : Nat) : Nat := if s.overEth n then (s.mapEntry n).pshift else 12

/-! ### Power domains -/

/-- A domain as it is before anything powers it (R478). -/
def Domain.off : Domain := ⟨.off, none, 0, 0, true, 0, 0⟩
def State.dom (s : State) (d : Nat) : Domain := Tbl.get Domain.off s.doms d

end Sys2Proof.Machine
end

