-- ==== Sys2Proof/Machine/Count.lean ====
section
/-!
DEFINITION. The counters as events reach them (R508 to R511, spec/15_counters_and_sampling.md).
-/
namespace Sys2Proof.Machine

/-- The counters whose CNT_CTRL is not at its reset value, with it. -/
def State.counters (s : State) : List (Nat × Word) := (Tbl.get [] s.regs RegName.CNT_CTRL.ctorIdx).map (fun e => (e.1 / 256, e.2))

/-- Whether the bank counts (R514). -/
def State.counting (s : State) : Bool :=
  !s.flag F.CNT_STOP_STOPPED && !(s.flag F.CNT_STOP_ARMED && decide (s.fld F.CNT_STOP_AT ≤ s.now))

/-- Whether a counter counts an occurrence event of a unit (R508 to R510): ENABLE, no CHAIN (but on counter 0), EVENT, UNIT, and for
an owned counter the owner's own events. -/
def counts (c : Nat × Word) (code unit : Nat) : Bool :=
  bit c.2 31 && (!bit c.2 29 || c.1 == 0) && bits c.2 0 8 == code && bits c.2 8 8 == unit
    && (bits c.2 22 6 == 0 || (decide (code < 0x20) && bits c.2 22 6 == unit))

/-- A counter takes n occurrences: EDGE adds them, LEVEL 1 for the ns, and at most 255 in one ns (R508). -/
def Ct.add (x : Ct) (now n : Nat) (c : Nat × Word) : Ct :=
  let l := Tbl.get (0, 0) x.last c.1
  let done := if l.1 = now then l.2 else 0
  let k := if bit c.2 30 then (if done = 0 then min n 1 else 0) else min n (255 - done)
  { x with vals := Tbl.set 0 x.vals c.1 (Tbl.get 0 x.vals c.1 + k), last := Tbl.set (0, 0) x.last c.1 (now, done + k) }

/-- n occurrences of an event reach the bank (R508). -/
def State.event (s : State) (code unit n : Nat) : State :=
  if s.counting && n != 0 then
    { s with cnt := (s.counters.filter (fun c => counts c code unit)).foldl (fun x c => x.add s.now n c) s.cnt }
  else s

/-- A partition reset clears the values and overflow bits of the counters the partition owns; `gone` its teardown, which also clears
ENABLE and OWNER (R510). -/
def State.ownedCounters (s : State) (p : Nat) (gone : Bool) : State :=
  ((s.counters.filter (fun c => p != 0 && bits c.2 22 6 == p)).map (·.1)).foldl (fun s n =>
    let s := { s with cnt := { s.cnt with vals := Tbl.del s.cnt.vals n } }
    let s := if n < 64 then s.setReg .CNT_OVF_LO 0 0 (setBits (s.reg .CNT_OVF_LO) n 1 0)
      else s.setReg .CNT_OVF_HI 0 0 (setBits (s.reg .CNT_OVF_HI) (n - 64) 1 0)
    if gone then (s.setFld F.CNT_CTRL_ENABLE 0 n).setFld F.CNT_CTRL_OWNER 0 n else s) s

/-- Bytes sent or received at an index of CNT_BW (R515). -/
def State.bwTx (s : State) (j n : Nat) : State := { s with cnt := { s.cnt with tx := Tbl.set 0 s.cnt.tx j (Tbl.get 0 s.cnt.tx j + n) } }
def State.bwRx (s : State) (j n : Nat) : State := { s with cnt := { s.cnt with rx := Tbl.set 0 s.cnt.rx j (Tbl.get 0 s.cnt.rx j + n) } }

/-- The index of a link in CNT_BW. -/
def bwLink (l : Nat) : Nat := if l = 0 then 162 else 145 + l

end Sys2Proof.Machine
end

