-- ==== Sys2Proof/Machine/Gate.lean ====
section
/-!
DEFINITION. Power domains as work meets them (R478 to R482, spec/14_power_resets_and_faults.md): which domains an access needs, and
the work that waits while they wake.
-/
namespace Sys2Proof.Machine

def State.setDom (s : State) (d : Nat) (x : Domain) : State := { s with doms := Tbl.set Domain.off s.doms d x }

/-- The domain numbers of R478. -/
def arrayDom (g : Nat) : Nat := g
def quadDom (q : Nat) : Nat := 16 + q
def stackDom (k : Nat) : Nat := 24 + k
def engineDom (e : Nat) : Nat := 44 + e
def portDom (n : Nat) : Nat := 76 + n

/-- The quadrant that holds a die's common logic (R479). -/
def commonDom (die : Nat) : Nat := quadDom (4 * die)

/-- The domains the variant fits (R478). -/
def State.domFitted (s : State) (d : Nat) : Bool :=
  if d < 16 then decide (d < s.sized 16) else if d < 24 then decide (d - 16 < s.sized 8) else if d < 44 then decide (d - 24 < s.nStacks)
  else if d < 76 then decide (d - 44 < s.nEngines) else decide (d < 84) && decide (d - 76 < s.sized 8)

/-- The die of a domain (R17). -/
def domDie (d : Nat) : Nat :=
  if d < 16 then d / 8 else if d < 24 then (d - 16) / 4 else if d < 44 then stackDie (d - 24) else if d < 76 then (d - 44) / 16 else (d - 76) / 4

/-- Begin to wake a domain that is OFF or in RETAIN, noting the source (R482, R486, PWR_DOMAIN). Nothing wakes while the adapter is out of
service (R35, R485, R489). -/
def State.wakeDom (s : State) (d src : Nat) : State :=
  let x := s.dom d
  if (x.state = .off ∨ x.state = .retain) ∧ s.fld F.LAMP_STATUS_STAGE ≠ 8 then
    let s := (s.count F.PWR_COUNT_COUNT (if x.state = .retain then 0 else 1)).event 0x51 d 1
    s.setDom d { x with state := .waking, idleAt := none, lastWake := src, wakeAt := s.now, fromOff := decide (x.state = .off) }
  else s

/-- Wake a domain the variant fits with the common logic it needs (R479, R486). -/
def State.wakeWith (s : State) (d src : Nat) : State := if s.domFitted d then (s.wakeDom d src).wakeDom (commonDom (domDie d)) src else s

/-- The domains of PWR_WAKE_SET (R506). -/
def State.wakeSet (s : State) : List Nat :=
  maskBits (s.reg .PWR_WAKE_SET_LO).toNat 64 ++ (maskBits (s.reg .PWR_WAKE_SET_HI).toNat 20).map (· + 64)

/-- A domain whose idle timer starts: CEILING and IDLE_TICKS as they stand now are what it goes by (R481). -/
def State.timed (s : State) (d : Nat) (x : Domain) : Domain :=
  { x with idleAt := some s.now, ceil := s.fld F.PWR_DOMAIN_CEILING d, ticks := s.fld F.PWR_DOMAIN_IDLE_TICKS d }

/-- Work reaches a domain: its idle timer stops and is reset (R481). -/
def State.touchDom (s : State) (d : Nat) : State := s.setDom d (s.timed d (s.dom d))

/-- What kept a domain busy has ended: its idle timer starts if it is ON (R481). (log entry 80) -/
def State.idleFrom (s : State) (d : Nat) : State := if (s.dom d).state = .on then s.touchDom d else s

/-- A pseudo-domain for a physical block under migration: accesses to it wait (R103). -/
def migrKey (b : Nat) : Nat := 1000 + b

/-- Whether something to be waited for is not there yet. A FAILED domain never comes; its work goes on and meets the failure. -/
def State.awaited (s : State) (d : Nat) : Bool :=
  if 1000 ≤ d then Tbl.has s.pool.migr (d - 1000) else decide ((s.dom d).state ≠ .on ∧ (s.dom d).state ≠ .failed)

/-- The physical blocks behind a local range in the Gallery window. -/
def State.physOf (s : State) (a len : Nat) : List Nat :=
  if winOf a = 1 then
    let g := bitsN a 0 48
    (List.range ((g + len - 1) / blkBytes - g / blkBytes + 1)).map (fun i =>
      let b := s.gblk (g / blkBytes + i)
      physBlk b.stack b.block)
  else []

/-- What an access to a local range needs: its stacks and the blocks not being migrated, or the port die of its link. (log entry 44) -/
def State.needsOf (s : State) (a len : Nat) : List Nat :=
  match winOf a with
  | 0 => [portDom (bitsN a 44 4 / 2)]
  | 1 => (s.physOf a len).flatMap (fun b => [stackDom (b / 65536), migrKey b])
  | 2 => [portDom 0]
  | _ => []

/-- The port die of a link (R17). -/
def linkDom (l : Nat) : Nat := if l = 0 then portDom 0 else portDom ((l - 1) / 2)

/-- The domains of a list with the common logic they need (R479). -/
def withCommon (ds : List Nat) : List Nat := ds ++ (ds.filter (fun d => decide (d < 1000))).map (fun d => commonDom (domDie d))

/-- Put work aside until the things it needs are there, waking the domains and the common logic they need (R479, R482). (log entry 85) -/
def State.hold (s : State) (ds : List Nat) (w : Work) : State :=
  let ds := ((withCommon (ds.filter s.awaited)).filter s.awaited).eraseDups
  let s := ds.foldl (fun s d => if d < 1000 then s.wakeDom d 6 else s) s
  { s with waiting := s.waiting ++ [(ds, w)] }

/-- Whether everything needed is there. -/
def State.ready (s : State) (ds : List Nat) : Bool := ds.all (fun d => !s.awaited d)

end Sys2Proof.Machine
end

