-- ==== Sys2Proof/Machine/Faults.lean ====
section
/-!
DEFINITION. Fault records and their queues (R496 to R500, spec/14_power_resets_and_faults.md): the Lamp-room queue (key 64) and
a partition's own queue (key p).
-/
namespace Sys2Proof.Machine

def FaultQ.none : FaultQ := ⟨.free, ⟨0, 0, 0⟩, Option.none, 6, 0, 0, 0, false, 0, [], false, 0, []⟩

/-- The Lamp-room queue: a ring of 1,024 records that is always there (R496). -/
def FaultQ.lamp : FaultQ := { FaultQ.none with state := .active, log2 := 10 }

def faultDefault (k : Nat) : FaultQ := if k = 64 then FaultQ.lamp else FaultQ.none
def State.faultq (s : State) (k : Nat) : FaultQ := Tbl.get (faultDefault k) s.faultqs k
def State.setFaultq (s : State) (k : Nat) (q : FaultQ) : State :=
  { s with faultqs := Tbl.set (faultDefault k) s.faultqs k q }

/-- PHASE of ring index i (R163). -/
def phaseOf (i log2 : Nat) : Nat := 1 - i / 2 ^ log2 % 2

/-- Whether slot i is released (R164). -/
def released (i head log2 : Nat) : Bool := decide (idxDiff i head < 2 ^ log2)

/-- A fault record's four words (R497). -/
def faultWords (q : FaultQ) (cls code gen part : Nat) (redirected : Bool) (now unit d0 d1 : Nat) : List Word :=
  [word (phaseOf q.tail q.log2 * 2 ^ 63 + cls % 16 * 2 ^ 56 + code % 256 * 2 ^ 48 + gen % 2 ^ 16 * 2 ^ 32 + part % 64 * 2 ^ 26
     + b2n redirected * 2 ^ 25 + q.tail % 2 ^ 16),
   word (now % 2 ^ 48 * 2 ^ 16 + unit % 2 ^ 16), word d0, word d1]

/-- An MSI-X message of the host-link PF. -/
def State.hostIrq (s : State) (v : Nat) : State := s.sendMsix 0 0 v

/-- The MSI-X message of a fault queue: the Lamp-room queue's on LAMP_FAULT_CFG.VECTOR of the host-link PF (R499). -/
def State.faultIrq (s : State) (k : Nat) (q : FaultQ) : State :=
  if k = 64 then s.hostIrq (s.fld F.LAMP_FAULT_CFG_VECTOR) else s.sendMsix q.loc.link q.loc.fn q.vector

/-- Write a record to the released slot at the tail (R499): words 1 to 3 first, word 0 behind them, as with SPLIT set. -/
def State.faultStore (s : State) (k : Nat) (ws : List Word) : State :=
  let q := s.faultq k
  let q' := { q with tail := (q.tail + 1) % 2 ^ 32, armed := false }
  let a := q.loc.addr + q.tail % 2 ^ q.log2 * 32
  let s := if k = 64 then s.setFaultq k { q' with slots := Tbl.put q.slots (q.tail % 1024) ws }
    else ((s.setFaultq k q').emit (.linkWrite { q.loc with addr := a + 8 } ((ws.drop 1).flatMap wordBytes))).emit
      (.linkWrite { q.loc with addr := a } ((ws.take 1).flatMap wordBytes))
  if q.armed then s.faultIrq k q else s

/-- A record that finds no released slot: tallied by class, and LOST counts it (R500). -/
def State.faultTally (s : State) (k cls : Nat) : State :=
  let q := s.faultq k
  s.setFaultq k { q with tally := Tbl.set 0 q.tally cls (satAdd (Tbl.get 0 q.tally cls) 1 16), lost := q.lost + 1, owed := true }

/-- Write a record to queue k, or tally it. PART_GEN is the generation of the partition that PART names, 0 in a device record (R497). (log entry 76) -/
def State.faultPut (s : State) (k cls code part : Nat) (redirected : Bool) (unit d0 d1 : Nat) : State :=
  let q := s.faultq k
  if q.owed || !released q.tail q.head q.log2 then s.faultTally k cls
  else s.faultStore k (faultWords q cls code (s.part part).gen part redirected s.now unit d0 d1)

/-- A device record, to the Lamp-room queue (R498, queue L). -/
def State.faultL (s : State) (cls code unit d0 d1 : Nat) : State := s.faultPut 64 cls code 0 false unit d0 d1

/-- A partition's record (R498, queue P), redirected to the Lamp-room queue in the three cases of R500. -/
def State.faultP (s : State) (part cls code unit d0 d1 : Nat) (lostLink : Option Nat := none) : State :=
  let q := s.faultq part
  if q.state == .active && lostLink != some q.loc.link then s.faultPut part cls code part false unit d0 d1
  else s.faultPut 64 cls code part true unit d0 d1

/-- The OVERFLOW record that comes first once a slot is released (R500). -/
def State.faultOwed (s : State) (k : Nat) : State :=
  let q := s.faultq k
  if q.owed && released q.tail q.head q.log2 then
    let d (i : Nat) := Tbl.get 0 q.tally i
    let s := s.setFaultq k { q with tally := [], owed := false }
    s.faultStore k (faultWords q 0xF 0xFF (s.part (if k = 64 then 0 else k)).gen (if k = 64 then 0 else k) false s.now 0
      (d 0 + d 1 * 2 ^ 16 + d 2 * 2 ^ 32 + d 3 * 2 ^ 48) (d 4 + d 5 * 2 ^ 16 + d 6 * 2 ^ 32 + d 7 * 2 ^ 48))
  else s

/-- A new head for a fault queue, as a completion-ring doorbell (R149, R150, R499): dropped when it is ahead of the tail or
behind the head; otherwise slots are released, an owed OVERFLOW record is written, and ARM arms the interrupt (R167). -/
def State.faultHead (s : State) (k head : Nat) (arm : Bool) : State :=
  let q := s.faultq k
  if idxDiff q.tail q.head < idxDiff head q.head then s.countSat F.QMG_BAD_DOORBELL_COUNT
  else
    let s := (s.setFaultq k { q with head := head, armed := q.armed || arm }).faultOwed k
    let q := s.faultq k
    if arm && q.armed && q.tail != q.head then (s.setFaultq k { q with armed := false }).faultIrq k q else s

end Sys2Proof.Machine
end

