-- ==== Sys2Proof/Machine/Queues.lean ====
section
/-!
DEFINITION. Queue pairs, completion rings, acceptance records and admin queues (spec/05_queues_and_descriptors.md): completion
entries (R158 to R169), the end of a descriptor (R160 to R162), sample records (R517, R518), doorbells and fetching
(R149, R150, R155 to R157).
-/
namespace Sys2Proof.Machine

/-! ### The objects -/

def DRing.none : DRing := ⟨⟨0, 0, 0⟩, Option.none, 6, 0, 0, false, 0, false, false, 0, 0⟩
def Qp.none : Qp := ⟨.free, 0, Option.none, false, 0, 0, 0, 0, 0, 0, 0, DRing.none, Option.none, 0, 0, 0, 0, 0, [], Option.none, 0,
  0, [], []⟩
def Ring.none : Ring := ⟨.free, 0, ⟨0, 0, 0⟩, Option.none, 6, 0, false, 0, 0, false, [], 0, 0⟩
def AdmQ.none : AdmQ := ⟨.free, DRing.none⟩

def State.qp (s : State) (n : Nat) : Qp := Tbl.get Qp.none s.qm.qps n
def State.setQp (s : State) (n : Nat) (q : Qp) : State := { s with qm := { s.qm with qps := Tbl.set Qp.none s.qm.qps n q } }
def State.modQp (s : State) (n : Nat) (f : Qp → Qp) : State := s.setQp n (f (s.qp n))
def State.ring (s : State) (r : Nat) : Ring := Tbl.get Ring.none s.qm.rings r
def State.setRing (s : State) (r : Nat) (x : Ring) : State := { s with qm := { s.qm with rings := Tbl.set Ring.none s.qm.rings r x } }
def State.modRing (s : State) (r : Nat) (f : Ring → Ring) : State := s.setRing r (f (s.ring r))
def State.admq (s : State) (a : Nat) : AdmQ := Tbl.get AdmQ.none s.qm.admqs a
def State.setAdmq (s : State) (a : Nat) (x : AdmQ) : State := { s with qm := { s.qm with admqs := Tbl.set AdmQ.none s.qm.admqs a x } }
def State.getRec (s : State) (r : Nat) : Option Rec := Tbl.find s.qm.recs r
def State.putRec (s : State) (r : Nat) (x : Rec) : State := { s with qm := { s.qm with recs := Tbl.put s.qm.recs r x } }
def State.delRec (s : State) (r : Nat) : State := { s with qm := { s.qm with recs := Tbl.del s.qm.recs r } }
def State.modRec (s : State) (r : Nat) (f : Rec → Rec) : State :=
  match s.getRec r with
  | some x => s.putRec r (f x)
  | none => s

/-- A queue number of an admin queue (log entry 4). -/
def isAdm (q : Nat) : Bool := decide (65536 ≤ q)
def admIdx (q : Nat) : Nat := q - 65536

/-- The partition a queue belongs to; the device admin queue is partition 0's (R139). -/
def State.queuePart (s : State) (q : Nat) : Nat :=
  if isAdm q then (if devQueue ≤ q then 0 else admIdx q) else (s.qp q).part

/-- The completion ring of a queue's entries: an admin queue's ring has the queue's own number (log entry 4). -/
def State.queueRing (s : State) (q : Nat) (rq : Bool) : Nat :=
  if isAdm q then q else if rq then (s.qp q).rqRing else (s.qp q).sqRing

/-- A descriptor ring of a queue; an admin queue has no receive ring. -/
def State.dring (s : State) (q : Nat) (rq : Bool) : Option DRing :=
  if isAdm q then (if rq then none else some (s.admq (admIdx q)).sq) else if rq then (s.qp q).rq else some (s.qp q).sq

def State.setDring (s : State) (q : Nat) (rq : Bool) (d : DRing) : State :=
  if isAdm q then s.setAdmq (admIdx q) { s.admq (admIdx q) with sq := d }
  else if rq then s.setQp q { s.qp q with rq := some d } else s.setQp q { s.qp q with sq := d }

/-- The accepted and unfinished descriptors of a queue. -/
def State.recsOf (s : State) (q : Nat) : List (Nat × Rec) := s.qm.recs.filter (fun p => p.2.queue == q)

/-! ### Completion entries (R158, R163, R164, R167 to R169) -/

/-- The 32 bytes of an entry written at ring index i (R158). -/
def entryBytes (e : Entry) (i log2 : Nat) : List Byte :=
  wordBytes (word (phaseOf i log2 * 2 ^ 63 + e.type % 8 * 2 ^ 60 + e.reason % 16 * 2 ^ 56 + e.status % 256 * 2 ^ 48
    + e.gen % 2 ^ 16 * 2 ^ 32 + e.qpn % 2 ^ 16 * 2 ^ 16 + i % 2 ^ 16)) ++
  wordBytes e.tag ++
  wordBytes (word (e.bytes % 2 ^ 32 * 2 ^ 32 + e.node % 2 ^ 14 * 2 ^ 18 + b2n e.rq * 2 ^ 17 + e.srcQpn % 2 ^ 16)) ++
  wordBytes e.data

/-- Whether the entry at a ring's tail can be written: its slot is released (R164), and the far side serves the ring's partition (R120). -/
def State.tailOpen (s : State) (x : Ring) : Bool := released x.tail x.head x.log2 && s.vfOk x.loc.link x.loc.fn

/-- Write an entry to the released slot at the tail (R164), and send the interrupt of an armed ring (R167). -/
def State.ringStore (s : State) (r : Nat) (e : Entry) : State :=
  let x := s.ring r
  let a := { x.loc with addr := x.loc.addr + x.tail % 2 ^ x.log2 * 32 }
  let b := entryBytes e x.tail x.log2
  let s := s.setRing r { x with tail := (x.tail + 1) % 2 ^ 32, armed := false }
  let s := if x.split then (s.emit (.linkWrite { a with addr := a.addr + 8 } (b.drop 8))).emit (.linkWrite a (b.take 8))
    else s.emit (.linkWrite a b)
  if x.armed then s.sendMsix x.loc.link x.loc.fn x.vector else s

/-- Whether an entry's generation is past (R404). -/
def State.entryLate (s : State) (e : Entry) : Bool :=
  match e.owner with
  | some p => (s.part p).gen != e.gen
  | none => false

/-- An entry that is due (R164, R168, R169, R404): discarded when its generation is past or its ring HOST_LOST or FREE, written
when its slot is released and nothing is held before it, otherwise held; the 65th held entry stalls the ring. -/
def State.ringPut (s : State) (r : Nat) (e : Entry) : State :=
  let x := s.ring r
  if s.entryLate e then s.count F.PRT_COUNT_COUNT 0
  else if x.state == .free then s
  else if x.state == .hostLost then s.setRing r { x with lost := satAdd x.lost 1 20 }
  else if x.held.isEmpty && s.tailOpen x then s.ringStore r e
  else s.setRing r { x with held := x.held ++ [e], state := if x.held.length ≥ 64 then .stalled else x.state }

/-- Write held entries, in order, while slots are released (R168); the ring is ACTIVE again once nothing is held. -/
def State.ringDrain (s : State) (r : Nat) : Nat → State
  | 0 => s
  | n + 1 =>
    let x := s.ring r
    match x.held with
    | [] => if x.state == .stalled then s.setRing r { x with state := .active } else s
    | e :: es =>
      if s.tailOpen x then
        State.ringDrain ((s.setRing r { x with held := es }).ringStore r e) r n
      else s

/-! ### Gathering: zero-length reads before an entry (R122) -/

def State.putBuild (s : State) (b : Nat) (x : Build) : State := { s with io := { s.io with builds := Tbl.put s.io.builds b x } }
def State.delBuild (s : State) (b : Nat) : State := { s with io := { s.io with builds := Tbl.del s.io.builds b } }

/-- Issue one read on a link and note what it is for: through CXL.cache on a link in CXL mode, but for one of no bytes (R122, R125). Where
the far side does not serve the partition no request is issued (R120), and the read ends like one that is never answered. (log entry 117) -/
def State.issueRead (s : State) (loc : Loc) (len : Nat) (why : ReadWhy) : State :=
  let x := s.fresh
  let s := { x.2 with io := { x.2.io with reads := Tbl.put x.2.io.reads x.1 ⟨loc, len, x.2.now, why⟩ } }
  if s.vfOk loc.link loc.fn then s.emit (.linkRead x.1 loc len ((s.link loc.link).mode == 2 && len != 0)) else s

/-- Issue the zero-length reads of R122, one for each link, as the pieces of build b. (log entry 34) -/
def State.flushReads (s : State) (b : Nat) (part : Nat) : Nat → List Nat → State
  | _, [] => s
  | k, l :: ls => State.flushReads (s.issueRead ⟨l, part, 0⟩ 0 (.piece b k)) b part (k + 1) ls

/-- The record whose entry a gathering operation holds back, if it holds one. -/
def Why.entryOf : Why → Option Nat
  | .entry _ e => some e.recId
  | _ => none

/-- Whether an entry of a record still waits for zero-length reads, or behind one that does. -/
def State.entryWaits (s : State) (r : Nat) : Bool := s.io.builds.any (fun b => b.2.why.entryOf == some r)

/-- An entry that reports placements made through links: it falls due at once when they all are the ring's own link, otherwise after
a zero-length read on each other link has completed (R122). The entries of one descriptor keep their order (R166). -/
def State.complete (s : State) (r : Nat) (e : Entry) (links : List Nat) : State :=
  let s := if e.status = Stat.SUCCESS then s else s.event 0x02 (e.owner.getD 0) 1
  let others := (links.filter (fun l => l != (s.ring r).loc.link)).eraseDups
  -- a lost link answers no read: what went through it is reported as lost
  let e := if others.any (fun l => (s.link l).lost) && e.status == Stat.SUCCESS then { e with status := Stat.HOST_LOST } else e
  let others := others.filter (fun l => !(s.link l).lost)
  if others.isEmpty && !s.entryWaits e.recId then s.ringPut r e
  else
    let x := s.fresh
    ((x.2.putBuild x.1 ⟨others.map (fun _ => none), .entry r e, none⟩).flushReads x.1 (s.ring r).part 0 others)

/-- Put the entries of a record that wait for no read, in the order in which they fell due (R166). The number bounds them. -/
def State.entriesGo (s : State) (r : Nat) : Nat → State
  | 0 => s
  | n + 1 =>
    match s.io.builds.find? (fun b => b.2.why.entryOf == some r) with
    | some (k, ⟨[], .entry ring e, _⟩) => State.entriesGo ((s.delBuild k).ringPut ring e) r n
    | _ => s

/-- The zero-length reads of an entry are over: it falls due behind the entries of its descriptor that fell due before it. -/
def State.entryReady (s : State) (b ring : Nat) (e : Entry) : State :=
  let s := s.putBuild b ⟨[], .entry ring e, none⟩
  s.entriesGo e.recId s.io.builds.length

/-! ### The end of a descriptor (R159 to R162) -/

/-- The entry a record's descriptor gets, of a type, with its record's status. -/
def Rec.entry (x : Rec) (type bytes : Nat) : Entry :=
  { type := type, reason := x.reason, status := x.status, gen := x.gen, qpn := if isAdm x.queue then 0 else x.queue
    tag := x.desc.tag, bytes := bytes, node := x.node, rq := x.rq, srcQpn := x.srcQpn, data := x.data
    owner := if devQueue ≤ x.queue then none else some x.part, recId := 0 }

/-- The address word of an extent in a sample record: local, or global (R36, R517). -/
def extWord (es : List Extent) : Nat :=
  match es with
  | [] => 0
  | e :: _ => (e.node.getD 0) * 2 ^ 50 + e.addr

/-- A sample record's bytes (R517). -/
def sampleBytes (s : State) (x : Rec) (tail n bytes status : Nat) : List Byte :=
  let ks := (x.src ++ x.dst).filter (fun e => e.node.isSome)
  let dst := if status = Stat.TRANSLATION_FAULT then x.data.toNat else extWord x.dst
  wordBytes (word ((1 - tail / n % 2) * 2 ^ 63 + status % 256 * 2 ^ 48 + x.gen % 2 ^ 16 * 2 ^ 32 + x.part % 64 * 2 ^ 26
    + x.queue % 2 ^ 16 * 2 ^ 10)) ++
  wordBytes (word (x.at0 % 2 ^ 48 * 2 ^ 16 + min (x.src.length + x.dst.length) 65535)) ++
  wordBytes (word (min (x.at0 - x.at1) (2 ^ 32 - 1) * 2 ^ 32 + min (s.now - x.at0) (2 ^ 32 - 1))) ++
  wordBytes (word ((if x.at2 = 0 then 0 else min (x.at2 - x.at0) (2 ^ 32 - 1)) * 2 ^ 32 + min x.retx (2 ^ 32 - 1))) ++
  wordBytes (word (extWord x.src)) ++ wordBytes (word dst) ++
  wordBytes (word ((ks.head?.map (·.key)).getD 0 * 2 ^ 32 + bytes % 2 ^ 32)) ++ wordBytes 0 ++
  wordBytes x.desc.w0 ++ wordBytes x.desc.w1 ++ wordBytes x.desc.w2 ++ wordBytes x.desc.w3 ++ wordBytes x.desc.w4 ++
  wordBytes x.desc.w5 ++ wordBytes x.desc.w6 ++ wordBytes x.desc.w7

/-- Write a sampled descriptor's record when it ends (R518): to a released slot of the ring, or DROPPED counts it. -/
def State.sampleEnd (s : State) (x : Rec) (bytes status : Nat) : State :=
  if !x.sampled || s.cnt.blocks = 0 then s
  else
    let n := s.cnt.blocks * 16384
    let tail := s.fld F.CNT_SAMPLE_STATUS_TAIL
    let status := if (s.part x.part).state == .active then status else 0xFF
    if idxDiff tail (s.fld F.CNT_SAMPLE_HEAD_HEAD) < n then
      let s' := s.memWrite (s.usePhys (fun k => .sample k) (tail % n * 128)) (sampleBytes s x tail n bytes status)
      s'.count F.CNT_SAMPLE_STATUS_TAIL
    else s.countSat F.CNT_SAMPLE_STATUS_DROPPED

/-- A finished descriptor leaves the fences that cover it (R162). -/
def Rec.uncover (x : Rec) (r : Nat) (ok : Bool) (links : List Nat) : Rec :=
  if x.cover.contains r then
    { x with cover := x.cover.erase r, failed := if ok then x.failed else x.failed + 1, links := x.links ++ links }
  else x

/-- Whether a descriptor places bytes in this adapter's own memory. -/
def Rec.placesHere (x : Rec) : Bool := x.desc.op != Op.SEND && x.dst.any (fun e => e.node.isNone)

/-- The nodes a descriptor names, for a fence: those of its remote extents, a SEND's destination, and the adapter's own for local
placements (R162). -/
def Rec.nodes (x : Rec) (own : Option Nat) : List Nat :=
  ((x.src ++ x.dst).filterMap (·.node) ++ (if x.desc.op = Op.SEND then [x.desc.sendNode] else [])
    ++ (if x.placesHere then own.toList else [])).eraseDups

/-- Whether a fence covers a descriptor's opcode (R162). -/
def Rec.fenceable (x : Rec) : Bool :=
  !isAdm x.queue && (x.desc.op == Op.WRITE || x.desc.op == Op.SEND || x.desc.op == Op.ATOMIC)

/-- Add links to what a send ring keeps for its fences. -/
def addLinks (t : Tbl (List Nat)) (ls : List Nat) (n : Nat) : Tbl (List Nat) := Tbl.set [] t n ((Tbl.get [] t n ++ ls).eraseDups)

/-- What a send ring keeps of a finished descriptor for the fences accepted after it (R162, R122). (log entry 26) -/
def Qp.history (q : Qp) (x : Rec) (own : Option Nat) : Qp :=
  let ns := x.nodes own
  let f := b2n (x.status != Stat.SUCCESS)
  { q with
    failAll := q.failAll + f
    failBy := ns.foldl (fun t n => Tbl.set 0 t n (Tbl.get 0 t n + f)) q.failBy
    linkBy := (16384 :: ns).foldl (fun t n => addLinks t x.links n) q.linkBy }

/-- A record is finished (R161): it leaves its table, the fences that cover it, and its queue pair's waiting receives. -/
def State.retire (s : State) (r : Nat) (x : Rec) (bytes : Nat) : State :=
  let s := (s.delRec r).sampleEnd x bytes x.status
  let s := if !isAdm x.queue && x.rq then s.modQp x.queue (fun q => { q with recvs := q.recvs.erase r }) else s
  let s := if x.fenceable then s.modQp x.queue (fun q => q.history x s.node) else s
  { s with qm := { s.qm with recs := Tbl.map (fun _ y => y.uncover r (x.status == Stat.SUCCESS) x.links) s.qm.recs } }

/-- Whether an entry of a record is due and neither written nor in a holding buffer: it waits for reads (R122), or stays in its record behind
the 64 of its ring's buffer (R168). -/
def State.entryDue (s : State) (r : Nat) : Bool :=
  s.entryWaits r || s.qm.rings.any (fun x => (x.2.held.drop 64).any (fun e => e.recId == r))

/-- A record that has been carried out is finished once its last entry has been written or held (R57, R161). -/
def State.letGo (s : State) (r : Nat) : State :=
  match s.getRec r with
  | some x => if x.phase = .ended ∧ ¬ s.entryDue r then s.retire r x x.bytes else s
  | none => s

/-! ### Flight entries (R193, R230) and the Lamp room's messages (R219) -/

/-- The flight entries of a die (R193, TRN_FLIGHT_STATUS). -/
def flightSlots : Nat := 32768

def State.setFlights (s : State) (f : Tbl Flight) : State := { s with tr := { s.tr with flights := f } }

def State.flightsOnDie (s : State) (d : Nat) : Nat := (s.tr.flights.filter (fun e => s.dieOf e.1 == d)).length

/-- A new entry starts at R_START, with f.hold and f.grow at the current time (R230). -/
def State.newFlight (s : State) : Flight :=
  { rate := s.fld F.SCH_CC_CFG_R_START, srtt := none, var := 0, hold := s.now, grow := s.now, next := s.now }

/-- Find or allocate the entry for a node on its die (R19, R193); none when the die has no free entry. -/
def State.takeFlight (s : State) (n : Nat) : Option State :=
  if Tbl.has s.tr.flights n then some s
  else if s.flightsOnDie (s.dieOf n) < flightSlots then some (s.setFlights (Tbl.put s.tr.flights n s.newFlight))
  else none

/-- A message record for the Lamp room to send: management messages wait here until they begin (R219). -/
def Msg.mgtOf (ver node qpn : Nat) (bs : List Byte) : Msg :=
  { recId := 0, queue := 0, part := 0, gen := 0, kind := .mgt, node := node, len := bs.length, src := [], dst := [], raddr := 0, key := 0
    inc := 0, qpn := qpn, imm := 0, opx := 0, opnd := 0, comp := 0, pshift := 12, ver := ver, npkts := 1, begun := false
    beganAt := 0, d := none, left := 1, unsent := bs.length, acked := [], sent := [], tmo := []
    units := 0, staged := [], busy := none, busyPsn := none, hz := 0, nd := 0, beacon := false, ethPort := none, data := bs, ctl := []
    plan := 0, step := 0, off := 0, bad := [], err := none, unfit := [] }

/-- A management message reaches the Lamp room: Keeper messages on DEST_QPN 0 with an MTYPE of R413, distribution messages on
DEST_QPN 1 with a DTYPE of R455, both of version 1; others are acknowledged and dropped. -/
def State.toLamp (s : State) (src qpn : Nat) (bs : List Byte) : State :=
  let ty := bits (wordAt bs 0) 56 8
  if bits (wordAt bs 0) 52 4 ≠ 1 then s
  else if (qpn = 0 ∧ 16 ≤ bs.length ∧ 1 ≤ ty ∧ ty ≤ 0x0D) ∨ (qpn = 1 ∧ 32 ≤ bs.length ∧ 1 ≤ ty ∧ ty ≤ 4) then
    { s with tr := { s.tr with inbox := s.tr.inbox ++ [(src, qpn, bs)] } }
  else s

/-- Give a management message to the transport engine: its flight entry, if one is free (R193), and a fresh MSG_ID of the node's die (R180); a
message to this node itself goes to the Lamp room at once. It begins by its own event. -/
def State.queueMgt (s : State) (node qpn : Nat) (bs : List Byte) : State :=
  if s.node = some node then s.toLamp node qpn bs
  else
    let s := (s.takeFlight node).getD s
    let die := s.dieOf node
    let c := Tbl.get 0 s.tr.nextMsg die
    let m := { Msg.mgtOf 1 node qpn bs with pshift := s.pshiftTo node }
    let m := { m with npkts := ceilDiv bs.length (2 ^ m.pshift), left := ceilDiv bs.length (2 ^ m.pshift) }
    { s with tr := { s.tr with
      msgs := Tbl.put s.tr.msgs ((2 * c + die) % 2 ^ 32) m
      nextMsg := Tbl.set 0 s.tr.nextMsg die (c + 1) } }

/-- A Keeper message: its 16 B header and body (R412). The sender's count goes on. -/
def State.keeperMsg (s : State) (node mtype : Nat) (body : List Byte) : State :=
  let k := s.kpr
  let h := wordBytes (word (mtype % 256 * 2 ^ 56 + 2 ^ 52 + k.kgroup % 4096 * 2 ^ 40 + k.term % 2 ^ 32)) ++ wordBytes (word (k.seq % 2 ^ 32 * 2 ^ 32))
  { s with kpr := { k with seq := (k.seq + 1) % 2 ^ 32 } }.queueMgt node 0 (h ++ body)

/-- An entry as a command's source gets it: its ring, an ORDER_DONE to the member that sent the ORDER (R413), the I3C (R33), or
nobody, its ring lost (R134). -/
def State.report (s : State) (r : Nat) (x : Rec) (e : Entry) : State :=
  match x.source with
  | 0 => s.complete (s.queueRing x.queue x.rq) { e with recId := r } x.links
  | 1 => s.keeperMsg x.srcQpn 0x0D (entryBytes { e with srcQpn := 0 } 0 6)
  | 2 => s.emit (.i3c (entryBytes e 0 6))
  | _ => s

/-- Carry a record to its end: its last entry falls due, and with it the record is finished (R161). One that has ended gets no second end. -/
def State.endRec (s : State) (r : Nat) (type status bytes : Nat) (data : Word := 0) (reason : Nat := 0) : State :=
  match s.getRec r with
  | none => s
  | some x =>
    if x.phase = .ended then s
    else
      let x := { x with status := status, data := data, reason := reason, bytes := bytes, phase := .ended }
      ((s.putRec r x).report r x (x.entry type bytes)).letGo r

/-- A fence all of whose covered descriptors have finished (R162): SUCCESS, or FENCE_INCOMPLETE with their count. -/
def State.fenceDone (s : State) (p : Nat × Rec) : State :=
  if p.2.failed = 0 then s.endRec p.1 Ty.DONE Stat.SUCCESS 0 else s.endRec p.1 Ty.DONE Stat.FENCE_INCOMPLETE 0 (word p.2.failed)

/-- Whether a record is a running fence that waits for nothing more. In ERROR and HOST_LOST fences are flushed (R134, R146). -/
def State.fenceOver (s : State) (x : Rec) : Bool :=
  x.desc.op == Op.PLACEMENT_FENCE && !isAdm x.queue && x.phase == .running && x.cover.isEmpty
    && (s.qp x.queue).state != .error && (s.qp x.queue).state != .hostLost

/-- Complete every running fence that waits for nothing more. -/
def State.fenceSweep (s : State) : State := (s.qm.recs.filter (fun p => s.fenceOver p.2)).foldl State.fenceDone s

/-- Finish a record with its one entry; fences that waited for it go on. -/
def State.finish (s : State) (r : Nat) (type status bytes : Nat) (data : Word := 0) (reason : Nat := 0) : State :=
  (s.endRec r type status bytes data reason).fenceSweep

/-- End a record that gets no further entry (R160): it is finished once the entries it got are written or held. -/
def State.endQuiet (s : State) (r : Nat) (x : Rec) (bytes : Nat) : State :=
  ((s.putRec r { x with phase := .ended, bytes := bytes }).letGo r).fenceSweep

/-- Finish the records whose last entry has been written, held or discarded meanwhile. -/
def State.reap (s : State) : State :=
  ((s.qm.recs.filter (fun p => p.2.phase == .ended)).foldl (fun s p => s.letGo p.1) s).fenceSweep

/-- Finish an admin command. -/
def State.finishAdm (s : State) (r : Nat) (status : Nat) (data : Nat := 0) (reason : Nat := 0) : State :=
  s.finish r Ty.ADMIN status 0 (word data) reason

/-- The entry type of a descriptor that is flushed or refused before it began (R159): RECEIVED for a receive, COLLECTIVE for a
collective, ADMIN on an admin queue, DONE otherwise. -/
def Rec.plainType (x : Rec) : Nat :=
  if isAdm x.queue then Ty.ADMIN
  else if x.desc.op = Op.RECV ∨ x.desc.op = Op.ETH_RECV then Ty.RECEIVED
  else if x.desc.op = Op.COLLECTIVE then Ty.COLLECTIVE else Ty.DONE

/-- End a WRITE, SEND or other descriptor with a status (R160): a LATE entry once DEPARTED has been written, else its own. -/
def State.endWith (s : State) (r status : Nat) (data : Word := 0) : State :=
  match s.getRec r with
  | none => s
  | some x => s.finish r (if x.phase == .departed then Ty.LATE else x.plainType) status x.placed data

/-- End a descriptor whose ring is behind a lost link: recorded in the queue's state, not written (R134 step 3). -/
def State.endSilent (s : State) (r : Nat) (status : Nat) : State :=
  match s.getRec r with
  | none => s
  | some x =>
    if x.phase = .ended then s
    else
      let s := if isAdm x.queue then s else s.modQp x.queue (fun q => { q with flushed := q.flushed + 1 })
      (s.retire r { x with status := status } 0).fenceSweep

/-! ### The completion-ring doorbell (R149, R150, R164, R167, R168) -/

/-- A completion-ring doorbell's effect (R149, R150, R164, R167, R168). -/
def State.ringHead (s : State) (r head : Nat) (arm : Bool) : State :=
  let x := s.ring r
  if idxDiff x.tail x.head < idxDiff head x.head then s.countSat F.QMG_BAD_DOORBELL_COUNT
  else
    let s := s.setRing r { x with head := head, armed := x.armed || arm }
    let s := (s.ringDrain r (x.held.length + 1)).reap
    let x := s.ring r
    if x.armed && x.tail != x.head && s.vfOk x.loc.link x.loc.fn then (s.setRing r { x with armed := false }).sendMsix x.loc.link x.loc.fn x.vector
    else s

/-! ### Fetching (R155, R157) -/

/-- The acceptance records used on a die (R155). -/
def State.recsOnDie (s : State) (d : Nat) : Nat :=
  (s.qm.recs.filter (fun p => !isAdm p.2.queue && s.dieOf p.2.queue == d)).length

/-- The debt of a Beacon queue pair now (R235). MB/s is bytes per µs. -/
def State.debt (s : State) (q : Qp) : Rat := max 0 (q.debt - (q.rate : Rat) / 1000 * ((s.now - q.debtAt : Nat) : Rat))

/-- Whether a queue takes a slot now (R137, R145, R155, R168, R169, R171, R172, R235): neither halted nor lost, its completion rings ACTIVE,
fewer than OUTSTANDING descriptors accepted and unfinished, an acceptance record free, and no Beacon debt. -/
def State.takes (s : State) (q : Nat) : Bool :=
  !s.qm.devHalt && (if isAdm q then
      (s.admq (admIdx q)).state == .active && (s.ring q).state == .active && (q == devQueue || (s.part (admIdx q)).state == .active)
    else
      let x := s.qp q
      (x.state == .active || x.state == .error) && !(s.part x.part).halted && (s.part x.part).state == .active &&
      (s.ring x.sqRing).state == .active && (x.rq.isNone || (s.ring x.rqRing).state == .active) &&
      decide ((s.recsOf q).length < x.maxOut) && decide (s.recsOnDie (s.dieOf q) < Config.acceptRecords) &&
      (!x.beacon || s.debt x == 0))

/-- Whether the link of a ring's memory carries requests: it is not lost (R134), and the far side serves the partition (R120). -/
def State.ringReach (s : State) (l : Loc) : Bool := !(s.link l.link).lost && s.vfOk l.link l.fn

/-- Whether the adapter may fetch the next slot of a ring now (R134, R155, R157). -/
def State.mayFetch (s : State) (q : Nat) (rq : Bool) : Bool :=
  s.takes q && (match s.dring q rq with
  | none => false
  | some d =>
    !d.busy && !d.retry && !d.seqWait && s.ringReach d.loc && decide (0 < idxDiff d.pi d.fetch) && decide (idxDiff d.pi d.fetch ≤ 2 ^ d.log2))

/-- Issue the read of a ring's next slot, once the port die of its link is there (R482). -/
def State.issueFetch (s : State) (q : Nat) (rq : Bool) (d : DRing) : State :=
  let ds := [linkDom d.loc.link]
  if s.ready ds then s.issueRead { d.loc with addr := d.loc.addr + d.fetch % 2 ^ d.log2 * 64 } 64 (.fetch q rq) else s.hold ds (.fetch q rq)

/-- Fetch the slot at the fetch index (R140, R155). -/
def State.fetchNow (s : State) (q : Nat) (rq : Bool) : State :=
  match s.dring q rq with
  | none => s
  | some d =>
    let s := s.setDring q rq { d with busy := true, since := if d.stale = 0 then s.now else d.since }
    s.issueFetch q rq d

/-- Fetch if the conditions hold. -/
def State.tryFetch (s : State) (q : Nat) (rq : Bool) : State := if s.mayFetch q rq then s.fetchNow q rq else s

/-- A descriptor-ring doorbell's effect (R149, R150, R157): dropped when PI is more than N ahead of the fetch index; a repeat
acts only on a slot that waits under SEQ_WAIT, whose check it starts again. -/
def State.ringPi (s : State) (q : Nat) (rq : Bool) (pi : Nat) : State :=
  match s.dring q rq with
  | none => s
  | some d =>
    if 2 ^ d.log2 < idxDiff pi d.fetch then s.countSat F.QMG_BAD_DOORBELL_COUNT
    else (s.setDring q rq { d with pi := pi, seqWait := false, stale := if d.seqWait then 0 else d.stale }).tryFetch q rq

/-! ### Doorbell slots (R115 to R117, R144, R149) -/

/-- Who owns doorbell number n of a partition. -/
inductive DbOwner where
  | nobody
  | queue (q : Nat)
  | ring (r : Nat)
  | faultRing
  deriving DecidableEq, Repr

def State.dbOwner (s : State) (part n : Nat) : DbOwner :=
  if n = 0 then (if (s.admq part).state == .free || (s.admq part).state == .fault then .nobody else .queue (admQueue part))
  else if n = 1 then (if (s.ring (admQueue part)).state == .free then .nobody else .ring (admQueue part))
  else match s.qm.qps.find? (fun p => p.2.state != .free && p.2.part == part && p.2.doorbell == n) with
    | some p => .queue p.1
    | none => match s.qm.rings.find? (fun p => p.1 < 65536 && p.2.state != .free && p.2.part == part && p.2.doorbell == n) with
      | some p => .ring p.1
      | none => if part < 64 && (s.faultq part).state != .free && (s.faultq part).doorbell == n then .faultRing else .nobody

/-- A doorbell dropped under R116: counted for the link that carried it. -/
def State.dropDoorbell (s : State) (l : Nat) : State := s.modLink l (fun x => { x with dropped := x.dropped + 1 })

/-- A doorbell number of a partition nobody holds, from 2 to 130,559 (R144), chosen freely. -/
def State.freeDoorbells (s : State) (part : Nat) : Nat → Bool := fun n => s.dbOwner part n == .nobody

end Sys2Proof.Machine
end

