-- ==== Sys2Proof/Machine/Xlate.lean ====
section
/-!
DEFINITION. Translation at acceptance (R40 to R48, spec/02_addressing_and_regions.md), the checks of table pages (R52) and of a
withdrawn range (R56).
-/
namespace Sys2Proof.Machine

/-! ### Entries (R43) -/

def TEntry.zero : TEntry := ⟨0, 0⟩
def TEntry.type (e : TEntry) : Nat := bits e.w0 60 4
def TEntry.r (e : TEntry) : Bool := bit e.w0 59
def TEntry.w (e : TEntry) : Bool := bit e.w0 58
def TEntry.a (e : TEntry) : Bool := bit e.w0 57
def TEntry.target (e : TEntry) : Nat := bits e.w0 0 50
def TEntry.page (e : TEntry) : Nat := bits e.w0 0 20
def TEntry.key (e : TEntry) : Nat := bits e.w1 32 32
def TEntry.inc (e : TEntry) : Nat := bits e.w1 16 16
def TEntry.node (e : TEntry) : Nat := bits e.w1 0 14

/-- An entry of the adapter copy of a partition's table. (log entry 45) -/
def State.tentry (s : State) (part page idx : Nat) : TEntry :=
  Tbl.get TEntry.zero (Tbl.get [] s.xl.tables part) (page * 256 + idx)

/-- The index bits of a partition address at a level (R41), and what one entry of the level covers. -/
def levelIdx (a level : Nat) : Nat := bitsN a (12 + 8 * (level - 1)) 8
def levelSpan (level : Nat) : Nat := 2 ^ (12 + 8 * (level - 1))

/-- The entry a partition address reaches, with the level it is found at: INVALID at level n, or LOCAL or REMOTE. -/
def State.walkAt (s : State) (part a : Nat) : Nat → Nat → TEntry × Nat
  | 0, _ => (TEntry.zero, 1)
  | level + 1, page =>
    let e := s.tentry part page (levelIdx a (level + 1))
    if e.type = 1 then State.walkAt s part a level e.page else (e, level + 1)

/-- The walk from the root, page 0 (R41, R42). A partition without a pool maps nothing (R540). -/
def State.walk (s : State) (part a : Nat) : TEntry × Nat :=
  if (s.part part).pages = 0 then (TEntry.zero, 5) else s.walkAt part a 5 0

/-- What a descriptor needs of a range: read, written, or the target of an atomic; and whether it must be local (R47). -/
structure Need where
  r : Bool
  w : Bool
  a : Bool
  localOnly : Bool
  deriving DecidableEq, Repr

def needR : Need := ⟨true, false, false, true⟩
def needW : Need := ⟨false, true, false, true⟩

/-- A piece of a translated range: its first partition address, and the run of target bytes. -/
structure Piece where
  pa  : Nat
  ext : Extent
  deriving DecidableEq, Repr

/-- A fault found in a range (R47): the partition address and the reason. -/
abbrev XFault := Nat × Nat

/-- Whether memory behind a link can be named for a partition: the far side serves it (R120), or the link is lost, which the descriptor's
status says (R134 step 4). -/
def State.linkOk (s : State) (l part : Nat) : Bool := (s.link l).lost || s.vfOk l part

/-- Whether a local address can be reached for a partition at all (R38, R39, R87, R120): its window is not reserved, its port is
fitted and not failed, the far side has enabled the function, and a Gallery block is the partition's own. -/
def State.localOk (s : State) (part a : Nat) : Bool :=
  match winOf a with
  | 0 => decide (bitsN a 44 4 < s.nAcc) && (s.dom (76 + bitsN a 44 4 / 2)).state != .failed
           && s.linkOk (1 + bitsN a 44 4) part
  | 1 => s.galleryOk part (bitsN a 0 48)
  | 2 => (s.dom 76).state != .failed && s.linkOk 0 part
  | _ => false

/-- The first byte of a run of local addresses that cannot be reached, checking block by block in the Gallery window. -/
def State.localBad (s : State) (part a len : Nat) : Option Nat :=
  if winOf a = 1 then
    let g := bitsN a 0 48
    let n := (g + len - 1) / blkBytes - g / blkBytes + 1
    (firstIdx (fun b => !s.galleryOk part (b * blkBytes)) n (g / blkBytes)).map (fun b => max (b * blkBytes) g - g)
  else if s.localOk part a then none else some 0

/-- The run a local address begins: Gallery memory under XTS is a kind of its own (R106), so a Gallery run is cut where the
flag changes. -/
def State.xtsAt (s : State) (a : Nat) : Bool := winOf a == 1 && (s.gblk (bitsN a 0 48 / blkBytes)).xts

/-- The length of the run of one kind from a local address: to the next change of the XTS flag within len. -/
def State.kindLen (s : State) (a len : Nat) : Nat :=
  if winOf a = 1 then
    let g := bitsN a 0 48
    let x := s.xtsAt a
    let n := (g + len - 1) / blkBytes - g / blkBytes
    match firstIdx (fun b => (s.gblk b).xts != x) n (g / blkBytes + 1) with
    | some b => b * blkBytes - g
    | none => len
  else len

/-- Cut a local run into pieces of one kind. -/
def State.localPieces (s : State) : Nat → Nat → Nat → Nat → List Piece
  | 0, _, _, _ => []
  | n + 1, pa, a, len =>
    if len = 0 then [] else
      let k := min len (max 1 (s.kindLen a len))
      ⟨pa, ⟨none, a, k, 0, 0, s.xtsAt a⟩⟩ :: State.localPieces s n (pa + k) (a + k) (len - k)

/-- Translate a range: the pieces up to the first faulting byte, and that fault (R45, R47). The number bounds the entries the
range can reach. -/
def State.xrange (s : State) (part : Nat) (need : Need) : Nat → Nat → Nat → List Piece × Option XFault
  | 0, _, _ => ([], none)
  | n + 1, a, len =>
    if len = 0 then ([], none)
    else if 2 ^ 52 ≤ a then ([], some (a, Why5.UNMAPPED))
    else
      let x := s.walk part a
      let e := x.1
      let span := levelSpan x.2
      let k := min len (span - a % span)
      let t := e.target + a % span
      if e.type = 2 then
        if (need.r && !e.r) || (need.w && !e.w) || (need.a && !e.a) then ([], some (a, Why5.PERMISSION))
        else match s.localBad part t k with
          | some o => (s.localPieces (k / blkBytes + 2) a t o, some (a + o, Why5.ABSENT_UNIT))
          | none =>
            let r := State.xrange s part need n (a + k) (len - k)
            (s.localPieces (k / blkBytes + 2) a t k ++ r.1, r.2)
      else if e.type = 3 then
        if need.localOnly || (need.r && !e.r) || (need.w && !e.w) || (need.a && !e.a) then ([], some (a, Why5.PERMISSION))
        else if s.node.isNone then ([], some (a, Why5.NO_NODE))
        else
          let r := State.xrange s part need n (a + k) (len - k)
          (⟨a, ⟨some e.node, t, k, e.key, e.inc, false⟩⟩ :: r.1, r.2)
      else ([], some (a, Why5.UNMAPPED))

/-- The pieces and the fault of one contiguous range. -/
def State.xlate1 (s : State) (part a len : Nat) (need : Need) : List Piece × Option XFault :=
  s.xrange part need (len / 4096 + 2) a len

/-- The tiles of a range (R153): first addresses in order. -/
def tiles (base stride rows : Nat) : List Nat := (List.range rows).map (fun k => base + k * stride)

/-- Merge a piece onto the run before it when its targets continue it (R46): adjacent partition addresses, contiguous targets of
the same kind, node, key and incarnation. -/
def mergePieces : List Piece → List Piece
  | [] => []
  | p :: ps =>
    match mergePieces ps with
    | [] => [p]
    | q :: qs =>
      if p.pa + p.ext.len = q.pa ∧ p.ext.addr + p.ext.len = q.ext.addr ∧ p.ext.node = q.ext.node ∧ p.ext.key = q.ext.key
          ∧ p.ext.inc = q.ext.inc ∧ p.ext.xts = q.ext.xts ∧ winOf p.ext.addr = winOf q.ext.addr
          ∧ (winOf p.ext.addr ≠ 0 ∨ bitsN p.ext.addr 44 4 = bitsN q.ext.addr 44 4)
      then ⟨p.pa, { p.ext with len := p.ext.len + q.ext.len }⟩ :: qs
      else p :: q :: qs

/-- Of two faults, the one R47 reports: the lower address, then the reason listed first. -/
def worse (a b : Option XFault) : Option XFault :=
  match a, b with
  | none, x => x
  | x, none => x
  | some (p, r), some (q, t) => if p < q ∨ (p = q ∧ reasonRank r ≤ reasonRank t) then some (p, r) else some (q, t)

/-- One range a descriptor names: first address, tile length, rows, stride, need. -/
structure Range where
  base   : Nat
  len    : Nat
  rows   : Nat
  stride : Nat
  need   : Need
  deriving DecidableEq, Repr

/-- Translate one range, tile by tile. (log entry 32) -/
def State.xlateRange (s : State) (part : Nat) (r : Range) : List Piece × Option XFault :=
  let rs := (tiles r.base r.stride r.rows).map (fun a => s.xlate1 part a r.len r.need)
  (mergePieces (rs.flatMap (·.1)), (rs.map (·.2)).foldl worse none)

/-- The outcome of translating a descriptor's ranges: the extents of each range, or the fault reported. -/
inductive Xlated where
  | ok (ranges : List (List Extent))
  | fault (addr reason : Nat)
  deriving DecidableEq, Repr

/-- Translate every range of a descriptor (R45 to R47): at most 2,048 extents in all (FRAGMENTED). -/
def State.xlate (s : State) (part : Nat) (rs : List Range) : Xlated :=
  let xs := rs.map (s.xlateRange part)
  let ps := xs.flatMap (·.1)
  let frag : Option XFault := (ps[2048]?).map (fun p => (p.pa, Why5.FRAGMENTED))
  match worse ((xs.map (·.2)).foldl worse none) frag with
  | some (a, r) => .fault a r
  | none => .ok (xs.map (fun x => x.1.map (·.ext)))

/-- A partition's own buffer of an admin command: one range, all local. -/
def State.xbuf (s : State) (part a len : Nat) (need : Need) : Xlated := s.xlate part [⟨a, len, 1, 0, need⟩]

/-! ### The adapter's own table reads (R24) -/

/-- A table read of the adapter from block b of a stack (class T): it counts toward the cap for 1 µs. (log entry 82) -/
def State.tableRead (s : State) (b : Option Nat) (bytes : Nat) : State :=
  match b with
  | none => s
  | some b =>
    let k := b / 65536
    let kept := (Tbl.get [] s.cnt.treads k).filter (fun e => decide (s.now < e.1 + 1000))
    { s with cnt := { s.cnt with treads := Tbl.put s.cnt.treads k (kept ++ [(s.now, bytes)]) } }

/-- The block of a mirrored structure that is read: its first copy, or the second when that is gone (R85). -/
def State.readCopy (s : State) (u : Nat → Use) : Option Nat := (s.useBlk (u 0)).orElse (fun _ => s.useBlk (u 1))

/-- The table pages a walk reads, from the root down (R41). -/
def State.walkPages (s : State) (part a : Nat) : Nat → Nat → List Nat
  | 0, _ => []
  | level + 1, page =>
    let e := s.tentry part page (levelIdx a (level + 1))
    page :: (if e.type = 1 then State.walkPages s part a level e.page else [])

/-- The pages read for a run of partition addresses, one walk for each entry it reaches. -/
def State.runPages (s : State) (part : Nat) : Nat → Nat → Nat → List Nat
  | 0, _, _ => []
  | n + 1, a, len =>
    if len = 0 ∨ 2 ^ 52 ≤ a then []
    else
      let span := levelSpan (s.walk part a).2
      let k := min len (span - a % span)
      s.walkPages part a 5 0 ++ State.runPages s part n (a + k) (len - k)

/-- The table reads of a translation: one entry of 16 B of each page. -/
def State.walked (s : State) (part : Nat) (rs : List Range) : State :=
  if (s.part part).pages = 0 then s
  else
    (rs.flatMap (fun r => (tiles r.base r.stride r.rows).flatMap (fun a => s.runPages part (r.len / 4096 + 2) a r.len))).foldl (fun s page =>
      s.tableRead (s.readCopy (fun c => .tablePool part (page / 512) c)) 16) s

/-- The read of a region entry (R61): 32 B of the table of its die, 65,536 entries in a block. -/
def State.regionRead (s : State) (i : Nat) : State :=
  let copy (c : Nat) : Option Nat := (((s.pool.blks.filter (fun e => e.2.use == .regionTable (i % 2) c && e.2.state == .internal))[i / 2 / 65536]?).map (·.1))
  s.tableRead ((copy 0).orElse (fun _ => copy 1)) 32

/-! ### Byte streams over extents -/

/-- The part [off, off + len) of a byte stream laid over extents. -/
def cutExt : List Extent → Nat → Nat → List Extent
  | [], _, _ => []
  | e :: es, off, len =>
    if len = 0 then []
    else if e.len ≤ off then cutExt es (off - e.len) len
    else
      let k := min len (e.len - off)
      { e with addr := e.addr + off, len := k } :: cutExt es 0 (len - k)

def extLen (es : List Extent) : Nat := (es.map (·.len)).foldl (· + ·) 0

/-! ### Ring memory (R141) -/

/-- The translation of a ring: one LOCAL extent in the accelerator or host window, on a link that is not lost, or the status that refuses it. -/
def State.xring (s : State) (part base bytes : Nat) (need : Need) : Nat × Nat × Nat × Extent :=
  match s.xlate part [⟨base, bytes, 1, 0, need⟩] with
  | .fault a r => (Stat.TRANSLATION_FAULT, a, r, ⟨none, 0, 0, 0, 0, false⟩)
  | .ok [[e]] => if winOf e.addr = 1 then (Stat.NOT_CONTIGUOUS, 0, 0, e)
    else if (s.link ((linkOf e.addr).getD 0)).lost then (Stat.HOST_LOST, 0, 0, e) else (Stat.SUCCESS, 0, 0, e)
  | .ok _ => (Stat.NOT_CONTIGUOUS, 0, 0, ⟨none, 0, 0, 0, 0, false⟩)

/-! ### Checking table pages (R52) -/

/-- The levels at which the tree reaches each page, as pairs (page, level), down from the root. -/
def reach (get : Nat → Nat → TEntry) (npages : Nat) : Nat → List (Nat × Nat) → List (Nat × Nat)
  | 0, acc => acc
  | n + 1, acc =>
    let front := acc.filter (fun p => p.2 == n + 1)
    let next := front.flatMap (fun p => ((List.range 256).filterMap (fun i =>
      let e := get p.1 i
      if e.type = 1 ∧ e.page < npages ∧ 1 < p.2 then some (e.page, p.2 - 1) else none)))
    reach get npages n (acc ++ next.eraseDups)

/-- The conditions of R52 on one entry that do not depend on the level, the least alignment of a TARGET among them; `cfg` says what LOCAL
entries may name. (log entry 33) -/
def entryOk (cfg : Part) (e : TEntry) : Bool :=
  match e.type with
  | 0 => onlyFields e.w0 [(57, 3), (0, 50)] && e.w1 == 0
  | 1 => onlyFields e.w0 [(57, 7), (0, 20)] && e.w1 == 0 && decide (e.page < cfg.pages)
  | 2 => onlyFields e.w0 [(57, 7), (0, 50)] && e.w1 == 0 && e.target % 4096 == 0 &&
      (match winOf e.target with
       | 0 => cfg.accAllow.testBit (bitsN e.target 44 4)
       | 1 => cfg.galleryAllow
       | 2 => cfg.hostAllow
       | _ => false)
  | 3 => onlyFields e.w0 [(57, 7), (0, 50)] && e.target % 4096 == 0 && onlyFields e.w1 [(32, 32), (16, 16), (0, 14)]
  | _ => false

/-- The level rules of R52 on one entry (R41): its type is permitted, and a block or page is aligned to what it covers. -/
def levelOk (e : TEntry) (level : Nat) : Bool :=
  match e.type with
  | 0 => true
  | 1 => decide (1 < level)
  | _ => decide (level < 5) && e.target % levelSpan level == 0

/-- The first entry that fails validation, as (page, entry): pages ascending, entries ascending (R52). `get` is the tree as it
will stand after the commit, `staged` the pages of the run. -/
def firstBad (cfg : Part) (get : Nat → Nat → TEntry) (staged : List Nat) : Option (Nat × Nat) :=
  let rl := reach get cfg.pages 5 [(0, 5)]
  let pages := ((staged ++ rl.map (·.1)).eraseDups).mergeSort
  pages.findSome? (fun p =>
    (firstIdx (fun i =>
      let e := get p i
      (staged.contains p && !entryOk cfg e) || (rl.filter (fun x => x.1 == p)).any (fun x => !levelOk e x.2)) 256 0).map
      (fun i => (p, i)))

/-- Whether two extents share a local byte. -/
def overlap (a la b lb : Nat) : Bool := decide (a < b + lb) && decide (b < a + la)

end Sys2Proof.Machine
end

