-- ==== Sys2Proof/Machine/Regions.lean ====
section
/-!
DEFINITION. The region table (R60 to R77, spec/02_addressing_and_regions.md): entries and keys, registration, the check at the
target, closing and revocation; and Grotto blocks (R84 to R90, R538, spec/03_grotto_memory.md): allocation and release.
-/
namespace Sys2Proof.Machine

/-! ### Entries and keys -/

/-- A region entry of a newly built table: CLOSED with GEN 1 (R71). -/
def Region.fresh : Region := ⟨0, 0, false, false, false, false, 0, .closed, 1, 0, 0, 0, false, none, []⟩

def State.region (s : State) (i : Nat) : Region := Tbl.get Region.fresh s.xl.rgn i
def State.setRegion (s : State) (i : Nat) (x : Region) : State := { s with xl := { s.xl with rgn := Tbl.set Region.fresh s.xl.rgn i x } }

/-- A region key (R60). -/
def keyOf (gen idx : Nat) : Nat := gen * 2 ^ 19 + idx
def keyGen (k : Nat) : Nat := bitsN k 19 13
def keyIdx (k : Nat) : Nat := bitsN k 0 19

/-- Whether an index exists: on the ZQX-9064 only those with bit 0 clear (R62). -/
def State.rgnExists (s : State) (i : Nat) : Bool := !s.half || i % 2 == 0

/-- The closing generation of a CLOSING entry (R72). -/
def Region.closingGen (x : Region) : Nat := if x.retire then x.gen else x.gen - 1

/-- The entries a partition holds OPEN or CLOSING (R65, R398). -/
def State.regionsHeld (s : State) (p : Nat) : Nat :=
  (s.xl.rgn.filter (fun e => e.2.owner == p && (e.2.state == .open || e.2.state == .closing))).length

/-- The CLOSED entry of a die that was closed longest ago, ties by index (R66). -/
def State.oldestClosed (s : State) (die : Nat) : Option Nat :=
  match firstIdx (fun k => (s.region (2 * k + die)).state == .closed && (s.region (2 * k + die)).seq == 0) 262144 0 with
  | some k => some (2 * k + die)
  | none =>
    let l := s.xl.rgn.filter (fun e => e.1 % 2 == die && e.2.state == .closed)
    (l.foldl (fun (m : Option (Nat × Nat)) e => match m with
      | none => some (e.2.seq, e.1)
      | some b => if e.2.seq < b.1 then some (e.2.seq, e.1) else some b) none).map (·.2)

/-- Entries of a die in a state, for the RGN_ status registers (R80). -/
def State.rgnCount (s : State) (die : Nat) (st : RgnState) : Nat :=
  (s.xl.rgn.filter (fun e => e.1 % 2 == die && e.2.state == st)).length

/-! ### Closing (R71 to R76) -/

/-- The end of a closing: CLOSED, behind every entry closed before it, or RETIRED (R66, R71, R77). -/
def State.endClosing (s : State) (i : Nat) : State :=
  let x := s.region i
  let seq := s.xl.rgnSeq + 1
  let y := { x with state := if x.retire then .retired else .closed, busy := 0, seq := seq }
  let s := s.setRegion i y
  { s with xl := { s.xl with rgnSeq := seq } }

/-- An OPEN entry goes to CLOSING (R71): GEN increments, or the entry will go to RETIRED (R77). -/
def State.beginClosing (s : State) (i : Nat) (revoker : Option Nat) : State :=
  let x := s.region i
  s.setRegion i { x with
    state := .closing, retire := decide (x.gen = 8191), gen := if x.gen = 8191 then x.gen else x.gen + 1
    revoker := revoker, waiters := [] }

/-- A REVOKE ends: the entry's present closing, which may be a later one, forgets only that command (R72, R75). -/
def State.leaveClosing (s : State) (i r : Nat) : State :=
  let x := s.region i
  s.setRegion i { x with revoker := if x.revoker = some r then none else x.revoker, waiters := x.waiters.erase r }

/-- The commands waiting on an entry that has closed, and the entry without them. -/
def State.clearWaiters (s : State) (i : Nat) : State :=
  let x := s.region i
  s.setRegion i { x with revoker := none, waiters := [] }

/-- A reset closes an entry at once: CLOSED or RETIRED, recorded in RGN_ABORT_LOG when it was CLOSING; the REVOKE that began the
closing ends with ABORTED_CLOSED, those that waited with SUCCESS (R71, R74, R75). -/
def State.abortRegion (s : State) (i : Nat) : State :=
  let x := s.region i
  match x.state with
  | .open => (s.beginClosing i none).endClosing i
  | .closing =>
    let s := (s.endClosing i).clearWaiters i
    let s := s.setReg .RGN_ABORT_LOG 0 0 (word (2 ^ 63 + i * 2 ^ 32 + (s.fld F.RGN_ABORT_LOG_COUNT + 1) % 2 ^ 32))
    let s := match x.revoker with
      | some r => s.finishAdm r Stat.ABORTED_CLOSED
      | none => s
    x.waiters.foldl (fun s r => s.finishAdm r (if x.revoker.isSome then Stat.ABORTED_CLOSED else Stat.SUCCESS)) s
  | _ => s

/-- A link loss closes an entry at once: a REVOKE in progress completes with SUCCESS (R71, R134). -/
def State.lossRegion (s : State) (i : Nat) : State :=
  let x := s.region i
  match x.state with
  | .open => (s.beginClosing i none).endClosing i
  | .closing => (x.revoker.toList ++ x.waiters).foldl (fun s r => s.finishAdm r Stat.SUCCESS) ((s.endClosing i).clearWaiters i)
  | _ => s

/-- One accepted packet fewer (R68): the last one of a CLOSING entry closes it (R71). The commands that wait are completed by
their own event (REVOKE_DONE). -/
def State.uncountRegion (s : State) (i : Nat) : State :=
  let x := s.region i
  let s := s.setRegion i { x with busy := x.busy - 1 }
  if x.state == .closing && x.busy ≤ 1 then s.endClosing i else s

def State.countRegion (s : State) (i : Nat) : State :=
  let x := s.region i
  s.setRegion i { x with busy := x.busy + 1 }

/-! ### The check at the target (R68) -/

/-- What the region check answers. -/
inductive Checked where
  | ok (idx : Nat)
  | nak (reason : Nat)
  deriving DecidableEq, Repr

/-- R68 from the incarnation test on: a request's incarnation, key, local address and length, and what it needs. -/
def State.regionCheck (s : State) (inc key addr len : Nat) (nr nw na : Bool) : Checked :=
  let i := keyIdx key
  let e := s.region i
  if inc ≠ s.nv.inc then .nak Nk.REVOKED
  else if !s.rgnExists i then .nak Nk.DENIED
  else if e.state ≠ .open ∨ keyGen key ≠ e.gen then .nak Nk.REVOKED
  else if (nr && !e.r) || (nw && !e.w) || (na && !e.a) then .nak Nk.DENIED
  else if addr < e.base ∨ e.base + e.pages * 4096 < addr + len then .nak Nk.DENIED
  else .ok i

/-- A refusal is counted in RGN_NAK_COUNT (R80). -/
def State.countNak (s : State) (reason : Nat) : State :=
  if reason = Nk.REVOKED then s.count F.RGN_NAK_COUNT_REVOKED
  else if reason = Nk.DENIED then s.count F.RGN_NAK_COUNT_DENIED else s

/-! ### Blocks (R84, R538) -/

/-- Whether a stack can give blocks: it serves. -/
def State.stackServes (s : State) (k : Nat) : Bool := (s.stack k).state == .serving

/-- The lowest FREE block of a stack at or above a block number. -/
def State.freeBlk (s : State) (k i : Nat) : Option Nat :=
  if s.stackServes k then firstIdx (fun b => (s.blk (physBlk k b)).state == .free) (65536 - i) i else none

/-- The FREE blocks of a stack. -/
def State.freeCount (s : State) (k : Nat) : Nat :=
  if s.stackServes k then 65536 - (s.pool.blks.filter (fun e => e.1 / 65536 == k && e.2.state != .free)).length else 0

def State.freeOn (s : State) (ks : List Nat) : Nat := (ks.map s.freeCount).foldl (· + ·) 0

/-- Take n blocks in turn around the stacks (R538): one from each in ascending number, skipping a stack without FREE blocks; from
each its lowest-numbered FREE block. `next` is the rest of the current turn; `from_` where to go on in each stack. The first
number bounds the visits. -/
def State.takeTurn (s : State) (ks : List Nat) : Nat → Nat → List Nat → Tbl Nat → List (Nat × Nat)
  | 0, _, _, _ => []
  | fuel + 1, n, next, from_ =>
    if n = 0 then []
    else match next with
    | [] => State.takeTurn s ks fuel n ks from_
    | k :: rest =>
      match s.freeBlk k (Tbl.get 0 from_ k) with
      | some b => (k, b) :: State.takeTurn s ks fuel (n - 1) rest (Tbl.set 0 from_ k (b + 1))
      | none => State.takeTurn s ks fuel n rest from_

/-- The blocks R538 takes for n blocks from the allowed stacks, as (stack, block); none if there are not enough. -/
def State.takeBlocks (s : State) (ks : List Nat) (n : Nat) : Option (List (Nat × Nat)) :=
  if n ≤ s.freeOn ks then some (s.takeTurn ks ((n + 1) * (ks.length + 2)) n ks []) else none

/-- Give blocks a state and uses, in order. -/
def State.markBlocks (s : State) (st : BlkState) (bs : List (Nat × Nat)) (us : List Use) : State :=
  (bs.zip us).foldl (fun s p => s.setBlk (physBlk p.1.1 p.1.2) ⟨st, p.2⟩) s

/-- Reserve n INTERNAL blocks for the uses `u 0`, `u 1`, … on the allowed stacks. -/
def State.takeInternal (s : State) (ks : List Nat) (n : Nat) (u : Nat → Use) : Option State :=
  (s.takeBlocks ks n).map (fun bs => s.markBlocks .internal bs ((List.range n).map u))

/-- Reserve a mirrored structure (R85, R538): the first copy in turn around the allowed stacks; each second copy likewise from
the stacks of its die other than the one that holds the first copy of the same block. Each block's second copy begins again at the lowest of
them. (log entry 132) -/
def State.takeMirror (s : State) (ks : List Nat) (n : Nat) (u : Nat → Nat → Use) : Option State :=
  (s.takeBlocks ks n).bind (fun bs =>
    let s1 := s.markBlocks .internal bs ((List.range n).map (fun k => u k 0))
    (List.range n).foldl (fun (o : Option State) k => o.bind (fun s =>
      let st := (bs.getD k (0, 0)).1
      (s.takeBlocks (ks.filter (fun x => x != st && stackDie x == stackDie st)) 1).map (fun b => s.markBlocks .internal b [u k 1]))) (some s1))

/-- The kind of a mirrored structure in a MIRROR_SINGLE record (R498), and its other copy. -/
def Use.mirror : Use → Option (Nat × Use)
  | .regionTable d c => some (0, .regionTable d (1 - c))
  | .blockMap d c => some (1, .blockMap d (1 - c))
  | .tablePool p k c => some (2, .tablePool p k (1 - c))
  | .planBody j k c => some (3, .planBody j k (1 - c))
  | _ => Option.none

/-- The stacks of a die, as fitted. -/
def State.dieStacks (s : State) (d : Nat) : List Nat := (List.range s.nStacks).filter (fun k => stackDie k == d)

/-- Zero a block: what scrubbing leaves (R84, R89). -/
def scrubMem (m : List Host.Cell) (b : Nat) : List Host.Cell := m.filter (fun c => c.1 / blkBytes != b)

/-- Marks by physical line (poison, errors not found yet, lines written) go with a block's contents. -/
def scrubPoison (m : Tbl Bool) (b : Nat) : Tbl Bool := m.filter (fun c => c.1 * 64 / blkBytes != b)

/-- Scrub a block and set it FREE (R84); a LOST one stays LOST. (log entry 41) -/
def State.scrubFree (s : State) (b : Nat) : State :=
  if (s.blk b).state == .lost then s
  else
    let s := s.setBlk b Blk.free
    { s with pool := { s.pool with 
      mem := scrubMem s.pool.mem b, poison := scrubPoison s.pool.poison b, bad := scrubPoison s.pool.bad b, wrote := scrubPoison s.pool.wrote b
      ce := Tbl.del s.pool.ce b } }

/-- Release every INTERNAL block whose use satisfies a test. -/
def State.releaseUses (s : State) (p : Use → Bool) : State :=
  (s.pool.blks.filter (fun e => e.2.state == .internal && p e.2.use)).foldl (fun s e => s.scrubFree e.1) s

/-- The blocks a partition holds in Galleries (R88): allocated Gallery blocks it owns. -/
def State.galleryHeld (s : State) (p : Nat) : Nat := (s.pool.gmap.filter (fun e => e.2.alloc && e.2.owner == p)).length

/-- The blocks of its Galleries and group areas together, which BLOCKS limits (R398). -/
def State.blocksHeld (s : State) (p : Nat) : Nat :=
  s.galleryHeld p + ((s.col.groups.filter (fun e => e.2.state != .free && e.2.part == p)).map (fun e => e.2.area)).foldl (· + ·) 0

/-- A run of n Gallery block numbers that is unallocated, chosen freely (R86, R88); none when no run is free. -/
def State.galleryRuns (s : State) (n : Nat) : List Nat :=
  allIdx (fun b => (List.range n).all (fun i => !(s.gblk (b + i)).alloc)) (2097152 + 1 - n) 0

end Sys2Proof.Machine
end

