-- ==== Sys2Proof/Machine/Grotto.lean ====
section
/-!
DEFINITION. Access to Gallery memory (R87, R91, R97 to R105, spec/03_grotto_memory.md): lines, at-rest encryption, poison,
corrected errors, and the near-memory atomics.
-/
namespace Sys2Proof.Machine

/-! ### Lines -/

/-- The Gallery key a block-map entry names (R105, R469). -/
def State.xtsKey (s : State) (k : Nat) : List Byte := Tbl.get [] s.pool.xtsKeys k

/-- The plaintext of a 64 B line at a Gallery line address. A line under XTS that nothing has written since its block was handed out reads
zero (R89). (log entry 130) -/
def State.gLine (s : State) (g : Nat) : List Byte :=
  let raw := s.memRead (s.galleryPhys g) 64
  let b := s.gblk (g / blkBytes)
  if b.xts && Tbl.get false s.pool.wrote (s.galleryPhys g / 64) then Config.xtsDec (s.xtsKey b.key) g raw else raw

/-- Store the plaintext of a line. -/
def State.gPutLine (s : State) (g : Nat) (bs : List Byte) : State :=
  let b := s.gblk (g / blkBytes)
  let p := s.galleryPhys g
  if b.xts then
    let s := { s with pool := { s.pool with wrote := Tbl.put s.pool.wrote (p / 64) true } }
    s.memWrite p (Config.xtsEnc (s.xtsKey b.key) g bs)
  else s.memWrite p bs

/-- The line addresses a range touches. -/
def linesOf (g len : Nat) : List Nat :=
  if len = 0 then [] else (List.range ((g + len - 1) / 64 - g / 64 + 1)).map (fun k => (g / 64 + k) * 64)

/-- Lines of the stacks a range of memory reads or writes, as the counters see them: event 0x30 by stack (R509), and SEC_COUNT 3 for
a line under XTS. -/
def State.useLines (s : State) (a len : Nat) : State :=
  let gallery := winOf a != 3
  (linesOf (bitsN a 0 48) len).foldl (fun s l =>
    let phys := if gallery then s.galleryPhys l else l
    let s := s.event 0x30 (phys / blkBytes / 65536) 1
    if gallery && (s.gblk (l / blkBytes)).xts then s.count F.SEC_COUNT_COUNT 3 else s) s

/-- Bytes of Gallery memory. -/
def State.gRead (s : State) (g len : Nat) : List Byte := slice ((linesOf g len).flatMap s.gLine) (g % 64) len

/-- Whether a line is poisoned (R102) or its block lost (R109). -/
def State.linePoisoned (s : State) (g : Nat) : Bool :=
  (s.gblk (g / blkBytes)).state == .lost || s.blkLost (s.galleryPhys g / blkBytes)
    || Tbl.get false s.pool.poison (s.galleryPhys g / 64)

/-- The first poisoned line a range touches. -/
def State.firstPoison (s : State) (g len : Nat) : Option Nat := (linesOf g len).find? s.linePoisoned

/-- The first poisoned line of a run of INTERNAL memory, by physical address. -/
def State.physPoison (s : State) (a len : Nat) : Option Nat :=
  (linesOf a len).find? (fun l => s.blkLost (l / blkBytes) || Tbl.get false s.pool.poison (l / 64))

/-- A poisoned line of a local range of the stacks: its Gallery address, or 0 in INTERNAL memory, which the model names by window 3
and the physical address (log entry 9). -/
def State.mPoison (s : State) (a len : Nat) : Option Nat :=
  if winOf a = 3 then (s.physPoison (bitsN a 0 48) len).map (fun _ => 0) else s.firstPoison (bitsN a 0 48) len

/-- Bytes of a local range of the stacks. -/
def State.mRead (s : State) (a len : Nat) : List Byte :=
  if winOf a = 3 then s.memRead (bitsN a 0 48) len else s.gRead (bitsN a 0 48) len

/-- The poisoned line that a write would cover only in part (R102). Of a LOST block no line can be written, not even whole: it is answered as a
poisoned one (R109 step 4). (log entry 131) -/
def State.partPoison (s : State) (g len : Nat) : Option Nat :=
  (linesOf g len).find? (fun l => s.linePoisoned l
    && ((s.gblk (l / blkBytes)).state == .lost || s.blkLost (s.galleryPhys l / blkBytes) || decide (l < g) || decide (g + len < l + 64)))

/-- Whole lines have been written, by physical line: their check symbols are new, and they are poisoned no more (R83, R102). -/
def State.fresher (s : State) (ls : List Nat) : State :=
  { s with pool := { s.pool with
    poison := ls.foldl (fun t l => Tbl.set false t l false) s.pool.poison, bad := ls.foldl Tbl.del s.pool.bad } }

/-- Write one line's share of a byte string; a whole line clears its poison (R102). (log entry 39) -/
def State.gWriteLine (s : State) (g : Nat) (bs : List Byte) (l : Nat) : State :=
  let old := s.gLine l
  let new := (List.range 64).map (fun i => if g ≤ l + i ∧ l + i < g + bs.length then bs.getD (l + i - g) 0 else old.getD i 0)
  let s := s.gPutLine l new
  if g ≤ l ∧ l + 64 ≤ g + bs.length then s.fresher [s.galleryPhys l / 64] else s

/-- Write Gallery memory. -/
def State.gWrite (s : State) (g : Nat) (bs : List Byte) : State :=
  let s := s.useLines g bs.length
  (linesOf g bs.length).foldl (fun s l => s.gWriteLine g bs l) s

/-- Write INTERNAL memory: a whole line clears its poison (R102). -/
def State.physWrite (s : State) (a : Nat) (bs : List Byte) : State :=
  let full := (linesOf a bs.length).filter (fun l => decide (a ≤ l) && decide (l + 64 ≤ a + bs.length))
  ((s.useLines (3 * 2 ^ 48 + a) bs.length).memWrite a bs).fresher (full.map (fun l => l / 64))

/-- Write a local range of the stacks. -/
def State.mWrite (s : State) (a : Nat) (bs : List Byte) : State :=
  if winOf a = 3 then s.physWrite (bitsN a 0 48) bs else s.gWrite (bitsN a 0 48) bs

/-- A snoop of a Gallery line through a port (R91, R93): a dirty copy of its cache is taken, written back to Grotto, and left clean there.
Whether it holds one, and its bytes, are free. (log entry 38) -/
def State.snoop (s : State) (n l : Nat) : State :=
  let k := s.free
  let s := ({ s with free := k + 1 } : State).emit (.snoop (1 + n) l)
  if Config.snoopDirty k then s.gWriteLine l ((List.range 64).map (Config.freeByte k)) l else s

/-- The snoops of a SHARED line through the ports of its share mask but one (R91, R127). -/
def State.snoopLine (s : State) (l but : Nat) : State :=
  let b := s.biasOf (l / 4096)
  if b.shared then ((maskBits b.mask 16).filter (fun n => n != but)).foldl (fun s n => s.snoop n l) s else s

/-- The snoops an access of SHARED lines sends through every port of the share mask before the read (R91). -/
def State.snoops (s : State) (g len : Nat) : State := (linesOf g len).foldl (fun s l => s.snoopLine l 16) s

/-! ### Errors in stored data (R101, R102) -/

def Group.none : Group := ⟨.free, 0, 0, 0, 0⟩

/-- The Gallery address of a physical line, if a Gallery block maps to it. -/
def State.lineGallery (s : State) (line : Nat) : Option (Nat × GBlk) :=
  (s.pool.gmap.find? (fun e => e.2.alloc && physBlk e.2.stack e.2.block == line * 64 / blkBytes)).map
    (fun e => (e.1 * blkBytes + line * 64 % blkBytes, e.2))

/-- One line in which ECC found an error: corrected and counted (R101), or poisoned, logged and reported (R102). A line of a
mirrored structure is read from its other copy (R85). -/
def State.eccLine (s : State) (h : EccHit) : State :=
  let b := h.line * 64 / blkBytes
  let k := b / 65536
  let st := s.stack k
  if h.corrected then
    let s := s.setStack k { st with ce := satAdd st.ce 1 32 }
    { s with pool := { s.pool with ce := Tbl.set 0 s.pool.ce b (Tbl.get 0 s.pool.ce b + 1) } }
  else
    let s := s.setStack k { st with ue := satAdd st.ue 1 16 }
    match s.lineGallery h.line with
    | none =>
      match (s.blk b).use with
      | .groupArea g _ =>
        let s := { s with pool := { s.pool with poison := Tbl.set false s.pool.poison h.line true } }
        s.faultP (Tbl.get Group.none s.col.groups g).part 2 0x20 k 0 0
      | .staging _ => { s with pool := { s.pool with poison := Tbl.set false s.pool.poison h.line true } }
      | .sample _ => { s with pool := { s.pool with poison := Tbl.set false s.pool.poison h.line true } }
      | _ => s
    | some (g, e) =>
      let s := { s with pool := { s.pool with poison := Tbl.set false s.pool.poison h.line true } }
      let s := s.setReg .GRT_POISON_LOG 0 0 (word (2 ^ 63 + g / 64 % 2 ^ 42 * 64))
      s.faultP e.owner 2 0x20 k g 0

/-- Begin to move a block (R103): to a FREE block of another stack of either die; a copy of a mirrored structure away from the other
copy, and on its die where that has room (R85). None when there is no FREE block. -/
def State.startMove (s : State) (b : Nat) : Option State :=
  let k := b / 65536
  let others := (List.range s.nStacks).filter (fun x => x != k)
  let kss := match (s.blk b).use.mirror with
    | none => [others]
    | some (_, v) =>
      let far := others.filter (fun x => (s.useBlk v).all (fun c => c / 65536 != x))
      [far.filter (fun x => stackDie x == stackDie k), far]
  (kss.findSome? (fun ks => s.takeBlocks ks 1)).bind (fun bs => (bs.head?).map (fun t =>
    let d := physBlk t.1 t.2
    let s := s.setBlk d { s.blk b with use := .none }
    { s with pool := { s.pool with migr := Tbl.put s.pool.migr b ⟨b, d⟩ } }))

/-- Whether a block can be migrated: it holds something, and is not on its way yet. -/
def State.movable (s : State) (b : Nat) : Bool :=
  !Tbl.has s.pool.migr b && ((s.blk b).state == .gallery || ((s.blk b).state == .internal && (s.blk b).use != .none))

/-- A block whose corrected-error count has reached CE_LIMIT begins its migration (R103), or a fault record says that no block is FREE. -/
def State.maybeMigrate (s : State) (b : Nat) : State :=
  let n := s.fld F.GRT_EVAC_CFG_CE_LIMIT
  if s.flag F.GRT_EVAC_CFG_AUTO && n != 0 && decide (n ≤ Tbl.get 0 s.pool.ce b) && s.movable b then
    (s.startMove b).getD (s.faultL 2 0x21 (b / 65536) (b % 65536) 0)
  else s

/-- Migrate what still lies on a stack that is EVACUATING (R104); a block for which there is no room stays, with a fault record the first
time. -/
def State.evacuate (s : State) (k : Nat) (first : Bool) : State :=
  if (s.stack k).state ≠ .evacuating then s
  else
    let bs := (s.pool.blks.filter (fun e => e.1 / 65536 == k && s.movable e.1)).map (·.1)
    bs.foldl (fun s b => (s.startMove b).getD (if first then s.faultL 2 0x21 k (b % 65536) 0 else s)) s

/-- Space has appeared: the stacks that are EVACUATING go on (R104). -/
def State.evacuateAll (s : State) : State := (List.range s.nStacks).foldl (fun s k => s.evacuate k false) s

/-- What the ECC found in a line, and what follows. -/
def State.eccFound (s : State) (h : EccHit) : State := (s.eccLine h).maybeMigrate (h.line * 64 / blkBytes)

/-- Whether commands read a block's lines by address. The tables and plan bodies are read whenever the adapter works (R85). -/
def Use.byLine : Use → Bool
  | .none => true
  | .groupArea _ _ => true
  | .staging _ => true
  | .sample _ => true
  | _ => false

/-- Errors that have come about in stored lines (R83): found at once in tables and plan bodies, else when the line is next read. (log
entry 129) -/
def State.struck (s : State) (hs : List EccHit) : State :=
  hs.foldl (fun s h =>
    if (s.blk (h.line * 64 / blkBytes)).use.byLine then { s with pool := { s.pool with bad := Tbl.put s.pool.bad h.line h.corrected } }
    else s.eccFound h) s

/-- The ECC check of the lines of a range of the stacks, as they are read (R83, R101, R102). -/
def State.checked (s : State) (a len : Nat) : State :=
  (linesOf (bitsN a 0 48) len).foldl (fun s l =>
    let p := (if winOf a = 3 then l else s.galleryPhys l) / 64
    match Tbl.find s.pool.bad p with
    | some c => ({ s with pool := { s.pool with bad := Tbl.del s.pool.bad p } } : State).eccFound ⟨p, c⟩
    | none => s) s

/-- The lines that writes cover only in part are read first. -/
def State.checkedParts (s : State) (parts : List (Nat × List Byte)) : State :=
  parts.foldl (fun s x =>
    let g := bitsN x.1 0 48
    let part (l : Nat) : Bool := decide (l < g) || decide (g + x.2.length < l + 64)
    if winOf x.1 = 1 then ((linesOf g x.2.length).filter part).foldl (fun s l => s.checked (2 ^ 48 + l) 64) s else s) s

/-! ### Near-memory atomics (R97, R98) -/

/-- The exact value of a finite FP32 bit pattern, in units of 2^−149. -/
def f32Int (b : Nat) : Int :=
  let e := bitsN b 23 8
  let m := bitsN b 0 23
  let v : Int := if e = 0 then (m : Int) else ((m + 2 ^ 23 : Nat) : Int) * 2 ^ (e - 1)
  if bitsN b 31 1 = 1 then -v else v

def f32NaN (b : Nat) : Bool := bitsN b 23 8 == 255 && bitsN b 0 23 != 0
def f32Inf (b : Nat) : Bool := bitsN b 23 8 == 255 && bitsN b 0 23 == 0

/-- Round a magnitude in units of 2^−149 to FP32, nearest even; an infinity beyond the largest finite value. -/
def f32Round (neg : Bool) (n : Nat) : Nat :=
  let sign := b2n neg * 2 ^ 31
  if n < 2 ^ 24 then sign + (if n < 2 ^ 23 then n else 2 ^ 23 + (n - 2 ^ 23))
  else
    let sh := Nat.log2 n - 23
    let q := n / 2 ^ sh
    let r := n % 2 ^ sh
    let h := 2 ^ (sh - 1)
    let q := if h < r ∨ (r = h ∧ q % 2 = 1) then q + 1 else q
    let e := if q = 2 ^ 24 then sh + 2 else sh + 1
    let m := if q = 2 ^ 24 then 0 else q - 2 ^ 23
    if 255 ≤ e then sign + 0x7F800000 else sign + e * 2 ^ 23 + m

/-- The FP32 sum of R98: rounded once to nearest even, subnormals kept. -/
def f32Add (a b : Nat) : Nat :=
  if f32NaN a || f32NaN b then 0x7FC00000
  else if f32Inf a && f32Inf b then (if a = b then a else 0x7FC00000)
  else if f32Inf a then a
  else if f32Inf b then b
  else
    let v := f32Int a + f32Int b
    if v = 0 then (if bitsN a 31 1 = 1 ∧ bitsN b 31 1 = 1 then 2 ^ 31 else 0) else f32Round (decide (v < 0)) v.natAbs

/-- The order of FP32 bit patterns with −0 below +0. -/
def f32Key (b : Nat) : Nat := if bitsN b 31 1 = 1 then 2 ^ 32 - 1 - b else b + 2 ^ 31

/-- The stored result of an atomic (R97, R98): code, old value, operand (swap value), compare value. -/
def atomicNew (op old opnd comp : Nat) : Nat :=
  match op with
  | 1 => (old + opnd) % 2 ^ 64
  | 2 => if old = comp then opnd else old
  | 3 => f32Add old opnd
  | 4 => if signed old 64 ≤ signed opnd 64 then old else opnd
  | 5 => if signed opnd 64 ≤ signed old 64 then old else opnd
  | 6 => min old opnd
  | 7 => max old opnd
  | 8 => if f32NaN old || f32NaN opnd then 0x7FC00000 else if f32Key old ≤ f32Key opnd then old else opnd
  | 9 => if f32NaN old || f32NaN opnd then 0x7FC00000 else if f32Key opnd ≤ f32Key old then old else opnd
  | _ => old

/-- What the controller does before an atomic on a Gallery word (R99): the snoops, with the dirty copies they bring, and the ECC check. -/
def State.atomicRead (s : State) (g op : Nat) : State := (s.snoops g (aopSize op)).checked (2 ^ 48 + g) (aopSize op)

/-- Execute an atomic on a Gallery word: the old value and the state with the result stored (R97, R99). -/
def State.gAtomic (s : State) (g op opnd comp : Nat) : Nat × State :=
  let n := aopSize op
  let old := leNat (s.gRead g n)
  (old, s.gWrite g (leBytes n (atomicNew op old (opnd % 256 ^ n) comp)))

/-- Make the stacks apply every placement that reached them before this access (R29). -/
def State.land (s : State) : State :=
  let go (s : State) (p : Nat × Placement) : State :=
    if p.2.landed then s
    else
      let s := p.2.parts.foldl (fun s x => if (linkOf x.1).isNone then s.mWrite x.1 x.2 else s) s
      { s with io := { s.io with places := Tbl.put s.io.places p.1 { p.2 with landed := true } } }
  s.io.places.foldl go s

end Sys2Proof.Machine
end

