-- ==== Sys2Proof/Machine/Links.lean ====
section
/-!
DEFINITION. Reading and writing local memory (R26, R119 to R131, spec/04_host_and_accelerator_ports.md): gathering a byte stream
from Gallery memory and links, and placing bytes.
-/
namespace Sys2Proof.Machine

/-- What gathering yields: the bytes, or a status with its DATA. -/
inductive Got where
  | bytes (b : List Byte)
  | bad (status data : Nat)
  deriving DecidableEq, Repr

/-- The link of an extent of this adapter, if it lies behind one. -/
def Extent.link (e : Extent) : Option Nat := linkOf e.addr

/-- The links a list of extents lies behind. -/
def linksOf (es : List Extent) : List Nat := (es.filterMap Extent.link).eraseDups

/-- Start the reads of a gathering operation: Gallery pieces are read at once, pieces behind links are asked for (at most
4,096 B a request is a matter of the link layer: one piece is one read here). -/
def State.gatherReads (s : State) (part b : Nat) : Nat → List Extent → List (Option (List Byte)) → State × List (Option (List Byte))
  | _, [], acc => (s, acc.reverse)
  | k, e :: es, acc =>
    match e.link with
    | some _ => State.gatherReads (s.issueRead (s.locOf part e.addr) e.len (.piece b k)) part b (k + 1) es (none :: acc)
    | none => State.gatherReads s part b (k + 1) es (some (s.mRead e.addr e.len) :: acc)

/-- Gather the bytes of extents of this adapter, on a partition's behalf. Gallery memory answers at once (a poisoned line with
MEMORY_ERROR and its address, R102); extents behind links are read and the operation goes on when the last read has come. -/
def State.gather (s : State) (part : Nat) (es : List Extent) (why : Why) : State × Option Got :=
  let s := s.land
  let s := es.foldl (fun s e => if winOf e.addr = 1 then s.snoops (bitsN e.addr 0 48) e.len else s) s
  let s := es.foldl (fun s e => if e.link.isNone then (s.useLines e.addr e.len).checked e.addr e.len else s) s
  match es.findSome? (fun e => if e.link.isNone then s.mPoison e.addr e.len else none) with
  | some g => (s, some (.bad Stat.MEMORY_ERROR g))
  | none =>
    if (linksOf es).isEmpty then (s, some (.bytes (es.flatMap (fun e => s.mRead e.addr e.len))))
    else
      let x := s.fresh
      let y := x.2.gatherReads part x.1 0 es []
      (y.1.putBuild x.1 ⟨y.2, why, none⟩, none)

/-- Lay bytes over extents: the writes, as local addresses with their bytes. -/
def layOut : List Extent → List Byte → List (Nat × List Byte)
  | [], _ => []
  | e :: es, bs => (e.addr, bs.take e.len) :: layOut es (bs.drop e.len)

/-- A posted write on a partition's behalf to a local address behind a link; none is issued where the far side does not serve the partition
(R120). -/
def State.linkPut (s : State) (part a : Nat) (bs : List Byte) : State :=
  if s.vfOk ((linkOf a).getD 0) part then s.emit (.linkWrite (s.locOf part a) bs) else s

/-- Whether a placement's writes wait on a link for its acceptance (R26). -/
def State.putsOn (s : State) (l : Nat) : Bool := s.io.places.any (fun e => e.2.parts.any (fun p => linkOf p.1 == some l))

/-- The link a posted write leaves on. -/
def Egress.posted : Egress → Option Nat
  | .linkWrite loc _ => some loc.link
  | .msix l _ _ _ _ => some l
  | _ => none

/-- A posted write joins those that wait on a link: the first of them starts the stall time (R133). -/
def State.putWaits (s : State) (l : Nat) : State := if s.putsOn l then s else s.modLink l (fun x => { x with acceptAt := s.now })

/-- Begin a placement: its writes behind links are issued (posted, Relaxed Ordering allowed, R121); its Gallery writes wait for
the controller. -/
def State.place (s : State) (part : Nat) (parts : List (Nat × List Byte)) (region : Option Nat) (why : PlaceWhy)
    (at0 : Option Nat := none) : State :=
  let x := s.fresh
  let s := parts.foldl (fun s p => if (linkOf p.1).isSome then s.linkPut part p.1 p.2 else s) x.2
  let s := (parts.filterMap (fun p => linkOf p.1)).foldl State.putWaits s
  { s with io := { s.io with places := Tbl.put s.io.places x.1 ⟨parts, region, part, why, false, at0⟩ } }

/-- The links a placement's writes went out on. -/
def Placement.links (p : Placement) : List Nat := (p.parts.filterMap (fun x => linkOf x.1)).eraseDups

/-- A placement meets R26: its Gallery writes are applied, its links have accepted their writes, and it leaves the table. -/
def State.placed (s : State) (id : Nat) (p : Placement) : State :=
  let s := if p.landed then s
    else p.parts.foldl (fun s x => if (linkOf x.1).isNone then s.mWrite x.1 x.2 else s) s
  p.links.foldl (fun s l => s.modLink l (fun x => { x with acceptAt := s.now })) { s with io := { s.io with places := Tbl.del s.io.places id } }

/-- The write of an admin command's RESULT, before its completion (R174): Gallery parts at once, link parts as posted writes. -/
def State.writeResult (s : State) (part : Nat) (es : List Extent) (bs : List Byte) : State :=
  (layOut es bs).foldl (fun s x =>
    if (linkOf x.1).isNone then s.mWrite x.1 x.2 else s.linkPut part x.1 x.2) s

/-- A write to a host address named in full (R119). -/
def State.writeHost (s : State) (addr : Nat) (bs : List Byte) : State := s.emit (.linkWrite ⟨0, 0, addr⟩ bs)

/-- Read host memory by its full address; the bytes come to an admin command's next stage. -/
def State.readHost (s : State) (addr len : Nat) (why : Why) : State :=
  let x := s.fresh
  (x.2.putBuild x.1 ⟨[none], why, none⟩).issueRead ⟨0, 0, addr⟩ len (.piece x.1 0)

end Sys2Proof.Machine
end

