-- ==== Sys2Proof/Machine/Route.lean ====
section
/-!
DEFINITION. Topology, coordinates and the direction tables (R277 to R281, spec/08_fabric_links_and_routing.md).
-/
namespace Sys2Proof.Machine

/-- K_d (R277). -/
def State.ringSize (s : State) (d : Nat) : Nat := s.fld F.SWT_TOPO_SIZE_M1 d + 1

/-- The product of the sizes of the dimensions below d. -/
def State.dimBase (s : State) (d : Nat) : Nat := ((List.range d).map s.ringSize).foldl (· * ·) 1

/-- The coordinate of node n in dimension d (R277). -/
def State.coord (s : State) (d n : Nat) : Nat := n / s.dimBase d % s.ringSize d

/-- Whether a node ID lies below the product of the sizes (R277). -/
def State.routable (s : State) (n : Nat) : Bool := decide (n < s.dimBase 6)

/-- The direction table's entry for destination coordinate t: 0 none, 1 +, 2 − (R279, R291). -/
def State.dirEntry (s : State) (d t : Nat) : Nat :=
  if t < 32 then bits (s.reg .SWT_DIR_LO d) (2 * t) 2 else bits (s.reg .SWT_DIR_HI d) (2 * (t - 32)) 2

/-- The steps from x to t in a direction around a ring of k. -/
def ringDist (dir k x t : Nat) : Nat := if dir = 1 then (t + k - x % k) % k else (x + k - t % k) % k

/-- The own coordinate in a dimension; 0 without a node ID. -/
def State.ownCoord (s : State) (d : Nat) : Nat := s.coord d (s.node.getD 0)

/-- The open dimensions toward a node (R281). -/
def State.openDims (s : State) (n : Nat) : List Nat := (List.range 6).filter (fun d => s.coord d n != s.ownCoord d)

/-- Whether the direction tables lead to a node (R281). -/
def State.hasRoute (s : State) (n : Nat) : Bool :=
  s.routable n && (s.openDims n).all (fun d => s.dirEntry d (s.coord d n) == 1 || s.dirEntry d (s.coord d n) == 2)

/-- The fabric links on a minimal route to a node, from the route tables (R230). -/
def State.linksTo (s : State) (n : Nat) : Nat :=
  ((s.openDims n).map (fun d => ringDist (s.dirEntry d (s.coord d n)) (s.ringSize d) (s.ownCoord d) (s.coord d n))).foldl (· + ·) 0

/-- The dateline bit of R280: own coordinate x, destination coordinate t. -/
def datelineBit (x t dir k dl : Nat) : Nat := if ringDist dir k x dl < ringDist dir k x t then 0 else 1

/-- The virtual channel of a hop in dimension d (R280). (log entry 49) -/
def State.hopVc (s : State) (cls d n : Nat) : Nat :=
  let dir := s.dirEntry d (s.coord d n)
  let dl := if dir = 1 then s.fld F.SWT_TOPO_DL_PLUS d else s.fld F.SWT_TOPO_DL_MINUS d
  2 * cls + datelineBit (s.ownCoord d) (s.coord d n) dir (s.ringSize d) dl

/-! ### Ports, flits and the credit of an input (R259, R260, R262, R270 to R273) -/

def Port.none : Port :=
  { state := .disabled, reason := 0, version := 0, peerValid := false, peerNode := 0, peerPort := 0, delay := 0, echoes := 0
    minDelay := Option.none, retrains := 0, history := [], ueTimes := [], corrected := 0, uncorrectable := 0, lostFlits := 0
    peerReserve := 0, ownReserve := 0, sent := [], ret := [], rx := [], freed := [], creditAt := 0, healthAt := 0, frameSeen := false
    downAt := Option.none, parseLost := false, rxAt := 0, rxHead := Option.none, rxLeft := 0, rxBytes := [], rxPoison := [], rxSlot := 0, tx := []
    peerCorrected := 0, peerUncorrectable := 0 }

def State.port (s : State) (p : Nat) : Port := Tbl.get Port.none s.sw.ports p
def State.setPort (s : State) (p : Nat) (x : Port) : State := { s with sw := { s.sw with ports := Tbl.set Port.none s.sw.ports p x } }
def State.modPort (s : State) (p : Nat) (f : Port → Port) : State := s.setPort p (f (s.port p))

/-- An output that nothing waits at. -/
def Output.none : Output := ⟨[], [], [], 4, 0, Option.none, [], [], [], 0, Option.none⟩
def State.out (s : State) (o : Nat) : Output := Tbl.get Output.none s.sw.outs o
def State.setOut (s : State) (o : Nat) (x : Output) : State := { s with sw := { s.sw with outs := Tbl.set Output.none s.sw.outs o x } }

/-- A port that carries packets. -/
def Port.carries (x : Port) : Bool := x.state == .up || x.state == .mgtOnly

/-- A link-control flit (R260): TYPE in byte 7, and the bytes from byte 8 on. -/
def ctlFlit (type : Nat) (body : List Byte) : List Byte :=
  List.replicate 7 0 ++ [BitVec.ofNat 8 type] ++ body ++ List.replicate (56 - body.length) 0

/-- The twenty 20-bit counters of CREDIT and AUDIT. -/
def ctrBytes (t : Tbl Nat) : List Byte :=
  leBytes 50 (((List.range 20).map (fun i => Tbl.get 0 t i % 2 ^ 20 * 2 ^ (20 * i))).foldl (· + ·) 0)

/-- Send the codewords of a port whose time is over, or all that hold anything: slots left free carry IDLE flits (R256, R260).
(log entry 123) -/
def State.txFlush (s : State) (p : Nat) (all : Bool) : State :=
  let x := s.port p
  let isOver (k : Nat) : Bool := all || decide ((s.out p).frame0 + ((k + 1 : Nat) : Rat) * 16 / 5 ≤ (s.now : Rat))
  let ks := ((x.tx.map (fun e => e.1 / 10)).eraseDups).filter isOver
  let slots (k : Nat) : List TxSlot := (List.range 10).map (fun i => ((x.tx.find? (fun e => e.1 == 10 * k + i)).map (·.2)).getD TxSlot.idle)
  let s := s.setPort p { x with tx := x.tx.filter (fun e => !isOver (e.1 / 10)) }
  ks.foldl (fun s k =>
    let c := codewordOf (slots k)
    s.emit (.codeword p k c (codewordLanes (Config.scrambler p k) c))) s

/-- Fill the next free slots of a port's stream from a moment on. -/
def State.txPut (s : State) (p : Nat) (m : Rat) (l : List TxSlot) : State :=
  let s := s.txFlush p false
  let x := s.port p
  let at0 := ((m - (s.out p).frame0) * 25 / 8).ceil.toNat
  let at0 := match x.tx.getLast? with
    | some e => max at0 (e.1 + 1)
    | none => at0
  s.setPort p { x with tx := x.tx ++ (List.range' at0 l.length).zip l }

/-- Send a link-control flit (R260). -/
def State.sendFlit (s : State) (p : Nat) (b : List Byte) : State := (s.txPut p (s.now : Rat) [⟨b, false, false, false⟩]).emit (.flit p b)

/-- Send a CREDIT flit (R260). (log entry 53) -/
def State.sendCredit (s : State) (p : Nat) : State :=
  (s.modPort p (fun x => { x with creditAt := s.now })).sendFlit p (ctlFlit 1 (ctrBytes (s.port p).freed))

/-- A count by virtual channel and pool grows. -/
def bump (t : Tbl Nat) (i n : Nat) : Tbl Nat := Tbl.set 0 t i (Tbl.get 0 t i + n)

/-- A packet's flits leave the input buffer it sat in: their credit goes back to the transmitter (R260, R271 to R273). -/
def State.freeIn (s : State) (k : SwPkt) : State :=
  let i := 2 * k.inVc + b2n k.inRes
  let n := k.pkt.flits
  if k.input < 128 then
    let s := s.modPort k.input (fun x => { x with freed := bump x.freed i n })
    if (s.port k.input).carries then s.sendCredit k.input else s
  else if k.input = 130 ∨ k.input = 131 then s.modPort (k.input + 14) (fun x => { x with ret := bump x.ret i n })
  else if 132 ≤ k.input ∧ k.input < 140 then s.modPort (k.input + 4) (fun x => { x with ret := bump x.ret i n })
  else s

end Sys2Proof.Machine
end

