-- ==== Sys2Proof/Machine/Ledger.lean ====
section
/-!
DEFINITION. The RTC (R484) and the defect ledger (R449 to R452, spec/13_startup_configuration_and_security.md).
-/
namespace Sys2Proof.Machine

/-- CRC-32 of IEEE 802.3 (reflected polynomial 0xEDB8_8320). -/
def crc32 (bs : List Byte) : Nat := Nat.xor (crcFold 0xEDB88320 0xFFFFFFFF bs) 0xFFFFFFFF

/-- The RTC's count now, in ticks of 1/32,768 s (R484). -/
def State.rtc (s : State) : Nat := (s.nv.rtc + (s.now - s.nv.rtcAt) * 32768 / 1000000000) % 2 ^ 48

/-- The entries the ledger area holds (R434). -/
def ledgerSlots : Nat := 1015808

/-- A ledger entry (R449). -/
def State.ledgerEntry (s : State) (kind unit cause detail : Nat) : List Word :=
  let ws := [word (5 * 2 ^ 60 + kind % 256 * 2 ^ 52 + unit % 4096 * 2 ^ 40 + cause % 256 * 2 ^ 32 + s.nv.starts % 2 ^ 32), word detail,
    word (s.nv.epoch % 2 ^ 16 * 2 ^ 48 + s.rtc)]
  ws ++ [word (crc32 ((ws.flatMap wordBytes ++ leBytes 4 0).take 28))]

/-- Append a ledger entry (R450); the last erased entry sets FULL with a fault record, and nothing is written after it (R452). -/
def State.ledgerAdd (s : State) (kind unit cause detail : Nat) : State :=
  if ledgerSlots ≤ s.nv.ledger.length then s
  else
    let s := { s with nv := { s.nv with ledger := s.nv.ledger ++ [s.ledgerEntry kind unit cause detail] } }
    let s := (s.setFld F.LAMP_LEDGER_LAST_KIND kind).count F.LAMP_LEDGER_ADDED
    let s := s.setFld F.LAMP_LEDGER_ENTRIES s.nv.ledger.length
    if ledgerSlots ≤ s.nv.ledger.length then
      let s := s.setFld F.LAMP_LEDGER_FULL 1
      s.faultL 5 0x52 0 (s.reg .LAMP_LEDGER).toNat 0
    else s

/-- Whether a unit is named by a ledger entry of its kind (R451). -/
def State.ledgered (s : State) (kind unit : Nat) : Bool :=
  s.nv.ledger.any (fun e => match e with
    | w :: _ => bits w 52 8 == kind && bits w 40 12 == unit
    | [] => false)

end Sys2Proof.Machine
end

