-- ==== Sys2Proof/Machine/Crypt.lean ====
section
/-!
DEFINITION. Encrypted packets (R188, R462 to R466): sealing and opening a packet, which packets carry ENC, and a mismatch of the
two pipelines of a core (R463, R464).
-/
namespace Sys2Proof.Machine

/-- The 96-bit nonce of R188: SRC_NODE, SRC_EPOCH, MSG_ID and PSN from bit 95 downward, zeros below. -/
def gcmNonce (p : Packet) (epoch : Nat) : List Byte :=
  beBytes 12 ((p.src * 2 ^ 59 + epoch * 2 ^ 43 + p.msgId * 2 ^ 11 + p.psn) * 2 ^ 23)

/-- The epoch in the nonce: word 1's, or for a collective packet, which carries none (R349), the sender's as this node knows it
(DEDUCED, log entry 6). -/
def State.nonceEpoch (s : State) (p : Packet) : Nat :=
  if p.type = Pk.COL_DATA then (if s.node = some p.src then s.nv.epoch else (s.mapEntry p.src).epoch) else p.epoch

/-- Encrypt a packet whose payload is plaintext: word 7 zero, the CRC-64 and the tag in the trailer (R184, R188). -/
def State.encrypt (s : State) (key : List Byte) (p : Packet) : Packet :=
  let r := Config.gcmSeal key (gcmNonce p (s.nonceEpoch p)) p.covered (p.pay ++ leBytes 8 (p.crc p.pay))
  { p with
    w7 := 0
    pay := r.1.take p.plen
    trailer := (r.1.drop p.plen).take 8 ++ List.replicate 8 0 ++ r.2.take 16 ++ List.replicate 32 0 }

/-- The key in a partition's slot (R469). -/
def State.slotKey (s : State) (part slot : Nat) : Option (List Byte) := Tbl.find s.sec.tkeys (part * 16 + slot)

/-- The transmit key of a partition: its slot (R469). -/
def State.txSlot (s : State) (part : Nat) : Option Nat := Tbl.find s.sec.tx part

/-- Whether a request of a partition to a node carries ENC, and its KEY_ID (R466). Loopback is counted as the fabric (DEDUCED,
log entry 7). -/
def State.encFor (s : State) (part node : Nat) : Option Nat :=
  if s.overEth node || (s.part part).fabricEnc then s.txSlot part else none

/-- What opening an arriving packet yields: the plaintext; no key in its slot; a tag that fails; a CRC-64 that fails. -/
inductive Opened where
  | ok (plain : List Byte)
  | noKey
  | forged
  | bad
  deriving DecidableEq, Repr

/-- Verify the tag, then the CRC-64 (R190): the plaintext. `part` is the partition the packet is for (R466). (log entry 37) -/
def State.openPacket (s : State) (part : Nat) (p : Packet) : Opened :=
  if p.enc then
    match s.slotKey part p.keyId with
    | none => .noKey
    | some k =>
      match Config.gcmOpen k (gcmNonce p (s.nonceEpoch p)) p.covered (p.pay ++ p.trailer.take 8) ((p.trailer.drop 16).take 16) with
      | none => .forged
      | some pl =>
        let plain := pl.take p.plen
        if (pl.drop p.plen).take 8 == leBytes 8 (p.crc plain) then .ok plain else .bad
  else if p.w7 == word (p.crc p.pay) then .ok p.pay else .bad

/-- The same for a request to a region or queue pair, known or not: one that does not exist has no partition, hence no slot, so a request to
it goes on to the check that refuses it (DEDUCED). -/
def State.openKnown (s : State) (known : Bool) (part : Nat) (p : Packet) : Opened :=
  if p.enc && !known then .ok [] else s.openPacket part p

/-- The mismatch of two GCM pipelines that an event names, for an encrypted packet (R463). -/
def gcmHit (aes : Option AesHit) (p : Packet) : Option AesHit := aes.filter (fun h => !h.xts && p.enc)

/-- An encrypted packet's decryption and a failing tag are counted (SEC_COUNT 1 and 2). -/
def State.countOpen (s : State) (part : Nat) (p : Packet) : State :=
  if !p.enc then s
  else match s.slotKey part p.keyId with
  | none => s
  | some k =>
    let s := s.count F.SEC_COUNT_COUNT 1
    if (Config.gcmOpen k (gcmNonce p (s.nonceEpoch p)) p.covered (p.pay ++ p.trailer.take 8) ((p.trailer.drop 16).take 16)).isNone then
      s.count F.SEC_COUNT_COUNT 2
    else s

/-- A packet encrypted here is counted (SEC_COUNT 0). -/
def State.countSeal (s : State) (p : Packet) : State := if p.enc then s.count F.SEC_COUNT_COUNT 0 else s

/-- The cipher cores of a die (R462). -/
def coreDie (c : Nat) : Nat := c / 16

/-- A core's pipelines disagree (R463): counted, logged, a fault record; at 4 mismatches within 1 s the core leaves service and
is entered in the ledger (R464). MODE: 1 GCM encrypt, 2 GCM decrypt, 3 XTS encrypt, 4 XTS decrypt. -/
def State.coreMiss (s : State) (c mode part : Nat) : State :=
  let s := (s.countSat F.SEC_CIPHER_MISMATCHES).count F.SEC_COUNT_COUNT 4
  let s := s.setReg .SEC_CIPHER_LOG 0 0 (word (2 ^ 63 + c % 32 * 2 ^ 40 + mode % 16 * 2 ^ 36 + part % 64))
  let s := s.faultL 5 0x50 c (s.reg .SEC_CIPHER_LOG).toNat 0
  let ts := (Tbl.get [] s.sec.miss c).filter (fun t => decide (s.now < t + 1000000000)) ++ [s.now]
  let s := { s with sec := { s.sec with miss := Tbl.set [] s.sec.miss c ts } }
  if 4 ≤ ts.length ∧ ¬ s.sec.cores.contains c then
    let s := { s with sec := { s.sec with cores := s.sec.cores ++ [c] } }
    (s.faultL 5 0x51 c ts.length 0).ledgerAdd 0x08 c 3 ts.length
  else s

end Sys2Proof.Machine
end

