-- ==== Sys2Proof/Machine/Transport.lean ====
section
/-!
DEFINITION. The sending side of Kilpin Transport (R179 to R203, R212 to R217, R230 to R239, spec/06_transport.md and spec/07):
flight entries and their rates, messages and their packets, the ends of messages and of descriptors.
-/
namespace Sys2Proof.Machine

/-! ### Flight entries (R193 to R196, R230) -/

def State.setMsgs (s : State) (m : Tbl Msg) : State := { s with tr := { s.tr with msgs := m } }
def State.msg (s : State) (id : Nat) : Option Msg := Tbl.find s.tr.msgs id
def State.putMsg (s : State) (id : Nat) (m : Msg) : State := s.setMsgs (Tbl.put s.tr.msgs id m)
def State.modMsg (s : State) (id : Nat) (f : Msg → Msg) : State :=
  match s.msg id with
  | some m => s.putMsg id (f m)
  | none => s

/-- Free an entry whose last message has ended (R193). -/
def State.freeFlight (s : State) (n : Nat) : State :=
  if s.tr.msgs.any (fun e => e.2.node == n && e.2.kind != .col) then s else s.setFlights (Tbl.del s.tr.flights n)

def State.rtoInit (s : State) : Nat := s.fld F.TRN_RTO_RTO_INIT * 1000
def State.rtoMax (s : State) : Nat := max (s.fld F.TRN_RTO_RTO_MAX * 1000) s.rtoInit
def State.rtoMin (s : State) : Nat := max (s.fld F.TRN_RTO_RTO_MIN) 1000

/-- RTO of an entry, in ns (R195). -/
def State.rto (s : State) (f : Option Flight) : Nat :=
  match f.bind (·.srtt) with
  | none => s.rtoInit
  | some r => min (max s.rtoMin (r + 4 * (((f.map (·.var)).getD 0 : Rat))).ceil.toNat) s.rtoMax

/-- The round-trip times a message's timer follows: its flight entry's, or the collective engine's own (R195, R348). -/
def State.flightFor (s : State) (m : Msg) : Option Flight :=
  if m.kind = .col then Tbl.find s.col.rtt m.node else Tbl.find s.tr.flights m.node

/-- The die whose transport half sends a message (R19, R326). -/
def State.msgDie (s : State) (m : Msg) : Nat := if m.kind = .col then s.dieOf m.plan else s.dieOf m.node

/-- A round-trip sample (R195): RTTVAR first, then SRTT. -/
def Flight.sample (f : Flight) (x : Rat) : Flight :=
  match f.srtt with
  | none => { f with srtt := some x, var := x / 2 }
  | some r => { f with srtt := some (7 / 8 * r + 1 / 8 * x), var := 3 / 4 * f.var + 1 / 4 * (if r ≤ x then x - r else r - x) }

/-- H in ns: TRN_RETRY_HORIZON limited to 400 to 2,000 µs (R221). -/
def State.horizon (s : State) : Nat := min (max (s.fld F.TRN_RETRY_HORIZON_HORIZON) 400) 2000 * 1000

/-- T_PKT in ns (R192). -/
def tPkt : Nat := 70400

/-- The messages begun toward a node that draw on its rate (R194, R232). (log entry 46) -/
def State.begunTo (s : State) (n : Nat) : List Msg :=
  (s.tr.msgs.filter (fun e => e.2.node == n && e.2.begun && !e.2.beacon && e.2.kind != .col && e.2.kind != .mgt)).map (·.2)

/-- f.need: the least rate at which the unsent bytes of the begun messages still depart within H/2 of each message's beginning. -/
def State.flightNeed (s : State) (n : Nat) : Rat :=
  let ms := (s.begunTo n).filter (fun m => m.unsent != 0)
  ms.foldl (fun (r : Rat) m =>
    let due := m.beganAt + m.hz / 2
    let bytes : Nat := ((ms.filter (fun k => k.beganAt + k.hz / 2 ≤ due)).map (·.unsent)).foldl (· + ·) 0
    max r ((bytes : Rat) / ((max 1 (due - s.now) : Nat) : Rat))) 0

def State.rMin (s : State) : Rat := (max 1 (s.fld F.SCH_CC_CFG_R_MIN) : Nat) / (10 : Rat)
def State.rMax (s : State) : Rat := s.fld F.SCH_CC_CFG_R_MAX

/-- The target delay of R230, ns. -/
def State.targetDelay (s : State) (n : Nat) : Rat :=
  if s.overEth n then ((s.fld F.SCH_CC_CFG_TGT_BASE * 10 + s.fld F.SCH_CC_CFG_TGT_ETH * 1000 : Nat) : Rat)
  else ((s.fld F.SCH_CC_CFG_TGT_BASE * 10 + s.fld F.SCH_CC_CFG_TGT_PER_HOP * 10 * s.linksTo n : Nat) : Rat)

def frac256 (n : Nat) : Rat := (n : Rat) / 256

/-- The rate procedure of R230 for an answer with round-trip sample x. -/
def State.rateUpdate (s : State) (n : Nat) (f : Flight) (x : Rat) (mark : Bool) : Flight :=
  let srtt := f.srtt.getD 0
  let target := s.targetDelay n
  let now : Rat := s.now
  let f :=
    if f.hold ≤ now then
      if target < x then
        { f with
          rate := f.rate * max (1 - frac256 (s.fld F.SCH_CC_DECREASE_BETA) * (x - target) / x) (1 - frac256 (s.fld F.SCH_CC_DECREASE_MD_MAX))
          hold := now + srtt }
      else if mark then { f with rate := f.rate * (1 - frac256 (s.fld F.SCH_CC_DECREASE_MD_ECN)), hold := now + srtt }
      else if f.grow ≤ now then { f with rate := f.rate + (s.fld F.SCH_CC_CFG_AI : Nat) / (10 : Rat), grow := now + srtt }
      else f
    else f
  { f with rate := min (max (max f.rate s.rMin) (s.flightNeed n)) s.rMax }

/-- The rate cut on a copy sent again (R230). -/
def State.rateCut (s : State) (n : Nat) (f : Flight) : Flight :=
  let now : Rat := s.now
  if f.hold ≤ now then
    { f with
      rate := max (max (f.rate * (1 - frac256 (s.fld F.SCH_CC_DECREASE_MD_RTO))) s.rMin) (s.flightNeed n)
      hold := now + f.srtt.getD 0 }
  else f

/-- An answer from a node: its round-trip sample, and, for an answer to a message that draws on the rate, the rate (R195, R198,
R230, R232). -/
def State.rttSample (s : State) (node ts : Nat) (mark rated : Bool) : State :=
  match Tbl.find s.tr.flights node with
  | none => s
  | some f =>
    let x : Rat := ((s.now + 2 ^ 48 - ts) % 2 ^ 48 : Nat)
    let f := f.sample x
    s.setFlights (Tbl.put s.tr.flights node (if rated then s.rateUpdate node f x mark else f))

/-! ### Packets of a message (R183, R184) -/

/-- The packets of a transfer of len bytes whose first byte lies at an address (0 for a message in offset order). -/
def cutCount (addr len pshift : Nat) : Nat :=
  let u := 2 ^ pshift
  let first := u - addr % u
  if len ≤ first then 1 else 1 + ceilDiv (len - first) u

/-- Offset and length of packet psn (R183). -/
def cutAt (addr len pshift psn : Nat) : Nat × Nat :=
  let u := 2 ^ pshift
  let first := u - addr % u
  let off := if psn = 0 then 0 else first + (psn - 1) * u
  (off, min (len - off) (if psn = 0 then first else u))

/-- The address a message's packets are cut against. -/
def Msg.cutBase (m : Msg) : Nat := if m.kind = .write ∨ m.kind = .read then m.raddr else 0

/-- The packets a read request can return. -/
def Msg.rspCount (m : Msg) : Nat := cutCount m.raddr m.len m.pshift

/-- Offset and payload length of packet psn of a message; a request without payload has none. -/
def Msg.cut (m : Msg) (psn : Nat) : Nat × Nat :=
  match m.kind with
  | .read => (0, 0)
  | .atomic => (0, 0)
  | _ => cutAt m.cutBase m.len m.pshift psn

/-- The frame around a KT packet on Ethernet: headers, FCS, and SCH_ETH_OVERHEAD (R223, R383). -/
def State.ethLen (s : State) (n : Nat) : Nat :=
  14 + (if s.flag F.ETH_KT_CFG_TAG then 4 else 0) + 48 + n + 4 + s.fld F.SCH_ETH_OVERHEAD_OVERHEAD

/-- The counted length of a packet with a payload toward a node (R223). (log entry 89) -/
def State.countLen (s : State) (node plen : Nat) (enc : Bool) : Nat :=
  let n := 64 * (1 + ceilDiv plen 64 + b2n enc)
  if s.overEth node then s.ethLen n else n

/-- The response packets a read request still waits for (R213). -/
def Msg.missing (m : Msg) : List Nat := (List.range m.rspCount).filter (fun i => !m.acked.contains i && !m.staged.contains i && !m.bad.contains i)

/-- The packets of a message that are neither acknowledged nor given up. -/
def Msg.unacked (m : Msg) : List Nat := (List.range m.npkts).filter (fun i => !m.acked.contains i && !m.bad.contains i)

/-- Whether nothing of a message is waited for any more: its packets, or those of a read request's response. -/
def Msg.over (m : Msg) : Bool := m.acked.length + m.bad.length == (if m.kind = .read then m.rspCount else m.npkts)

/-- What a packet of a message is charged: for a read request, the responses it asks for (R231). -/
def State.charge (s : State) (m : Msg) (psn : Nat) : Nat :=
  let enc := (s.encFor m.part m.node).isSome
  if m.kind = .read then
    (m.missing.map (fun i => s.countLen m.node (cutAt m.raddr m.len m.pshift i).2 enc)).foldl (· + ·) 0
  else s.countLen m.node (m.cut psn).2 enc

/-- The bytes of all first copies. -/
def State.msgBytes (s : State) (m : Msg) : Nat := ((List.range m.npkts).map (s.charge m)).foldl (· + ·) 0

/-- WANT: the packets of a read request still missing (R213). -/
def Msg.want (m : Msg) : Nat := m.missing.foldl (fun w i => w + 2 ^ i) 0

/-- DST_NODE of a message's packets: 0 for whatever is behind a port in state MGT_ONLY (R264). -/
def Msg.dstNode (m : Msg) : Nat := if 65536 ≤ m.node then 0 else m.node

/-- Build a copy of packet psn with its payload (R184). -/
def State.buildPacket (s : State) (id : Nat) (m : Msg) (psn : Nat) (pay : List Byte) : Packet :=
  let own := s.node.getD 0
  let slot := if m.kind = .mgt then none
    else if m.kind = .col then (if (s.part m.part).fabricEnc then s.txSlot m.part else none) else s.encFor m.part m.node
  let enc := slot.isSome
  let key := slot.getD 0
  let w2 := hdr2 id psn pay.length m.pshift (decide (psn + 1 = m.npkts))
  let w5 := hdr5 s.now false 0
  let p : Packet :=
    match m.kind with
    | .write =>
      { Packet.zero with
        w0 := hdr0 m.ver Pk.WRITE_DATA Cls.REQ m.beacon enc m.node own key, w1 := hdr1 s.nv.epoch m.inc m.key, w2 := w2
        w3 := hdr3 m.len 0 0, w4 := word (m.raddr + (m.cut psn).1), w5 := w5 }
    | .send =>
      { Packet.zero with
        w0 := hdr0 m.ver Pk.SEND_DATA Cls.REQ m.beacon enc m.node own key, w1 := hdr1 s.nv.epoch 0 m.key, w2 := w2
        w3 := hdr3 m.len m.qpn m.queue, w4 := m.imm, w5 := w5 }
    | .mgt =>
      { Packet.zero with
        w0 := hdr0 m.ver Pk.MGT_DATA Cls.MGT false false m.dstNode own 0, w1 := hdr1 s.nv.epoch 0 m.key, w2 := w2
        w3 := hdr3 m.len m.qpn 0, w4 := m.imm, w5 := w5 }
    | .read =>
      { Packet.zero with
        w0 := hdr0 m.ver Pk.READ_REQ Cls.REQ m.beacon enc m.node own key, w1 := hdr1 s.nv.epoch m.inc m.key
        w2 := hdr2 id 0 0 m.pshift true, w3 := hdr3 m.len 0 0, w4 := word m.raddr, w5 := w5, w6 := word m.want }
    | .atomic =>
      { Packet.zero with
        w0 := hdr0 m.ver Pk.ATOMIC_REQ Cls.REQ m.beacon enc m.node own key, w1 := hdr1 s.nv.epoch m.inc m.key
        w2 := hdr2 id 0 0 m.pshift true, w3 := m.comp, w4 := word m.raddr, w5 := hdr5 s.now false m.opx, w6 := m.opnd }
    | .col =>
      { Packet.zero with
        w0 := hdr0 m.ver Pk.COL_DATA Cls.COL false enc m.node own key, w1 := m.ctl.getD 0 0, w2 := w2, w3 := m.ctl.getD 1 0
        w4 := word ((m.ctl.getD 2 0).toNat + (m.cut psn).1), w5 := w5, w6 := m.ctl.getD 3 0 }
  let p := { p with pay := pay }
  match slot.bind (s.slotKey m.part) with
  | some k => s.encrypt k p
  | none => { p with w7 := word (p.crc pay) }

/-- A packet on its way into the switch. -/
def SwPkt.ofPacket (p : Packet) (die now len : Nat) : SwPkt :=
  { pkt := p, frame := [], input := 128 + die, inVc := 2 * p.cls, inRes := false, at0 := now, delta := 0, vc := 0, escape := false
    at1 := now, queue := none, len := len, msg := none, psn := p.psn, first := false, paced := false, recId := none, part := 0
    plan := none, route := none, out := none, eject := false, dimIn := none, rel := now, marks := [], built := false, again := false }

def State.setSw (s : State) (x : Sw) : State := { s with sw := x }
def State.setInq (s : State) (i : Nat) (l : List SwPkt) : State := s.setSw { s.sw with inq := Tbl.set [] s.sw.inq i l }
def State.inqOf (s : State) (i : Nat) : List SwPkt := Tbl.get [] s.sw.inq i

/-- A packet built here for no message of its own (an answer): into the switch, or to loopback (R44). -/
def State.sendAnswer (s : State) (p : Packet) (part : Nat) : State :=
  let s := s.countSeal p
  if s.node = some p.dst then s.setSw { s.sw with ejected := s.sw.ejected ++ [(s.now, p)] }
  else
    let d := s.dieOf p.dst
    let len := if s.overEth p.dst then s.ethLen p.len else p.len
    s.setInq (128 + d) (s.inqOf (128 + d) ++ [{ SwPkt.ofPacket p d s.now len with part := part }])

/-! ### The end of messages and descriptors (R160, R161, R179, R200) -/

/-- Take every waiting copy of a message out of the transport engine, the pacers and the outputs. -/
def State.purge (s : State) (id : Nat) : State :=
  let keep (l : List SwPkt) : List SwPkt := l.filter (fun k => k.msg != some id)
  let gone := (s.sw.inq.flatMap (·.2) ++ s.sw.outs.flatMap (fun o => o.2.lists.flatMap (·.2))).filter (fun k => k.msg == some id)
  let s := gone.foldl State.freeIn s
  s.setSw { s.sw with
    inq := Tbl.map (fun _ l => keep l) s.sw.inq
    pacer := Tbl.map (fun _ l => keep l) s.sw.pacer
    outs := Tbl.map (fun _ o => { o with lists := Tbl.map (fun _ l => keep l) o.lists }) s.sw.outs }

/-- A message leaves the die's record: nothing more of it is sent, its response units and flight entry are freed. -/
def State.dropMsg (s : State) (id : Nat) : State :=
  match s.msg id with
  | none => s
  | some m => ((s.setMsgs (Tbl.del s.tr.msgs id)).purge id).freeFlight m.node

/-- The bytes of a message acknowledged as placed. -/
def Msg.placedBytes (m : Msg) : Nat :=
  (m.acked.map (fun i => if m.kind = .read then (cutAt m.raddr m.len m.pshift i).2 else (m.cut i).2)).foldl (· + ·) 0

/-- Whether a descriptor has a remote part that can depart (R159, R203). -/
def Rec.departs (x : Rec) : Bool :=
  (x.desc.op == Op.WRITE && x.dst.any (fun e => e.node.isSome)) || x.desc.op == Op.SEND

/-- DEPARTED is earned (R203): written once the last first copy has left and every local byte has been placed. -/
def State.tryDepart (s : State) (r : Nat) : State :=
  match s.getRec r with
  | none => s
  | some x =>
    if x.departs && x.phase == .running && x.started && x.left == 0 && x.localLeft == 0 && !x.localBad then
      let e := { x.entry Ty.DEPARTED x.desc.total with status := Stat.SUCCESS, reason := 0, data := 0, recId := r }
      (s.putRec r { x with phase := .departed }).complete (s.queueRing x.queue x.rq) e x.links
    else s

/-- A data descriptor whose messages and local pieces have all ended ends with the first failure's status (R160, R200): a LATE
entry if it departed and failed, no second entry if it departed and was placed in full, else DONE. -/
def State.settle (s : State) (r : Nat) : State :=
  let s := s.tryDepart r
  match s.getRec r with
  | none => s
  | some x =>
    if x.started && x.msgs.isEmpty && x.localLeft == 0 && (x.phase == .running || x.phase == .departed) then
      if x.phase == .departed && x.status == Stat.SUCCESS then s.endQuiet r x x.desc.total
      else
        let x' := if x.status = Stat.SUCCESS then { x with placed := x.desc.total } else x
        (s.putRec r x').finish r (if x.phase == .departed then Ty.LATE else Ty.DONE) x.status
          (if x.desc.op = Op.ATOMIC then (if x.status = Stat.SUCCESS then aopSize x.desc.aop else 0) else x'.placed) x.data
    else s

/-- Note a failure in a descriptor's record: the first one counts (R200). -/
def Rec.fail (x : Rec) (status : Nat) (data : Word) : Rec :=
  if x.status = Stat.SUCCESS then { x with status := status, data := data } else x

/-- A local piece was not placed: the descriptor earns no DEPARTED (R203). -/
def Rec.localFail (x : Rec) (status : Nat) (data : Word) : Rec := { x.fail status data with localLeft := x.localLeft - 1, localBad := true }

/-- No further copy of a descriptor's messages is sent; the bytes acknowledged as placed count (R158). -/
def State.giveUp (s : State) (r : Nat) : State :=
  match s.getRec r with
  | none => s
  | some x =>
    let done := (x.msgs.map (fun i => ((s.msg i).map Msg.placedBytes).getD 0)).foldl (· + ·) 0
    (x.msgs.foldl State.dropMsg s).putRec r { x with msgs := [], placed := x.placed + done }

/-- Flush a descriptor (R146, R147, R201): no further copy of its messages, and its entry with FLUSHED. -/
def State.flushRec (s : State) (r : Nat) : State := (s.giveUp r).endWith r Stat.FLUSHED

/-- The receives bound by messages to a queue pair are bound no more (R210). -/
def State.unbindRds (s : State) (q : Nat) : State :=
  { s with tr := { s.tr with rds := Tbl.map (fun _ e => if e.qpn == q && e.recv.isSome then { e with recv := none } else e) s.tr.rds } }

/-- The bytes of a message that have been placed here. -/
def Rd.placedBytes (e : Rd) : Nat := (e.met.map (fun i => Tbl.get 0 e.lens i)).foldl (· + ·) 0

/-- The queue pair leaves ACTIVE: its bound receives complete with FLUSHED, each with what its message brought (R210). -/
def State.unbind (s : State) (q : Nat) : State :=
  (s.tr.rds.filter (fun e => e.2.qpn == q && e.2.recv.isSome)).foldl (fun s e => match e.2.recv with
    | some r => (s.modRec r (fun x => { x with node := e.2.src, srcQpn := e.2.srcQpn, placed := e.2.placedBytes })).endWith r Stat.FLUSHED e.2.imm
    | none => s) (s.unbindRds q)

/-- Enter ERROR on behalf of descriptor r (R146): r completes with its own status, every other accepted descriptor with FLUSHED; both rings
are fetched on. -/
def State.qpError (s : State) (q r : Nat) : State :=
  if (s.qp q).state == .active then
    let s := (s.modQp q (fun x => { x with state := .error })).settle r
    let s := s.unbind q
    let s := ((s.recsOf q).filter (fun p => p.1 != r)).foldl (fun s p => s.flushRec p.1) s
    (s.tryFetch q false).tryFetch q true
  else s.settle r

/-- What a collective message's end does: the collective engine begins again what is not acknowledged (R353), so here the message
only leaves the record. -/
def State.endMsg (s : State) (id status : Nat) (data : Word := 0) : State :=
  match s.msg id with
  | none => s
  | some m =>
    let s := s.dropMsg id
    if m.kind = .mgt ∨ m.kind = .col then s
    else if status = Stat.RETRY_EXCEEDED then
      match s.getRec m.recId with
      | none => s
      | some x =>
        let s := (x.msgs.filter (fun i => i != id)).foldl State.dropMsg s
        let s := s.modRec m.recId (fun x => { x.fail status 0 with msgs := [], placed := x.placed + m.placedBytes })
        s.qpError m.queue m.recId
    else
      let done := if status = Stat.SUCCESS then (if m.kind = .atomic then aopSize (m.opx % 16) else m.len) else m.placedBytes
      let s := s.modRec m.recId (fun x =>
        let x := { x with msgs := x.msgs.erase id, placed := x.placed + done }
        if status = Stat.SUCCESS then x else x.fail status data)
      s.settle m.recId

/-! ### Departures (R197, R203) -/

/-- A copy of a message has left its port or been handed to loopback: the timer of its packet starts; a first copy counts toward
DEPARTED (R196, R197, R203). (log entry 51) -/
def State.leftPort (s : State) (k : SwPkt) : State :=
  match k.msg with
  | none => s
  | some id =>
    match s.msg id with
    | none => s
    | some m =>
      let rto := s.rto (s.flightFor m)
      let m' := { m with
        sent := Tbl.put m.sent k.psn s.now
        tmo := if Tbl.has m.tmo k.psn then m.tmo else Tbl.put m.tmo k.psn rto
        d := if m.d.isNone then some s.now else m.d
        left := if k.first then m.left - 1 else m.left
        unsent := if k.first then m.unsent - s.charge m k.psn else m.unsent }
      let s := s.putMsg id m'
      if k.first then
        let s := s.event 0x05 m.part (ceilDiv (m.cut k.psn).2 64)
        (s.modRec m.recId (fun x => { x with left := x.left - 1, at2 := if x.at2 = 0 then s.now else x.at2 })).tryDepart m.recId
      else s.modRec m.recId (fun x => { x with retx := x.retx + 1 })

/-- The link output and the bridge output a plan's route names here; 255 for none (R333, R351). -/
def routeOf (b : PlanBody) (route : Nat) : Option (Nat × Nat) :=
  (b.routes.find? (fun x => x.route == route)).map (fun x =>
    let out (i : Nat) : Nat := if i = 255 then 255 else ((b.links[i]?).map (·.output)).getD 255
    (out x.link, out x.bridge))

/-- Hand a copy on: to loopback at once, to the pacer of a Beacon queue pair (a retransmitted copy ahead of first copies, R239), or
to the transport engine's queue into the switch. -/
def State.handOn (s : State) (m : Msg) (k : SwPkt) : State :=
  if s.node = some m.node then
    ((s.countSeal k.pkt).setSw { s.sw with ejected := s.sw.ejected ++ [(s.now, k.pkt)] }).leftPort k
  else if m.beacon then
    let l := Tbl.get [] s.sw.pacer m.queue
    s.setSw { s.sw with pacer := Tbl.set [] s.sw.pacer m.queue (if k.first then l ++ [k] else k :: l) }
  else
    let i := 128 + s.msgDie m
    s.setInq i (s.inqOf i ++ [k])

/-- The last time a copy of a message may be sent (R197). -/
def Msg.lastSend (m : Msg) (d : Nat) : Nat := d + m.hz - 2 * (tPkt + m.nd)

/-- Whether no copy of a message may be sent any more (R197, R220). -/
def State.tooLate (s : State) (m : Msg) : Bool := m.d.any (fun d => decide (m.lastSend d < s.now))

/-- The copies that wait inside the adapter when their message's last time to send has passed are never sent (R197). -/
def State.purgeLate (s : State) : State := ((s.tr.msgs.filter (fun e => s.tooLate e.2)).map (·.1)).foldl State.purge s

/-- Build and hand on one copy; none is sent past the last time of R197. -/
def State.sendCopy (s : State) (id psn : Nat) (pay : List Byte) (first : Bool) : State :=
  match s.msg id with
  | none => s
  | some m =>
    if s.tooLate m then s
    else
    let p := s.buildPacket id m psn pay
    let len := if s.overEth m.node then s.ethLen p.len else p.len
    -- a copy waits with its plain payload and is built when it enters the switch
    let k := { SwPkt.ofPacket (if s.node = some m.node then p else { p with pay := pay }) (s.msgDie m) s.now len with
      msg := some id, psn := psn, first := first, part := m.part
      paced := !m.beacon && m.kind != .mgt && m.kind != .col
      queue := if m.kind = .mgt ∨ m.kind = .col then none else some (s.qp m.queue).schQueue
      plan := if m.kind = .col then some m.plan else none
      route := if m.kind = .col then (Tbl.find s.col.plans m.plan).bind (fun x => routeOf x.body (bits p.w3 8 12)) else none }
    s.handOn m k

/-- The first copies of a message, in PSN order (R183). -/
def State.sendAll (s : State) (id : Nat) (data : List Byte) : State :=
  match s.msg id with
  | none => s
  | some m => m.unacked.foldl (fun s i => s.sendCopy id i (slice data (m.cut i).1 (m.cut i).2) true) s

/-- A message ends once nothing of it is waited for: with SUCCESS, or with the error of a packet (R102, R131). -/
def State.tryEnd (s : State) (id : Nat) : State :=
  match s.msg id with
  | none => s
  | some m =>
    if m.over then
      match m.err with
      | some e => s.endMsg id e.1 e.2
      | none => s.endMsg id Stat.SUCCESS
    else s

/-- A packet's bytes could not be read or placed: the message will end with that error, after the packets not affected (R102, R131). -/
def State.failPkt (s : State) (id psn st : Nat) (data : Word) : State :=
  match s.msg id with
  | none => s
  | some m =>
    if m.acked.contains psn || m.bad.contains psn then s
    else
      let unsent := m.kind != .read && !Tbl.has m.tmo psn
      let m := { m with
        bad := m.bad ++ [psn], err := m.err <|> some (st, data), sent := Tbl.del m.sent psn, tmo := Tbl.del m.tmo psn
        left := if unsent then m.left - 1 else m.left, unsent := if unsent then m.unsent - s.charge m psn else m.unsent }
      (s.putMsg id m).tryEnd id

/-- Gathered source data comes for one copy. -/
def State.gotResend (s : State) (id psn : Nat) (g : Got) : State :=
  match s.msg id with
  | none => s
  | some m =>
    match g with
    | .bytes b => if m.bad.contains psn then s else s.sendCopy id psn b (!Tbl.has m.tmo psn)
    | .bad st d => s.failPkt id psn st (word d)

/-- Send a copy of a packet, reading its source (R190, R196). -/
def State.resend (s : State) (id psn : Nat) : State :=
  match s.msg id with
  | none => s
  | some m =>
    let c := m.cut psn
    if m.bad.contains psn then s
    else match m.kind with
    | .read => s.sendCopy id 0 [] (!Tbl.has m.tmo 0)
    | .atomic => s.sendCopy id 0 [] (!Tbl.has m.tmo 0)
    | .mgt => s.sendCopy id psn (slice m.data c.1 c.2) (!Tbl.has m.tmo psn)
    | .col => s.sendCopy id psn (slice m.data c.1 c.2) (!Tbl.has m.tmo psn)
    | _ =>
      let r := s.gather m.part (cutExt m.src c.1 c.2) (.resend id psn)
      match r.2 with
      | some g => r.1.gotResend id psn g
      | none => r.1

/-- Gathered source data comes for a message's first copies. Where a line of it is poisoned, the packets are read one by one, and those not
affected are sent (R102). -/
def State.gotMessage (s : State) (id : Nat) (g : Got) : State :=
  match g, s.msg id with
  | .bytes b, _ => s.sendAll id b
  | .bad _ _, some m => m.unacked.foldl (fun s i => s.resend id i) s
  | _, none => s

/-- The pieces of a message's source have come, some of them failed: the packets not affected are sent (R131). -/
def State.gotPieces (s : State) (id : Nat) (pieces : List (Option (List Byte))) (st : Nat) : State :=
  match s.msg id with
  | none => s
  | some m =>
    let flat : List (Option Byte) := (pieces.zip m.src).flatMap (fun p => match p.1 with
      | some b => b.map some
      | none => List.replicate p.2.len none)
    m.unacked.foldl (fun s i =>
      let b := (flat.drop (m.cut i).1).take (m.cut i).2
      if b.all Option.isSome then s.sendCopy id i (b.filterMap (fun x => x)) true else s.failPkt id i st 0) s

/-! ### Making messages (R179, R180, R193, R212) -/

/-- Whether the map and the route tables, or Ethernet, lead to a node; whatever is behind a port is reached through it (R201, R264). -/
def State.routed (s : State) (n : Nat) : Bool := decide (65536 ≤ n) || (s.reachable n && (s.node == some n || s.overEth n || s.hasRoute n))

/-- Messages end with DEST_UNREACHABLE (R201). Those of collectives go on under their plans (R353). -/
def State.endUnrouted (s : State) (ids : List Nat) : State :=
  ids.foldl (fun s i => match s.msg i with
    | some m => if m.kind != .col && !s.routed m.node then s.endMsg i Stat.DEST_UNREACHABLE else s
    | none => s) s

/-- The map or the direction tables have changed: the messages to each node whose route has been withdrawn end (R201, R287). -/
def State.withdrawn (old s : State) : State :=
  s.endUnrouted ((s.tr.msgs.filter (fun e => old.routed e.2.node && !s.routed e.2.node)).map (·.1))

/-- A fresh MSG_ID of a die, in steps of 2 (R180). -/
def State.takeId (s : State) (die : Nat) : Nat × State :=
  let c := Tbl.get 0 s.tr.nextMsg die
  ((2 * c + die) % 2 ^ 32, { s with tr := { s.tr with nextMsg := Tbl.set 0 s.tr.nextMsg die (c + 1) } })

/-- The version toward a node (R216): the highest both know, 1 for a node whose mask is not held. -/
def State.verTo (s : State) (n : Nat) : Nat :=
  let both := Nat.land (s.fld F.TRN_CAPS_VERSIONS) (s.mapEntry n).versions
  ((List.range 16).filter (fun v => both.testBit v)).getLast?.getD 1

/-- A message of a descriptor, not begun. -/
def Msg.make (recId queue part gen : Nat) (kind : MsgKind) (node len pshift ver : Nat) (beacon : Bool) : Msg :=
  { recId := recId, queue := queue, part := part, gen := gen, kind := kind, node := node, len := len, src := [], dst := [], raddr := 0
    key := 0, inc := 0, qpn := 0, imm := 0, opx := 0, opnd := 0, comp := 0, pshift := pshift, ver := ver, npkts := 1, begun := false
    beganAt := 0, d := none, left := 0, unsent := 0, acked := [], sent := [], tmo := [], units := 0, staged := [], busy := none
    busyPsn := none, hz := 0, nd := 0, beacon := beacon, ethPort := none, data := [], ctl := [], plan := 0, step := 0, off := 0
    bad := [], err := none, unfit := [] }

/-- Enter a message into its die's record, with its first copies still to leave. -/
def State.addMsg (s : State) (m : Msg) : Nat × State :=
  let x := s.takeId (s.msgDie m)
  let n := cutCount m.cutBase m.len m.pshift
  let m := { m with npkts := if m.kind = MsgKind.read ∨ m.kind = MsgKind.atomic then 1 else n }
  let m := { m with left := m.npkts }
  let m := { m with unsent := x.2.msgBytes m }
  (x.1, x.2.putMsg x.1 m)

/-- Enter a message for a record. -/
def State.addFor (s : State) (r : Nat) (m : Msg) : State :=
  let x := s.addMsg m
  x.2.modRec r (fun y => { y with msgs := y.msgs ++ [x.1], left := y.left + (((x.2.msg x.1).map (·.npkts)).getD 0) })

/-- Response units a request reserves (R212). -/
def Msg.unitsNeeded (m : Msg) : Nat := m.rspCount * ceilDiv (2 ^ m.pshift) 4096

/-- The unreserved units of a die's response pool. -/
def State.freeUnits (s : State) (d : Nat) : Nat :=
  16384 - ((s.tr.msgs.filter (fun e => s.dieOf e.2.node == d)).map (fun e => e.2.units)).foldl (· + ·) 0

/-- Reserve a read request's units if they are free and no request of the die waits before it. -/
def State.reserve (s : State) (id : Nat) : State :=
  match s.msg id with
  | none => s
  | some m => if m.units = 0 ∧ m.unitsNeeded ≤ s.freeUnits (s.dieOf m.node) then s.putMsg id { m with units := m.unitsNeeded } else s

/-- The pieces of a remote range of a READ: at most 64 KiB, crossing no 64 KiB boundary of the remote address (R212), as
(offset, length). -/
def readCuts (addr len : Nat) : List (Nat × Nat) :=
  (List.range (cutCount addr len 16)).map (fun i => cutAt addr len 16 i)

/-- The extents of a list with their offsets in its byte stream. -/
def withOffsets : List Extent → Nat → List (Nat × Extent)
  | [], _ => []
  | e :: es, off => (off, e) :: withOffsets es (off + e.len)

/-- Make the messages and read requests of a descriptor (R179, R212, R214). -/
def State.makeMsgs (s : State) (r : Nat) (x : Rec) : State :=
  let q := s.qp x.queue
  let mk (k : MsgKind) (node len : Nat) : Msg := Msg.make r x.queue x.part x.gen k node len (s.pshiftTo node) (s.verTo node) q.beacon
  let op := x.desc.op
  if op = Op.WRITE then
    (withOffsets x.dst 0).foldl (fun s p => match p.2.node with
      | none => s
      | some n => s.addFor r { mk .write n p.2.len with src := cutExt x.src p.1 p.2.len, raddr := p.2.addr, key := p.2.key, inc := p.2.inc }) s
  else if op = Op.SEND then
    s.addFor r { mk .send x.desc.sendNode x.desc.total with src := x.src, key := x.desc.sendQkey, qpn := x.desc.sendQpn, imm := x.desc.w6 }
  else if op = Op.READ then
    (withOffsets x.src 0).foldl (fun s p => match p.2.node with
      | none => s
      | some n => (readCuts p.2.addr p.2.len).foldl (fun s c =>
          let s := s.addFor r { mk .read n c.2 with
            dst := cutExt x.dst (p.1 + c.1) c.2, raddr := p.2.addr + c.1, key := p.2.key, inc := p.2.inc }
          match (s.getRec r).bind (fun y => y.msgs.getLast?) with
          | some id => s.reserve id
          | none => s) s) s
  else if op = Op.ATOMIC then
    x.dst.foldl (fun s e => match e.node with
      | none => s
      | some n => s.addFor r { mk .atomic n (aopSize x.desc.aop) with
          raddr := e.addr, key := e.key, inc := e.inc, opx := (x.desc.w5.toNat) % 32, opnd := x.desc.w3
          comp := if x.desc.aop = 2 then x.desc.w4 else 0 }) s
  else s

/-- The remote nodes a descriptor needs flight entries for. -/
def Rec.remoteNodes (x : Rec) : List Nat :=
  ((x.src ++ x.dst).filterMap (·.node) ++ (if x.desc.op = Op.SEND then [x.desc.sendNode] else [])).eraseDups

/-- Find or allocate the flight entries of a descriptor's nodes, then make its messages; it waits in its record when its die has
no free entry (R193). A message to a node whose route has been withdrawn since the descriptor was accepted ends at once (R201). -/
def State.startRemote (s : State) (r : Nat) : State :=
  match s.getRec r with
  | none => s
  | some x =>
    match x.remoteNodes.foldl (fun (o : Option State) n => o.bind (fun s => s.takeFlight n)) (some s) with
    | some s' =>
      let s := (s'.modRec r (fun y => { y with started := true })).makeMsgs r x
      (s.endUnrouted (((s.getRec r).map (·.msgs)).getD [])).settle r
    | none => s.putRec r { x with started := false }

/-! ### Local copies (R45, R153) -/

/-- The bytes of a piece of a local copy have come: they are placed; a write that would cover part of a poisoned line is discarded
(R102). -/
def State.gotCopy (s : State) (r off : Nat) (g : Got) : State :=
  match s.getRec r with
  | none => s
  | some x =>
    match g with
    | .bad st d => (s.putRec r (x.localFail st (word d))).settle r
    | .bytes b =>
      let parts := layOut (cutExt x.dst off b.length) b
      let s := s.checkedParts parts
      match parts.findSome? (fun p => if winOf p.1 = 1 then s.partPoison (bitsN p.1 0 48) p.2.length else none) with
      | some g => (s.putRec r (x.localFail Stat.MEMORY_ERROR (word g))).settle r
      | none => s.place x.part parts none (.copy r)

/-- Start the local pieces of a WRITE or READ: those whose both sides are local. -/
def State.startLocal (s : State) (r : Nat) : State :=
  match s.getRec r with
  | none => s
  | some x =>
    let far := if x.desc.op = Op.READ then x.src else x.dst
    let ps := (withOffsets far 0).filter (fun p => p.2.node.isNone)
    let s := s.putRec r { x with localLeft := x.localLeft + ps.length, links := linksOf (x.dst.filter (fun e => e.node.isNone)) }
    ps.foldl (fun s p =>
      let g := s.gather x.part (cutExt x.src p.1 p.2.len) (.copy r p.1)
      match g.2 with
      | some b => g.1.gotCopy r p.1 b
      | none => g.1) s

/-- Whether an accepted descriptor waits for domains (R482). -/
def State.asleep (s : State) (r : Nat) : Bool := s.waiting.any (fun e => e.2 == Work.record r)

/-- Whether a record is an accepted descriptor of an opcode that has not been carried out yet and waits for no domain. -/
def State.recReady (s : State) (r op : Nat) : Option Rec :=
  match s.getRec r with
  | none => none
  | some x => if x.desc.op = op ∧ x.phase = .accepted ∧ !isAdm x.queue ∧ !s.asleep r then some x else none

/-- The same for an admin command. -/
def State.admReady (s : State) (r op : Nat) : Option Rec :=
  match s.getRec r with
  | none => none
  | some x => if x.desc.op = op ∧ x.phase = .accepted ∧ isAdm x.queue ∧ !s.asleep r then some x else none

/-- Carry out an accepted transfer: local pieces and remote messages. -/
def State.carryOut (s : State) (r : Nat) : State :=
  ((s.modRec r (fun x => { x with phase := .running })).startLocal r).startRemote r

end Sys2Proof.Machine
end

