-- ==== Sys2Proof/Machine/Sched.lean ====
section
/-!
DEFINITION. What decides whether a head of an output may start: stops (R288), credit (R270 to R273), caps (R227), the calendar (R274,
R275); the conditions that the counters watch (R508, R509); and the passing of time.
-/
namespace Sys2Proof.Machine

/-! ### Outputs (R21, R252) -/

/-- The capacity of an output in bytes per ns (R21). -/
def outRate (o : Nat) : Nat := if o < 128 then 200 else if o < 136 then 100 else if o < 144 then 1600 else 12800

/-- Bytes of one calendar slot of an output: 3.2 ns. -/
def slotBytes (o : Nat) : Nat := outRate o * 16 / 5

/-- The slots of an output that its calendar holds free, entries that wait for a frame boundary included. -/
def Output.calAfter (x : Output) : Tbl Nat := x.calNext.foldl (fun t c => Tbl.set 0 t c.1 c.2) x.cal

/-- A bucket's level now: a bucket not listed is full (R248). Rates are in MB/s, depths in bytes. -/
def bucketLevel (t : Tbl Bucket) (k rate depth now : Nat) : Rat :=
  match Tbl.find t k with
  | none => depth
  | some b => min (depth : Rat) (b.level + (rate : Rat) / 1000 * ((now - b.at0 : Nat) : Rat))

/-- Draw bytes from a bucket, into debt if need be; one whose rate is 0 is off, and nothing is drawn from it (R248, R249). -/
def drawBucket (t : Tbl Bucket) (k rate depth now n : Nat) : Tbl Bucket :=
  if rate = 0 then t else Tbl.put t k ⟨bucketLevel t k rate depth now - n, now⟩

/-- A write changes a bucket's rate and depth (R228, R250): it has filled at the old rate up to now, and is cut to the new depth. One that was
off and never drawn from begins full. (log entry 120) -/
def settleBucket (t : Tbl Bucket) (k rate depth depth' now : Nat) : Tbl Bucket :=
  if rate = 0 ∧ !Tbl.has t k then t else Tbl.put t k ⟨min (bucketLevel t k rate depth now) depth', now⟩

/-! ### Stops (R288) -/

/-- Whether any output is sending. -/
def State.anySending (s : State) : Bool := s.sw.outs.any (fun e => decide ((s.now : Rat) < e.2.busyTo))

/-- STOP_ALL has taken hold. -/
def State.allStopped (s : State) : Bool := s.flag F.SWT_ROUTE_CTRL_STOP_ALL && !s.anySending

/-- The stop of dimension d has taken hold. -/
def State.dimStopped (s : State) (d : Nat) : Bool := (s.fld F.SWT_ROUTE_CTRL_STOP).testBit d

/-- DIM and DIR (1 +, 2 −) of a port. -/
def State.portDim (s : State) (p : Nat) : Nat := s.fld F.FAB_PORT_CFG_DIM p
def State.portDir (s : State) (p : Nat) : Nat := 1 + s.fld F.FAB_PORT_CFG_DIR p

/-- Whether a stop keeps a packet from an output (R288): a packet that arrived in the dimension goes on. -/
def State.barred (s : State) (o : Nat) (k : SwPkt) : Bool :=
  s.flag F.SWT_ROUTE_CTRL_STOP_ALL || (o < 128 && s.dimStopped (s.portDim o) && k.dimIn != some (s.portDim o))

/-! ### Credit of an output (R270 to R273) -/

/-- The reserved minimum of each virtual channel and the shared pool at the far end of an output. -/
def State.reserveOf (s : State) (o : Nat) : Nat := if o < 128 then max 66 (s.port o).peerReserve else 66
def State.sharedOf (s : State) (o : Nat) : Nat := if o < 128 then 4096 - 10 * s.reserveOf o else 364

/-- Flits sent and not returned, by 2 × virtual channel + pool. -/
def Port.used (x : Port) (i : Nat) : Nat := Tbl.get 0 x.sent i - Tbl.get 0 x.ret i

/-- The shared-pool credit a transmitter holds. -/
def State.sharedFree (s : State) (o : Nat) : Nat :=
  s.sharedOf o - ((List.range 10).map (fun v => (s.port o).used (2 * v))).foldl (· + ·) 0

/-- The pool a packet of n flits takes on virtual channel v: the shared one, or on an escape hop that finds no room there the reserved
minimum (R272). -/
def State.poolFor (s : State) (o v n : Nat) (escape : Bool) : Option Bool :=
  if 128 ≤ o ∧ o < 136 then some false
  else if n ≤ s.sharedFree o then some false
  else if escape && decide (n ≤ s.reserveOf o - (s.port o).used (2 * v + 1)) then some true
  else none

/-! ### The calendar (R274, R275, R350) -/

/-- The place of a moment in an output's frame, in slots. -/
def State.framePos (s : State) (o : Nat) (m : Rat) : Rat :=
  let x : Rat := (m - (s.out o).frame0) * 5 / 16
  x - 1024 * ((x / 1024).floor : Rat)

/-- What a slot of an output is reserved for: 0 free, 1 + plan slot; 2^64 for a slot whose entry is about to change. -/
def Output.slotFor (x : Output) (i : Nat) : Nat :=
  if x.calNext.any (fun c => c.1 == i) then 2 ^ 64 else Tbl.get 0 x.cal i

/-- Whether every slot that n bytes started at m would touch is reserved for `who` (0: free). -/
def State.slotsAt (s : State) (o n who : Nat) (m : Rat) : Bool :=
  let x := s.out o
  if x.cal.isEmpty && x.calNext.isEmpty then who == 0
  else
    let pos := s.framePos o m
    let end_ := pos + (n : Rat) / (slotBytes o : Rat)
    let a := pos.floor.toNat
    let b := end_.ceil.toNat
    (List.range' a (max 1 (b - a))).all (fun i => x.slotFor (i % 1024) == who)

/-- When, within this ns, an output can start n bytes in slots reserved for `who`: as soon as it is idle, or at the slot boundary that
the ns holds (log entry 15). -/
def State.startMoment (s : State) (o n who : Nat) : Option Rat :=
  let m : Rat := max (s.now : Rat) (s.out o).busyTo
  let pos := s.framePos o m
  let b := m + ((pos.ceil : Rat) - pos) * 16 / 5
  if (s.now : Rat) + 1 ≤ m then none
  else if s.slotsAt o n who m then some m
  else if b < (s.now : Rat) + 1 ∧ s.slotsAt o n who b then some b
  else none

/-- Whether an output can start n bytes in this ns as far as its calendar goes. -/
def State.slotsFor (s : State) (o n who : Nat) : Bool := (s.startMoment o n who).isSome

/-! ### What else a head waits for (R223, R225, R227, R264) -/

/-- The bytes that a packet or frame counts here. -/
def State.lenAt (s : State) (o : Nat) (k : SwPkt) : Nat :=
  if 128 ≤ o ∧ o < 136 ∧ k.frame == [] then s.ethLen k.pkt.len else if k.frame == [] then k.pkt.len else k.len

/-- The cap of queues 1 to 3, in MB/s (R227). -/
def State.capRate (s : State) (o q : Nat) : Nat :=
  100 * s.fld (if q = 1 then F.SCH_STRICT_CAP_CAP1 else if q = 2 then F.SCH_STRICT_CAP_CAP2 else F.SCH_STRICT_CAP_CAP3) o
def State.capLevel (s : State) (o q : Nat) : Rat := bucketLevel (s.out o).caps q (s.capRate o q) 16384 s.now

/-- Whether a port can carry a packet at all (R264, R266). -/
def State.portTakes (s : State) (o : Nat) (k : SwPkt) : Bool :=
  if o < 128 then
    (s.port o).carries && (k.pkt.cls == Cls.MGT || ((s.port o).state == .up && s.portDim o != 7))
  else true

/-! ### Output lists (R224, R226) -/

/-- The scheduler queue of a packet at an output (R226); 64 + plan slot for a collective packet. -/
def State.queueAt (s : State) (o : Nat) (k : SwPkt) : Nat :=
  match k.plan with
  | some n => 64 + n
  | none =>
    let p := k.pkt
    if p.beacon then 0
    else if p.cls = Cls.MGT ∨ p.type = Pk.ACK ∨ p.type = Pk.NAK ∨ p.type = Pk.ATOMIC_RSP ∨ p.type = Pk.ERROR_RSP then 1
    else match k.queue with
      | some q => q
      | none =>
        let f := if p.cls = Cls.REQ then F.SCH_CLASS_MAP_REQ else if p.cls = Cls.FWD then F.SCH_CLASS_MAP_FWD else F.SCH_CLASS_MAP_RSP_DATA
        s.fld f o

/-- Enter an output's list. -/
def State.enqueue (s : State) (o : Nat) (k : SwPkt) : State :=
  let x := s.out o
  let i := s.queueAt o k * 16 + k.vc
  s.setOut o { x with lists := Tbl.set [] x.lists i (Tbl.get [] x.lists i ++ [{ k with at1 := s.now }]) }

/-- The output of a port-die bridge away from its Lantern die, behind which Ethernet port e lies, and the one back (R17, R252). -/
def bridgeTo (e : Nat) : Nat := 136 + e / 2
def bridgeBack (e : Nat) : Nat := 140 + e / 2

/-! ### Conditions the counters watch (R509) -/

/-- Whether a head of a fabric port or bridge is eligible but for credit (R225, OUT_CREDIT_WAIT). -/
def State.creditWait (s : State) (o : Nat) : Bool :=
  let x := s.out o
  (decide (o < 128) || decide (136 ≤ o)) && decide (x.busyTo ≤ (s.now : Rat)) && x.lists.any (fun e =>
    (if 1024 ≤ e.1 then e.2 else e.2.take 1).any (fun k =>
      let q := e.1 / 16
      let n := s.lenAt o k
      s.portTakes o k && !s.barred o k && (s.poolFor o k.vc k.pkt.flits k.escape).isNone && s.slotsFor o n (if 64 ≤ q then q - 63 else 0)
        && (if 1 ≤ q ∧ q ≤ 3 then s.capRate o q != 0 && decide ((n : Rat) ≤ s.capLevel o q) else true)))

/-- The logical arrays of a plan with a pass in progress (R295). -/
def Plan.busyArrays (x : Plan) : List Nat :=
  match x.run with
  | none => []
  | some r => r.cur.filterMap (fun c => (x.body.steps[c.1]?).bind (fun st => x.arrays[st.aux]?))

/-- The logical arrays of a group with a pass in progress (R325). -/
def State.busyIn (s : State) (g : Nat) : List Nat := ((s.col.plans.flatMap (fun e => e.2.busyArrays)).filter (fun l => l / 32 == g)).eraseDups

/-- Whether a pass is in progress on an array of group g (R509). -/
def State.groupBusy (s : State) (g : Nat) : Bool := !(s.busyIn g).isEmpty

/-- The bytes that the table reads of the last µs took of a stack at a time (R24). -/
def State.tableBytes (s : State) (k t : Nat) : Nat :=
  (((Tbl.get [] s.cnt.treads k).filter (fun e => decide (t < e.1 + 1000))).map (·.2)).foldl (· + ·) 0

/-- The cap of class T: 10 % of what a stack moves in 1 µs (R24). -/
def tableCap : Nat := 320000

/-- When the table reads of a stack will be below the cap, if nothing more is read. -/
def State.capEnd (s : State) (k : Nat) : Nat :=
  (((Tbl.get [] s.cnt.treads k).map (fun e => e.1 + 1000)).find? (fun t => decide (s.tableBytes k t < tableCap))).getD s.now

/-- The condition events of R509. Class T of a stack is held by its cap once the reads of the last µs have reached it. (log entry 82) -/
def State.condition (s : State) (code unit : Nat) : Bool :=
  match code with
  | 0x03 => s.qm.qps.any (fun e => e.2.state == .active && e.2.part == unit && e.2.beacon && decide (0 < s.debt e.2)
      && (decide (0 < idxDiff e.2.sq.pi e.2.sq.fetch) || (e.2.rq.map (fun d => decide (0 < idxDiff d.pi d.fetch))).getD false))
  | 0x04 => s.qm.rings.any (fun e => e.2.state == .stalled && e.2.part == unit)
  | 0x08 => s.col.plans.any (fun e => e.2.part == unit && e.2.run.any (fun r => !r.ended && !r.since.isEmpty))
  | 0x21 => decide (unit < 146) && s.creditWait unit
  | 0x31 => decide (tableCap ≤ s.tableBytes unit s.now)
  | 0x41 => decide (unit < s.sized 16) && s.groupBusy unit
  | 0x50 => decide (unit < 84) && (s.dom unit).state == .on
  | _ => false

/-- Whether a code is a condition event. -/
def isCondition (code : Nat) : Bool := [0x03, 0x04, 0x08, 0x21, 0x31, 0x41, 0x50].contains code

/-- One counter that watches a condition, over the time from the last event to t (R508): LEVEL adds the time it was true, EDGE 1 when
it has become true. (log entry 88) -/
def State.watch (s : State) (t : Nat) (x : Ct) (c : Nat × Word) : Ct :=
  let code := bits c.2 0 8
  if !bit c.2 31 || !isCondition code || (bit c.2 29 && c.1 != 0) then x
  else
    let true_ := s.condition code (bits c.2 8 8)
    let end_ := if s.flag F.CNT_STOP_ARMED then min t (max s.now (s.fld F.CNT_STOP_AT)) else t
    let till := if code = 0x31 then min end_ (max s.now (s.capEnd (bits c.2 8 8))) else end_
    let add := if bit c.2 30 then (if true_ then till - s.now else 0) else b2n (true_ && !x.conds.contains c.1)
    { x with
      vals := if s.counting then Tbl.set 0 x.vals c.1 (Tbl.get 0 x.vals c.1 + add) else x.vals
      conds := if true_ then (if x.conds.contains c.1 then x.conds else x.conds ++ [c.1]) else x.conds.filter (fun n => n != c.1) }

/-- The block's clock goes on to an event's time; it never goes back (R7). The counters that watch conditions see the time pass. (log entry 15) -/
def State.at (s : State) (t : Nat) : State :=
  { s with now := max s.now t, cnt := s.counters.foldl (s.watch (max s.now t)) s.cnt }

end Sys2Proof.Machine
end

