-- ==== Sys2Proof/Machine/Sending.lean ====
section
/-!
DEFINITION. The data descriptors of a transport queue pair (R152, R159 to R162, R179, R210, R212, R214) and the sender's own
events: beginning a message, timers, back-off, pacing (spec/05, spec/06, spec/07).
-/
namespace Sys2Proof.Machine

/-! ### Atomics behind a link (R128) -/

/-- Start an atomic on host or accelerator memory: over CXL the line is taken exclusive and read; over PCIe, FetchAdd and CAS go to
the completer; none when the link executes no such operation. -/
def State.linkAtomic (s : State) (part a aop : Nat) (opnd comp : Word) (why : Why) : Option State :=
  let loc := s.locOf part a
  let l := s.link loc.link
  let x := s.fresh
  let b := x.2.putBuild x.1 ⟨[none], why, none⟩
  if l.mode = 2 then some ((b.emit (.linkOwn loc)).issueRead loc (aopSize aop) (.piece x.1 0))
  else if l.mode = 1 ∧ l.atomicOk ∧ (aop = 1 ∨ aop = 2) then
    let y := b.fresh
    let s := { y.2 with io := { y.2.io with reads := Tbl.put y.2.io.reads y.1 ⟨loc, 8, y.2.now, .piece x.1 0⟩ } }
    some (s.emit (.linkAtomic y.1 loc aop opnd comp))
  else none

/-- The old value of an atomic behind a link has come: over CXL the new value is written back and the line released; over PCIe
the completer has stored it. -/
def State.linkAtomicEnd (s : State) (part a aop : Nat) (opnd comp : Word) (old : Nat) : State :=
  let loc := s.locOf part a
  if (s.link loc.link).mode = 2 then
    s.emit (.linkWrite loc (leBytes (aopSize aop) (atomicNew aop old (opnd.toNat % 256 ^ aopSize aop) comp.toNat)))
  else s

/-- A local atomic ends: DATA is the old value with FETCH (R159). -/
def State.atomicDone (s : State) (r : Nat) (x : Rec) (old : Nat) : State :=
  (s.putRec r { x with localLeft := 0, data := if x.desc.fetch then word old else 0 }).settle r

/-- Execute an accepted atomic whose target is local (R97, R102, R128). -/
def State.atomicHere (s : State) (r : Nat) (x : Rec) (a : Nat) : State :=
  let x := { x with phase := .running, started := true }
  if winOf a = 1 then
    let g := bitsN a 0 48
    let s := s.land.atomicRead g x.desc.aop
    match s.firstPoison g (aopSize x.desc.aop) with
    | some p => (s.putRec r (x.fail Stat.MEMORY_ERROR (word p))).settle r
    | none =>
      let y := s.gAtomic g x.desc.aop x.desc.w3.toNat x.desc.w4.toNat
      y.2.atomicDone r x y.1
  else
    match (s.putRec r { x with localLeft := 1 }).linkAtomic x.part a x.desc.aop x.desc.w3 x.desc.w4 (.atomicLocal r) with
    | some s' => s'
    | none => (s.putRec r (x.fail Stat.ATOMIC_UNSUPPORTED 0)).settle r

/-! ### The data descriptors -/

/-- NOP completes with DONE (R159). -/
def execNop (t r : Nat) (s : State) : Host.Outcome State Fault Refusal :=
  let s := s.at t
  match s.recReady r Op.NOP with
  | some _ => .next (s.finish r Ty.DONE Stat.SUCCESS 0)
  | none => .next s

/-- WRITE: local pieces are copied, each remote extent is one message (R152, R179, R203). -/
def execWrite (t r : Nat) (s : State) : Host.Outcome State Fault Refusal :=
  let s := s.at t
  match s.recReady r Op.WRITE with
  | some _ => .next (s.carryOut r)
  | none => .next s

/-- READ: local pieces are copied, remote ranges are read by requests of at most 64 KiB (R212). -/
def execRead (t r : Nat) (s : State) : Host.Outcome State Fault Refusal :=
  let s := s.at t
  match s.recReady r Op.READ with
  | some _ => .next (s.carryOut r)
  | none => .next s

/-- SEND: one message to a queue pair of DEST_NODE (R179, R210). -/
def execSend (t r : Nat) (s : State) : Host.Outcome State Fault Refusal :=
  let s := s.at t
  match s.recReady r Op.SEND with
  | some _ => .next ((s.modRec r (fun x => { x with phase := .running })).startRemote r)
  | none => .next s

/-- RECV: the buffer waits for a message of its queue pair, behind those posted before it (R210). -/
def execRecv (t r : Nat) (s : State) : Host.Outcome State Fault Refusal :=
  let s := s.at t
  match s.recReady r Op.RECV with
  | some x =>
    .next ((s.putRec r { x with phase := .waiting }).modQp x.queue (fun q => { q with recvs := q.recvs ++ [r] }))
  | none => .next s

/-- ATOMIC: one message, or executed here (R97, R128, R214). -/
def execAtomic (t r : Nat) (s : State) : Host.Outcome State Fault Refusal :=
  let s := s.at t
  match s.recReady r Op.ATOMIC with
  | some x =>
    match x.dst with
    | e :: _ =>
      .next (if e.node.isNone then s.atomicHere r x e.addr
        else (s.modRec r (fun x => { x with phase := .running })).startRemote r)
    | [] => .next s
  | none => .next s

/-- PLACEMENT_FENCE: it waits for the descriptors it covers, settled when it was accepted (R162). It sends nothing. -/
def execPlacementFence (t r : Nat) (s : State) : Host.Outcome State Fault Refusal :=
  let s := s.at t
  match s.recReady r Op.PLACEMENT_FENCE with
  | some x => .next (s.putRec r { x with phase := .running }).fenceSweep
  | none => .next s

/-! ### Beginning a message (R194, R212, R248, R384, R466) -/

/-- The level of a partition's shaper; a RATE of 0 turns it off (R248). -/
def State.shapeLevel (s : State) (p : Nat) : Rat :=
  bucketLevel s.sw.shape p (s.fld F.SCH_PART_SHAPE_RATE p) (s.fld F.SCH_PART_SHAPE_BURST p * 1024) s.now
def State.ethShapeLevel (s : State) (p : Nat) : Rat :=
  bucketLevel s.sw.ethShape p (s.fld F.SCH_PART_ETH_SHAPE_RATE p) (s.fld F.SCH_PART_ETH_SHAPE_BURST p * 1024) s.now
def State.shapeOk (s : State) (p : Nat) : Bool := s.fld F.SCH_PART_SHAPE_RATE p == 0 || decide (0 ≤ s.shapeLevel p)
def State.ethShapeOk (s : State) (p : Nat) : Bool := s.fld F.SCH_PART_ETH_SHAPE_RATE p == 0 || decide (0 ≤ s.ethShapeLevel p)

def EthPort.down : EthPort := ⟨false, false, false, false, [], [], [], [], 0, 0, 2 ^ 64 - 1, 0, Option.none, []⟩
def State.ethPort (s : State) (e : Nat) : EthPort := Tbl.get EthPort.down s.eth e

/-- The Ethernet ports of ETH_KT_CFG.PORTS that are UP, and the port a message takes (R384). -/
def State.ktPorts (s : State) : List Nat :=
  (List.range s.nEth).filter (fun e => (s.fld F.ETH_KT_CFG_PORTS).testBit e && (s.ethPort e).up)
def State.ktPort (s : State) (msgId : Nat) : Option Nat := s.ktPorts[(msgId / 2) % s.ktPorts.length]?

/-- Whether a message may begin now (R194, R212, R248): the begun bytes and its own depart within H/2 at the current rate, or
nothing else has begun. A Beacon message draws on no rate and no shaper (R232, R248); a management message draws on none either (R222), but
has a flight entry (R193). -/
def State.mayBegin (s : State) (m : Msg) : Bool :=
  !m.begun && (m.kind != .read || m.units != 0) && (m.kind != .mgt || Tbl.has s.tr.flights m.node) &&
  (m.beacon || m.kind == .mgt || m.kind == .col ||
    ((if s.overEth m.node then s.ethShapeOk m.part else s.shapeOk m.part) &&
      (match Tbl.find s.tr.flights m.node with
       | none => false
       | some f =>
         let b := s.begunTo m.node
         b.isEmpty || decide ((((b.map (·.unsent)).foldl (· + ·) 0 + m.unsent : Nat) : Rat) ≤ f.rate * ((s.horizon / 2 : Nat) : Rat)))))

/-- f.need counts a begun message at once (R194). -/
def State.raiseRate (s : State) (n : Nat) : State :=
  match Tbl.find s.tr.flights n with
  | none => s
  | some f => s.setFlights (Tbl.put s.tr.flights n { f with rate := min (max f.rate (s.flightNeed n)) s.rMax })

/-- Begin a message: its horizon parameters are taken, its port over Ethernet is chosen, its source data is read and its first
copies are built. -/
def State.begin (s : State) (id : Nat) (m : Msg) : State :=
  let nd := if s.overEth m.node then s.fld F.TRN_ETH_NETDELAY_NETDELAY * 1000 else 0
  let port := if s.overEth m.node then s.ktPort id else none
  if s.overEth m.node && port.isNone then s.endMsg id Stat.DEST_UNREACHABLE
  else
    let m := { m with begun := true, beganAt := s.now, hz := s.horizon, nd := nd, ethPort := port }
    let s := s.putMsg id m
    let s := if m.beacon ∨ m.kind = .mgt ∨ m.kind = .col then s else s.raiseRate m.node
    match m.kind with
    | .read => s.sendAll id []
    | .atomic => s.sendAll id []
    | .mgt => s.sendAll id m.data
    | .col => s.sendAll id m.data
    | _ =>
      let g := s.gather m.part m.src (.message id)
      match g.2 with
      | some b => g.1.gotMessage id b
      | none => g.1

/-- A management message that found no free flight entry takes one once one is free (R193, R219). -/
def State.mgtFlight (s : State) (m : Msg) : State := if m.kind = .mgt then (s.takeFlight m.node).getD s else s

/-- Begin a message if it may. -/
def State.tryBegin (s : State) (id : Nat) : State :=
  match s.msg id with
  | some m =>
    let s := s.mgtFlight m
    if s.mayBegin m then s.begin id m else s
  | none => s

/-- MESSAGE_BEGIN (R194): a waiting message begins. -/
def execMessageBegin (t id : Nat) (s : State) : Host.Outcome State Fault Refusal := .next ((s.at t).tryBegin id)

/-- Whether a record holds a descriptor whose remote extents are carried by messages, and so one that may wait for a flight entry (R193). -/
def Rec.sends (x : Rec) : Bool :=
  !isAdm x.queue && (x.desc.op == Op.WRITE || x.desc.op == Op.READ || x.desc.op == Op.SEND || x.desc.op == Op.ATOMIC)

/-- FLIGHT_ENTRY_AVAILABLE (R193): a descriptor that waits for a flight entry takes one, if one is free. -/
def execFlightEntryAvailable (t r : Nat) (s : State) : Host.Outcome State Fault Refusal :=
  let s := s.at t
  match s.getRec r with
  | some x => .next (if x.phase = .running ∧ ¬ x.started ∧ x.sends then s.startRemote r else s)
  | none => .next s

/-- RESPONSE_UNITS_AVAILABLE (R212): a waiting read request reserves its units and leaves. -/
def execResponseUnitsAvailable (t id : Nat) (s : State) : Host.Outcome State Fault Refusal :=
  let s := s.at t
  match s.msg id with
  | some m => .next (if m.kind = .read ∧ ¬ m.begun then (s.reserve id).tryBegin id else s)
  | none => .next s

/-- SHAPER_DEBT_CLEARED (R248): a partition's shaper (`eth`: the Ethernet shaper) is out of debt; messages of the partition that
waited begin. -/
def execShaperDebtCleared (t p : Nat) (eth : Bool) (s : State) : Host.Outcome State Fault Refusal :=
  let s := s.at t
  if (if eth then s.ethShapeOk p else s.shapeOk p) then
    let s := if eth then s.setSw { s.sw with ethShape := Tbl.put s.sw.ethShape p ⟨s.ethShapeLevel p, s.now⟩ }
      else s.setSw { s.sw with shape := Tbl.put s.sw.shape p ⟨s.shapeLevel p, s.now⟩ }
    .next ((s.tr.msgs.filter (fun e => e.2.part == p && s.overEth e.2.node == eth)).foldl (fun s e => s.tryBegin e.1) s)
  else .next s

/-! ### Timers (R196, R197, R199) -/

/-- RTO_EXPIRY (R196, R213, R230): a packet not acknowledged within its timeout is sent again with the timeout doubled. -/
def execRtoExpiry (t id psn : Nat) (s : State) : Host.Outcome State Fault Refusal :=
  let s := s.at t
  match s.msg id with
  | none => .next s
  | some m =>
    match Tbl.find m.sent psn, m.d with
    | some at0, some d =>
      let tmo := Tbl.get s.rtoInit m.tmo psn
      if (m.kind = .read ∨ ¬ m.acked.contains psn) ∧ at0 + tmo ≤ s.now ∧ s.now ≤ m.lastSend d then
        let s := s.putMsg id { m with sent := Tbl.del m.sent psn, tmo := Tbl.put m.tmo psn (min (2 * tmo) s.rtoMax) }
        let s := (s.count F.TRN_COUNT_COUNT 3).event 0x06 m.part 1
        let s := match Tbl.find s.tr.flights m.node with
          | some f => if m.beacon || m.kind == MsgKind.col || m.kind == MsgKind.mgt then s else s.setFlights (Tbl.put s.tr.flights m.node (s.rateCut m.node f))
          | none => s
        .next (s.resend id psn)
      else .next s
    | _, _ => .next s

/-- BUSY_BACKOFF (R199): after max(RTO, HINT), one copy of the lowest unacknowledged PSN. -/
def execBusyBackoff (t id : Nat) (s : State) : Host.Outcome State Fault Refusal :=
  let s := s.at t
  match s.msg id with
  | none => .next s
  | some m =>
    match m.busy with
    | none => .next s
    | some (at0, wait) =>
      match m.unacked.head? with
      | none => .next s
      | some psn =>
        if m.busyPsn.isNone ∧ at0 + wait ≤ s.now ∧ (m.d.all (fun d => decide (s.now ≤ m.lastSend d))) then
          let s := s.putMsg id { m with busyPsn := some psn, sent := Tbl.del m.sent psn }
          let s := s.setSw { s.sw with inq := Tbl.map (fun _ l => l.filter (fun k => !(k.msg == some id && k.psn == psn))) s.sw.inq }
          .next (s.resend id psn)
        else .next s

/-! ### Beacon (R235 to R239) -/

/-- Add to a Beacon queue pair's debt. -/
def State.addDebt (s : State) (q bytes : Nat) : State :=
  s.modQp q (fun x => { x with debt := s.debt x + bytes, debtAt := s.now })

/-- BEACON_DEBT_ZERO (R235): the fetch of the next slot is issued. -/
def execBeaconDebtZero (t q : Nat) (s : State) : Host.Outcome State Fault Refusal :=
  let s := s.at t
  .next (if (s.qp q).beacon && s.debt (s.qp q) == 0 then (s.tryFetch q false).tryFetch q true else s)

/-- The injection regulator's level (R238): SCH_BEACON_INJ.RATE with a depth of 8,448 B. -/
def State.injLevel (s : State) : Rat :=
  min 8448 (s.sw.inj.level + (s.fld F.SCH_BEACON_INJ_RATE : Rat) / 1000 * ((s.now - s.sw.inj.at0 : Nat) : Rat))

/-- PACER_RELEASE (R237 to R239): the pacer's next packet goes into the switch at its release time, through the injection
regulator; the length of a copy sent again is added to the debt. -/
def execPacerRelease (t q : Nat) (s : State) : Host.Outcome State Fault Refusal :=
  let s := s.at t
  let s := s.purgeLate
  match Tbl.get [] s.sw.pacer q with
  | [] => .next s
  | k :: ks =>
    if Tbl.get 0 s.sw.pacerAt q ≤ (s.now : Rat) ∧ (k.len : Rat) ≤ s.injLevel then
      let at1 : Rat := s.now + (k.len : Rat) * 1000 / ((max 1 (s.qp q).rate : Nat) : Rat)
      let s := s.setSw { s.sw with
        pacer := Tbl.set [] s.sw.pacer q ks
        pacerAt := Tbl.set 0 s.sw.pacerAt q at1
        inj := ⟨s.injLevel - k.len, s.now⟩ }
      let s := s.setInq k.input (s.inqOf k.input ++ [{ k with at0 := s.now, at1 := s.now, rel := s.now }])
      .next (if k.first then s else s.addDebt q k.len)
    else .next s

/-! ### Form of an arriving answer -/

/-- Take a packet that left the fabric here; a packet not so listed is one that came by another way, at this time. -/
def State.take (s : State) (p : Packet) : Nat × State :=
  match s.sw.ejected.find? (fun e => e.2 == p) with
  | some e => (e.1, s.setSw { s.sw with ejected := s.sw.ejected.erase e })
  | none => (s.now, s)

/-- The form tests of R189. PSHIFT is 13 only where the source is a peer over Ethernet (R183). -/
def State.formOk (s : State) (p : Packet) : Bool := packetFormOk p && (s.overEth p.src || !p.cut8k)

/-- The first tests of any arriving packet (R189, R190): none when it is discarded, with what was counted. A packet of another
version passes only if it is a request, for the NAK VERSION of R217. -/
def State.packetIn (s : State) (p : Packet) (type : Nat) : Bool × State :=
  let s := (s.take p).2
  if p.poison then (false, s.count F.TRN_COUNT_COUNT 1)
  else if p.type ≠ type ∨ s.node ≠ some p.dst ∨ (p.ver = 1 ∧ !s.formOk p) then (false, s.count F.TRN_COUNT_COUNT 7)
  else (true, s)

/-- An answer without payload: form, then CRC-64. -/
def State.admitAnswer (s : State) (p : Packet) (type : Nat) : Bool × State :=
  let a := s.packetIn p type
  if !a.1 || p.ver != 1 then (false, a.2)
  else if p.w7 = word (p.crc []) then a else (false, a.2.count F.TRN_COUNT_COUNT 0)

/-! ### Answers (R195, R198 to R200, R213, R214) -/

/-- The message an answer is for, if its die still holds it. -/
def State.answered (s : State) (p : Packet) : Option Msg :=
  match s.msg p.msgId with
  | some m => if m.node = p.src ∨ m.kind = .col then some m else none
  | none => none

/-- Whether the answers to a message change its flight entry's rate: a Beacon message's and a management message's do not (R222, R232). An answer
to a message that has ended is a sample like any other (R198). -/
def Msg.rated (m : Msg) : Bool := !m.beacon && m.kind != .mgt

/-- The PSNs an ACK shows (R184). -/
def ackPsnsOf (p : Packet) : List Nat := (maskBits p.w4.toNat 64).map (fun i => p.psn + i)

/-- PSNs acknowledged: their bits are set, their timeouts return to RTO, a busy message resumes once its probe is acknowledged, and
the message ends when every PSN is set, or given up (R196, R198, R199). -/
def State.ackPsns (s : State) (id : Nat) (m : Msg) (ps : List Nat) : State :=
  let ps := ps.filter (fun i => decide (i < m.npkts) && !m.bad.contains i)
  let done := match m.busyPsn with
    | some i => ps.contains i
    | none => false
  let m := { m with
    acked := (m.acked ++ ps).eraseDups, sent := ps.foldl Tbl.del m.sent, tmo := ps.foldl Tbl.del m.tmo
    busy := if done then none else m.busy, busyPsn := if done then none else m.busyPsn }
  (s.putMsg id m).tryEnd id

/-- ATOMIC_RSP (R198, R214): the atomic ends with the old value. -/
def execAtomicRsp (t : Nat) (p : Packet) (s : State) : Host.Outcome State Fault Refusal :=
  let a := (s.at t).admitAnswer p Pk.ATOMIC_RSP
  if !a.1 then .next a.2
  else
    let s := a.2
    match s.answered p with
    | none => .next (s.rttSample p.src p.ts p.ece true)
    | some m =>
      let s := s.rttSample p.src p.ts p.ece m.rated
      if m.kind = .atomic then
        let s := s.modRec m.recId (fun x => if x.desc.fetch then { x with data := p.w6 } else x)
        .next (s.endMsg p.msgId Stat.SUCCESS)
      else .next s

/-- ERROR_RSP (R102, R131, R199): the message ends with MEMORY_ERROR and POISON_ADDR, or PORT_ERROR; a read request once its packets not
affected have come. -/
def execErrorRsp (t : Nat) (p : Packet) (s : State) : Host.Outcome State Fault Refusal :=
  let a := (s.at t).admitAnswer p Pk.ERROR_RSP
  if !a.1 then .next a.2
  else
    match a.2.answered p with
    | none => .next a.2
    | some m =>
      let fail (st : Nat) (d : Word) : State := if m.kind = .read then a.2.failPkt p.msgId p.psn st d else a.2.endMsg p.msgId st d
      .next (if p.nakReason = 0 then fail Stat.MEMORY_ERROR p.w4 else if p.nakReason = 1 then fail Stat.PORT_ERROR 0 else a.2)

/-- A NAK ends a message with a status; one of a read request ends the READ, whose other requests go no further (R199, R213). -/
def State.nakEnd (s : State) (id : Nat) (m : Msg) (status : Nat) : State :=
  if m.kind = .read then ((s.giveUp m.recId).modRec m.recId (fun x => x.fail status 0)).settle m.recId else s.endMsg id status

/-- The sender's action on a NAK (R199, R217). (log entry 59) -/
def State.nakked (s : State) (p : Packet) (m : Msg) : State :=
  let id := p.msgId
  let r := p.nakReason
  if r = Nk.REVOKED then s.nakEnd id m Stat.REGION_REVOKED
  else if r = Nk.DENIED then s.nakEnd id m Stat.REGION_DENIED
  else if r = Nk.RECV_REFUSED then s.nakEnd id m Stat.RECEIVE_REFUSED
  else if r = Nk.BUSY then
    let s := (s.count F.TRN_COUNT_COUNT 6).event 0x07 m.part 1
    let rto := s.rto (Tbl.find s.tr.flights m.node)
    s.putMsg id { m with busy := some (s.now, max rto (p.nakHint * 1000)), busyPsn := none }
  else if r = Nk.VERSION then
    let both := Nat.land (s.fld F.TRN_CAPS_VERSIONS) (bits p.w4 0 16)
    match ((List.range 16).filter (fun v => both.testBit v)).getLast? with
    | none => s.endMsg id Stat.DEST_UNREACHABLE
    | some v =>
      let s := s.putMsg id { m with ver := v }
      m.unacked.foldl (fun s i => s.resend id i) s
  else s

/-- NAK (R199, R200, R217). It gives no round-trip sample: R195 and R230 name the other answers only. (log entry 119) -/
def execNak (t : Nat) (p : Packet) (s : State) : Host.Outcome State Fault Refusal :=
  let a := (s.at t).admitAnswer p Pk.NAK
  if !a.1 then .next a.2
  else
    match a.2.answered p with
    | none => .next a.2
    | some m => .next (a.2.nakked p m)

/-- RETRY_HORIZON_END (R197, R202, R353): a message not ended by d + H ends with RETRY_EXCEEDED; of a collective message, what is not
acknowledged begins at once as a new message, under a new ID, but for an ABORT (R360). -/
def State.horizonEnd (s : State) (id : Nat) (m : Msg) : State :=
  if m.kind = .col then
    if bits (m.ctl.getD 1 0) 4 4 = 2 then s.dropMsg id
    else
    let rest := (List.range m.npkts).filter (fun i => !m.acked.contains i)
    match rest.head? with
    | none => s.dropMsg id
    | some i =>
      let c := (m.cut i).1
      let s := s.dropMsg id
      let ctl := m.ctl.set 2 (word ((m.ctl.getD 2 0).toNat + c))
      let x := s.addMsg { m with
        len := m.len - c, data := m.data.drop c, off := m.off + c, ctl := ctl, begun := false, d := none, sent := [], tmo := [], busy := none, busyPsn := none
        acked := (m.acked.filter (fun j => decide (i ≤ j))).map (fun j => j - i) }
      (x.2.count F.COL_COUNT_COUNT 6).tryBegin x.1
  else s.endMsg id Stat.RETRY_EXCEEDED

/-- A round-trip sample of the collective engine (R348). -/
def State.colSample (s : State) (node ts : Nat) : State :=
  let x : Rat := ((s.now + 2 ^ 48 - ts) % 2 ^ 48 : Nat)
  let f := ((Tbl.find s.col.rtt node).getD s.newFlight).sample x
  { s with col := { s.col with rtt := Tbl.put s.col.rtt node f } }

/-- An arriving ACK (R195, R198, R230): a round-trip sample, and the PSNs placed. -/
def State.gotAck (s : State) (p : Packet) : State :=
  let a := s.admitAnswer p Pk.ACK
  if !a.1 then a.2
  else
    let s := a.2
    match s.answered p with
    | none => s.rttSample p.src p.ts p.ece true
    | some m =>
      let s := if m.kind = MsgKind.col then s.colSample p.src p.ts else s.rttSample p.src p.ts p.ece m.rated
      if m.kind = .read then s else s.ackPsns p.msgId m (ackPsnsOf p)

end Sys2Proof.Machine
end

