-- ==== Sys2Proof/Machine/Receiver.lean ====
section
/-!
DEFINITION. The receiving side of Kilpin Transport (R204 to R217, spec/06_transport.md): the recent-delivery table, arriving
requests, acknowledgements, and the reader's responses.
-/
namespace Sys2Proof.Machine

/-! ### Answers built here -/

/-- A header of an answer to a packet: RSP, version 1, MSG_ID and TS of the packet answered (R184). (log entry 50) -/
def State.answerTo (s : State) (p : Packet) (type : Nat) (ece : Bool) (opx : Nat) : Packet :=
  { Packet.zero with
    w0 := hdr0 1 type Cls.RSP false false p.src (s.node.getD 0) 0, w1 := hdr1 s.nv.epoch 0 0, w2 := hdr2 p.msgId p.psn 0 p.pshift false
    w5 := hdr5 p.ts ece opx }

/-- A NAK with a reason, a sub-code and a hint (R186), counted in TRN_COUNT and RGN_NAK_COUNT (R80, R220). -/
def State.sendNak (s : State) (p : Packet) (reason sub hint : Nat) (versions : Nat := 0) : State :=
  let n := { s.answerTo p Pk.NAK false (reason * 2 ^ 11 + sub * 2 ^ 8 + hint) with w4 := word versions }
  let s := if reason = Nk.BUSY then s.count F.TRN_COUNT_COUNT 5 else if reason = Nk.VERSION then s.count F.TRN_COUNT_COUNT 8 else s.countNak reason
  s.sendAnswer n.seal 0

/-- NAK VERSION (R217). -/
def State.nakVersion (s : State) (p : Packet) : State := s.sendNak p Nk.VERSION 0 0 (s.fld F.TRN_CAPS_VERSIONS)

/-- An error response (R102, R131). -/
def State.sendError (s : State) (p : Packet) (psn err poison : Nat) : State :=
  let e := s.answerTo p Pk.ERROR_RSP false (err * 2 ^ 11)
  s.sendAnswer ({ e with w2 := hdr2 p.msgId psn 0 p.pshift false, w4 := word poison }).seal 0

/-! ### The recent-delivery table (R204, R209, R246) -/

def State.setRds (s : State) (t : Tbl Rd) : State := { s with tr := { s.tr with rds := t } }

/-- The key of an entry: source node, SRC_EPOCH, MSG_ID. -/
def rdKeyOf (src epoch msgId : Nat) : Nat := (src * 65536 + epoch) * 2 ^ 32 + msgId
def rdKey (p : Packet) (src : Nat := p.src) : Nat := rdKeyOf src p.epoch p.msgId
def State.rd (s : State) (k : Nat) : Option Rd := Tbl.find s.tr.rds k
def State.putRd (s : State) (k : Nat) (e : Rd) : State := s.setRds (Tbl.put s.tr.rds k e)

/-- Entries and bitmaps of a die, and the Beacon reserve (R204, R246). -/
def rdSlots : Nat := 131072
def rdBitmaps : Nat := 16384
def beaconSlots : Nat := 8192
def beaconBitmaps : Nat := 1024

/-- The holding time of 4 ms, in ns. -/
def tDup : Nat := 4000000

def State.rdsOf (s : State) (die : Nat) : List Rd := (s.tr.rds.filter (fun e => s.dieOf e.2.src == die)).map (·.2)

/-- Where a new entry comes from: some true the Beacon reserve, some false the rest, none when no entry is free. -/
def State.freeEntry (s : State) (die : Nat) (beacon : Bool) : Option Bool :=
  let l := s.rdsOf die
  if beacon && decide ((l.filter (·.beacon)).length < beaconSlots) then some true
  else if (l.filter (fun e => !e.beacon)).length < rdSlots - beaconSlots then some false else none

/-- The same for a bitmap. -/
def State.freeBitmap (s : State) (die : Nat) (beacon : Bool) : Option Bool :=
  let l := (s.rdsOf die).filter (·.bitmap)
  if beacon && decide ((l.filter (·.bmRes)).length < beaconBitmaps) then some true
  else if (l.filter (fun e => !e.bmRes)).length < rdBitmaps - beaconBitmaps then some false else none

/-- HINT: µs until the die's next entry (or bitmap) expires, at most 255 (R209). -/
def State.hint (s : State) (die : Nat) (bitmaps : Bool) : Nat :=
  let ts := ((s.rdsOf die).filter (fun e => !bitmaps || e.bitmap)).map (fun e => e.since + tDup - s.now)
  match ts.min? with
  | none => 0
  | some x => min 255 (ceilDiv x 1000)

/-- A new ASSEMBLING entry (R204). -/
def State.newRd (s : State) (p : Packet) (src : Nat) (bm bmRes res isMgt : Bool) (recv : Option Nat) (part : Nat) : Rd :=
  { src := src, epoch := p.epoch, msgId := p.msgId, delivered := false, since := s.now, psns := [], met := [], lens := [], bytes := 0
    len := p.msgLen, bitmap := bm, bmRes := bmRes, beacon := res, old := 0, fetching := false, isMgt := isMgt, recv := recv
    qpn := if isMgt then 65536 + p.destQpn else p.destQpn, srcQpn := p.srcQpn, imm := p.w4, part := part, due := [], dueAt := 0
    mgt := [], links := [] }

/-! ### Acknowledgements (R195, R208) -/

/-- The base PSN of an ACK: the multiple of 64 at or below its lowest PSN, as in the worked example of spec/06 (DEDUCED, log entry 62). -/
def ackBase (ps : List Nat) : Nat := ps.min?.getD 0 / 64 * 64

/-- One ACK for a list of PSNs, with the TS and ECE it echoes. -/
def State.ackTo (s : State) (dst msgId : Nat) (ps : List Nat) (ts : Nat) (ece : Bool) : State :=
  let base := ackBase ps
  let now := ps.filter (fun i => decide (i < base + 64))
  let a := { Packet.zero with
    w0 := hdr0 1 Pk.ACK Cls.RSP false false dst (s.node.getD 0) 0, w1 := hdr1 s.nv.epoch 0 0, w2 := hdr2 msgId base 0 12 false
    w4 := word (now.foldl (fun w i => w + 2 ^ (i - base)) 0), w5 := hdr5 ts ece 0 }
  s.sendAnswer a.seal 0

/-- An ACK of an entry's message. To whatever is behind a port in state MGT_ONLY none leaves: an ACK is no MGT packet (R185, R264). -/
def State.sendAck (s : State) (e : Rd) (ps : List Nat) (ts : Nat) (ece : Bool) : State :=
  if 65536 ≤ e.src then s else s.ackTo e.src e.msgId ps ts ece

/-- ACKs for every PSN due, up to 64 consecutive PSNs each: an ACK echoes the TS of the copy placed last among those it reports, and ECE if one
of them was marked (R184, R195). The number bounds the ACKs of one message. -/
def State.ackAll (s : State) (e : Rd) : Nat → List (Nat × Nat × Bool) → State
  | 0, _ => s
  | n + 1, ds =>
    if ds.isEmpty then s
    else
      let base := ackBase (ds.map (·.1))
      let now := ds.filter (fun d => decide (d.1 < base + 64))
      State.ackAll (s.sendAck e (now.map (·.1)) ((now.getLast?.map (·.2.1)).getD 0) (now.any (·.2.2))) e n (ds.filter (fun d => decide (base + 64 ≤ d.1)))

/-- Send what is due of an entry now. -/
def State.flushAck (s : State) (k : Nat) : State :=
  match s.rd k with
  | none => s
  | some e => (s.ackAll e 32 e.due).putRd k { e with due := [] }

/-- COUNT of TRN_ACK_CFG; 0 acts as 1. -/
def State.ackCount (s : State) : Nat := max 1 (s.fld F.TRN_ACK_CFG_COUNT)

/-- A message is complete (R205): DELIVERED, the bitmap released; a SEND writes its RECEIVED entry, a management message goes to the
Lamp room. -/
def State.deliver (s : State) (k : Nat) (e : Rd) : State :=
  let s := s.putRd k { e with delivered := true, since := s.now, bitmap := false, bmRes := false, mgt := [] }
  if e.isMgt then
    let bytes := ((List.range 1025).flatMap (fun i => ((e.mgt.find? (fun m => m.1 == i)).map (·.2)).getD []))
    s.toLamp e.src (e.qpn - 65536) bytes
  else
    match e.recv with
    | none => s
    | some r =>
      (s.modRec r (fun x => { x with node := e.src, srcQpn := e.srcQpn, links := (x.links ++ e.links).eraseDups })).finish r Ty.RECEIVED
        Stat.SUCCESS e.len e.imm

/-- A packet that this adapter sent itself has been placed through links: its descriptor reports them (R44, R122). -/
def State.sentThrough (s : State) (id : Nat) (links : List Nat) : State :=
  match s.msg id with
  | some m => s.modRec m.recId (fun x => { x with links := (x.links ++ links).eraseDups })
  | none => s

/-- A packet's placement meets R26 (R205, R208): its ACK falls due, the message completes when every counted packet has, and the ACK
leaves at COUNT placements or at completion. -/
def State.metPacket (s : State) (k psn ts : Nat) (ece : Bool) (links : List Nat) : State :=
  match s.rd k with
  | none => s
  | some e =>
    if !e.psns.contains psn then s
    else
      let s := if s.node = some e.src then s.sentThrough e.msgId links else s
      let e := { e with
        met := e.met ++ [psn], due := e.due ++ [(psn, ts, ece)]
        dueAt := if e.due.isEmpty then s.now + s.fld F.TRN_ACK_CFG_DELAY else e.dueAt, links := (e.links ++ links).eraseDups }
      let s := s.putRd k e
      if e.bytes = e.len ∧ e.psns.all (fun i => e.met.contains i) then (s.deliver k e).flushAck k
      else if s.ackCount ≤ e.due.length then s.flushAck k else s

/-- ACK_DELAY_TIMER (R208): DELAY after the oldest placement it covers, an ACK is sent; DELAY as it stood then (R221). -/
def execAckDelayTimer (t k : Nat) (s : State) : Host.Outcome State Fault Refusal :=
  let s := s.at t
  match s.rd k with
  | some e => .next (if ¬ e.due.isEmpty ∧ e.dueAt ≤ s.now then s.flushAck k else s)
  | none => .next s

/-- RD_ENTRY_EXPIRE (R204): a DELIVERED entry is freed 4 ms after it entered DELIVERED. -/
def execRdEntryExpire (t k : Nat) (s : State) : Host.Outcome State Fault Refusal :=
  let s := s.at t
  match s.rd k with
  | some e => .next (if e.delivered ∧ e.since + tDup ≤ s.now then s.setRds (Tbl.del s.tr.rds k) else s)
  | none => .next s

/-- ASSEMBLING_ABANDON (R204, R211): an ASSEMBLING entry is freed 4 ms after it was taken; the RECV it bound returns to the head. -/
def execAssemblingAbandon (t k : Nat) (s : State) : Host.Outcome State Fault Refusal :=
  let s := s.at t
  match s.rd k with
  | some e =>
    if ¬ e.delivered ∧ e.since + tDup ≤ s.now then
      let s := (s.setRds (Tbl.del s.tr.rds k)).count F.TRN_COUNT_COUNT 9
      .next (match e.recv with
        | some r => (s.modRec r (fun x => { x with phase := .waiting })).modQp e.qpn (fun q => { q with recvs := r :: q.recvs })
        | none => s)
    else .next s
  | none => .next s

/-! ### Duplicates (R206) -/

/-- Answer a packet of a DELIVERED message again. -/
def State.answerAgain (s : State) (p : Packet) (e : Rd) : State :=
  let s := s.count F.TRN_COUNT_COUNT 4
  if e.fetching then s.sendAnswer ({ s.answerTo p Pk.ATOMIC_RSP p.cm 0 with w6 := e.old }).seal 0
  else s.sendAck e [p.psn] p.ts p.cm

/-- What the duplicate check answers: the state when the packet is a duplicate, none when it is not. -/
def State.duplicate (s : State) (p : Packet) (src : Nat := p.src) : Option State :=
  match s.rd (rdKey p src) with
  | none => none
  | some e =>
    if e.delivered then some (s.answerAgain p e)
    else if e.psns.contains p.psn then
      some (if e.met.contains p.psn then (s.count F.TRN_COUNT_COUNT 4).sendAck e [p.psn] p.ts p.cm else s.count F.TRN_COUNT_COUNT 4)
    else none

/-- Bytes written toward memory by a packet that then failed its CRC-64 are undefined (R27): free bytes. (log entry 20) -/
def State.undefine (s : State) (part : Nat) (parts : List (Nat × List Byte)) : State :=
  let n := s.free
  let free (a : Nat) (b : List Byte) : List Byte := (List.range b.length).map (fun i => Config.freeByte n (a + i))
  let s := { s with free := s.free + 1 }
  parts.foldl (fun s x =>
    if (linkOf x.1).isNone then s.mWrite x.1 (free x.1 x.2) else s.linkPut part x.1 (free x.1 x.2)) s

/-- Measure arriving traffic against SCH_PART_POLICE (R249): whether the packet is marked. Beacon packets are measured only. -/
def State.policed (s : State) (part len : Nat) (beacon : Bool) : Bool × State :=
  let rate := s.fld F.SCH_PART_POLICE_RATE part
  if rate = 0 then (false, s)
  else
    let depth := s.fld F.SCH_PART_POLICE_BURST part * 1024
    let lvl := bucketLevel s.sw.police part rate depth s.now
    let above := decide (lvl < (len : Rat))
    let left : Rat := if above && !beacon then lvl else max 0 (lvl - len)
    let s := s.setSw { s.sw with police := Tbl.put s.sw.police part ⟨left, s.now⟩ }
    (above && !beacon, s)

/-- Take the entry of a new message, or answer NAK BUSY (R206, R209). -/
def State.takeEntry (s : State) (p : Packet) (isMgt : Bool) (recv : Option Nat) (part : Nat) (src : Nat := p.src) : State × Bool :=
  let die := s.dieOf src
  match s.freeEntry die p.beacon with
  | none => (s.sendNak p Nk.BUSY 0 (s.hint die false), false)
  | some res =>
    if p.msgLen ≤ p.plen then (s.putRd (rdKey p src) (s.newRd p src false false res isMgt recv part), true)
    else
      match s.freeBitmap die p.beacon with
      | none => (s.sendNak p Nk.BUSY 1 (s.hint die true), false)
      | some bm => (s.putRd (rdKey p src) (s.newRd p src true bm res isMgt recv part), true)

/-- Count a packet in its entry (R205). -/
def State.countPacket (s : State) (p : Packet) (src : Nat := p.src) : State :=
  match s.rd (rdKey p src) with
  | none => s
  | some e => s.putRd (rdKey p src) { e with psns := e.psns ++ [p.psn], lens := Tbl.put e.lens p.psn p.plen, bytes := e.bytes + p.plen }

/-- Discard a counted packet whose writes will never meet R26 (R207). -/
def State.uncountPacket (s : State) (k psn : Nat) : State :=
  match s.rd k with
  | none => s
  | some e => s.putRd k { e with psns := e.psns.erase psn, lens := Tbl.del e.lens psn, bytes := e.bytes - Tbl.get 0 e.lens psn }

/-! ### WRITE_DATA (R68, R69, R206) -/

/-- Re-issue a request on FWD through the redirect table (R429); none when no valid entry matches. -/
def State.reissue (s : State) (p : Packet) (owner : Nat) : Option State :=
  match Tbl.find s.tr.redirs p.key with
  | none => none
  | some r =>
    if p.cls ≠ Cls.REQ ∨ p.inc ≠ r.oldInc then none
    else
      let q := { p with
        w0 := setBits (setBits p.w0 53 3 Cls.FWD) 18 14 r.node
        w1 := setBits (setBits p.w1 32 16 r.inc) 0 32 r.key
        w4 := setBits p.w4 0 50 (p.addr - r.oldBase + r.base) }
      match s.openPacket owner p with
      | .noKey => none
      | .forged => none
      | .bad => none
      | .ok plain =>
        let q := { q with pay := plain, trailer := [] }
        let q := if p.enc then (match s.slotKey owner p.keyId with
          | some k => s.encrypt k q
          | none => q) else { q with w7 := word (q.crc plain) }
        some (s.sendAnswer q owner)

/-- The answer to a request the region check refuses: re-issued where a redirect matches, else the NAK (R80, R429). -/
def State.refuse (s : State) (p : Packet) (reason owner : Nat) : State :=
  if reason = Nk.REVOKED then
    match s.reissue p owner with
    | some s' => s'
    | none => s.sendNak p reason 0 0
  else s.sendNak p reason 0 0

/-- The first 64 B line a write would cover only in part and that is poisoned. -/
def State.partsPoison (s : State) (parts : List (Nat × List Byte)) : Option Nat :=
  parts.findSome? (fun x => if winOf x.1 = 1 then s.partPoison (bitsN x.1 0 48) x.2.length else none)

/-- What placing parts needs. -/
def State.partsNeeds (s : State) (parts : List (Nat × List Byte)) : List Nat := parts.flatMap (fun x => s.needsOf x.1 x.2.length)

/-- A write that passed every check is placed and counted. -/
def State.acceptWrite (s : State) (p : Packet) (owner idx : Nat) (plain : List Byte) (at0 : Nat) : State :=
  let parts := [(p.addr, plain)]
  let s := s.checkedParts parts
  match s.partsPoison parts with
  | some g => s.sendError p p.psn 0 g
  | none =>
    let ok := if (s.rd (rdKey p)).isSome then (s, true) else s.takeEntry p false none owner
    if !ok.2 then ok.1
    else
      let m := ok.1.policed owner p.len p.beacon
      ((m.2.countPacket p).countRegion idx).place owner parts (some idx) (.packet (rdKey p) p.psn p.ts (p.cm || m.1))
        (if p.beacon then some at0 else none)

/-- A request for a region, with its write, read and atomic needs: not a duplicate, and not refused (R68, R466). -/
def State.passes (s : State) (p : Packet) (len : Nat) (nr nw na : Bool) : Option Nat :=
  match s.duplicate p, s.regionCheck p.inc p.key p.addr len nr nw na with
  | none, .ok idx => if (s.part (s.region (keyIdx p.key)).owner).fabricEnc && !p.enc then none else some idx
  | _, _ => none

/-- An accepted packet waits for what it needs, counted in its region (R69, R482). -/
def State.holdAccepted (s : State) (ds : List Nat) (p : Packet) (plain : List Byte) (at0 idx : Nat) : State :=
  (s.countRegion idx).hold ds (.accepted p plain at0 idx)

/-- A WRITE_DATA of good form whose header came at at0 (R27, R68, R190, R206, R463, R466): tag and CRC-64 first, then the duplicate check
and the region check; it waits for its domains, then is placed. Where only the CRC-64 fails, its bytes are on their way to memory. -/
def State.writeIn (s : State) (p : Packet) (aes : Option AesHit) (at0 : Nat) : State :=
  let owner := (s.region (keyIdx p.key)).owner
  let ds := s.needsOf p.addr p.plen
  match s.openKnown (s.rgnExists (keyIdx p.key)) owner p with
  | .noKey => s
  | .forged => s.count F.TRN_COUNT_COUNT 0
  | .bad =>
    let s := s.count F.TRN_COUNT_COUNT 0
    if (s.passes p p.plen false true false).isSome && s.ready ds then s.undefine owner [(p.addr, p.pay)] else s
  | .ok plain =>
    match s.duplicate p with
    | some s' => s'
    | none =>
      let s := s.regionRead (keyIdx p.key)
      match s.regionCheck p.inc p.key p.addr p.plen false true false with
      | .nak r => s.refuse p r owner
      | .ok idx =>
        if (s.part owner).fabricEnc && !p.enc then s.sendNak p Nk.DENIED 0 0
        else if !s.ready ds then s.holdAccepted ds p plain at0 idx
        else
          match aes.filter (·.xts) with
          | some h =>
            let s := s.coreMiss h.core 3 owner
            if h.again then s.sendError p p.psn 0 (bitsN p.addr 0 48) else s.acceptWrite p owner idx plain at0
          | none => s.acceptWrite p owner idx plain at0

/-- An arriving WRITE_DATA (R206). -/
def State.writeData (s : State) (p : Packet) (aes : Option AesHit) : State :=
  let a := s.packetIn p Pk.WRITE_DATA
  let owner := (s.region (keyIdx p.key)).owner
  if !a.1 then a.2
  else if p.ver ≠ 1 then a.2.nakVersion p
  else
    match gcmHit aes p with
    | some h => a.2.coreMiss h.core 2 owner
    | none => (a.2.countOpen owner p).writeIn p aes (s.take p).1

/-- WRITE_DATA. -/
def execWriteData (t : Nat) (p : Packet) (aes : Option AesHit) (hits : List EccHit) (s : State) : Host.Outcome State Fault Refusal :=
  .next (((s.at t).struck hits).writeData p aes)

/-! ### SEND_DATA (R210) -/

/-- What the receive check answers: the bound or chosen RECV, or the NAK. -/
inductive RecvCheck where
  | ok (r : Nat)
  | nak (reason sub : Nat)
  deriving DecidableEq, Repr

/-- The receive check (R210). -/
def State.receiveCheck (s : State) (p : Packet) : RecvCheck :=
  let q := s.qp p.destQpn
  if q.state ≠ .active ∨ q.rq.isNone ∨ q.ethPort.isSome then .nak Nk.RECV_REFUSED 0
  else if p.key ≠ q.qkey then .nak Nk.RECV_REFUSED 1
  else
    match s.rd (rdKey p) with
    | some e => (match e.recv with
      | some r => .ok r
      | none => .nak Nk.RECV_REFUSED 0)
    | none =>
      match q.recvs with
      | [] => .nak Nk.BUSY 2
      | r :: _ =>
        if ((s.getRec r).map (fun x => x.desc.len)).getD 0 < p.msgLen then .nak Nk.RECV_REFUSED 2 else .ok r

/-- Where a SEND's packet goes in its RECV buffer (R210). -/
def State.recvParts (s : State) (r : Nat) (p : Packet) (b : List Byte) : List (Nat × List Byte) :=
  layOut (cutExt (((s.getRec r).map (·.dst)).getD []) (p.psn * 2 ^ p.pshift) b.length) b

/-- Bind the RECV of a new message (R210). -/
def State.bind (s : State) (q r : Nat) : State :=
  (s.modQp q (fun x => { x with recvs := x.recvs.erase r })).modRec r (fun x => { x with phase := .running })

/-- A SEND packet that passed its checks is placed and counted. -/
def State.acceptSend (s : State) (p : Packet) (part r : Nat) (plain : List Byte) (at0 : Nat) : State :=
  let parts := s.recvParts r p plain
  let s := s.checkedParts parts
  match s.partsPoison parts with
  | some g => s.sendError p p.psn 0 g
  | none =>
    let ok := if (s.rd (rdKey p)).isSome then (s, true)
      else
        let x := s.takeEntry p false (some r) part
        if x.2 then (x.1.bind p.destQpn r, true) else x
    if !ok.2 then ok.1
    else
      let m := ok.1.policed part p.len p.beacon
      (m.2.countPacket p).place part parts none (.packet (rdKey p) p.psn p.ts (p.cm || m.1)) (if p.beacon then some at0 else none)

/-- What a SEND's placement needs in a RECV's buffer. -/
def State.recvNeeds (s : State) (r : Nat) (p : Packet) : List Nat := s.partsNeeds (s.recvParts r p p.pay)

/-- A SEND_DATA of good form whose header came at at0 (R206, R210): tag and CRC-64 first, then the duplicate check and the receive check;
it waits for its domains, then is placed. -/
def State.sendIn (s : State) (p : Packet) (at0 : Nat) : State :=
  let part := (s.qp p.destQpn).part
  match s.openKnown (decide ((s.qp p.destQpn).state ≠ .free)) part p with
  | .noKey => s
  | .forged => s.count F.TRN_COUNT_COUNT 0
  | .bad =>
    let s := s.count F.TRN_COUNT_COUNT 0
    match s.duplicate p, s.receiveCheck p with
    | none, .ok r =>
      if s.ready (s.recvNeeds r p) && (p.enc || !(s.part part).fabricEnc) then s.undefine part (s.recvParts r p p.pay) else s
    | _, _ => s
  | .ok plain =>
    match s.duplicate p with
    | some s' => s'
    | none =>
      match s.receiveCheck p with
      | .nak r sub => s.sendNak p r sub (if r = Nk.BUSY then s.hint (s.dieOf p.src) false else 0)
      | .ok r =>
        if (s.part part).fabricEnc && !p.enc then s.sendNak p Nk.DENIED 0 0
        else if !s.ready (s.recvNeeds r p) then s.hold (s.recvNeeds r p) (.packet p at0)
        else s.acceptSend p part r plain at0

/-- An arriving SEND_DATA (R206, R210). -/
def State.sendData (s : State) (p : Packet) (aes : Option AesHit) : State :=
  let a := s.packetIn p Pk.SEND_DATA
  let part := (s.qp p.destQpn).part
  if !a.1 then a.2
  else if p.ver ≠ 1 then a.2.nakVersion p
  else
    match gcmHit aes p with
    | some h => a.2.coreMiss h.core 2 part
    | none => (a.2.countOpen part p).sendIn p (s.take p).1

/-- SEND_DATA. -/
def execSendData (t : Nat) (p : Packet) (aes : Option AesHit) (s : State) : Host.Outcome State Fault Refusal :=
  .next ((s.at t).sendData p aes)

/-! ### MGT_DATA (R219, R264) -/

/-- A management packet joins its message: `src` is its source, 65,536 + n for one that came by port n in state MGT_ONLY (R204 to R206, R219). -/
def State.mgtJoin (s : State) (p : Packet) (src : Nat) : State :=
  let k := rdKey p src
  let s := s.countPacket p src
  let s := match s.rd k with
    | some e => s.putRd k { e with mgt := e.mgt ++ [(p.psn, p.pay)] }
    | none => s
  s.metPacket k p.psn p.ts p.cm []

/-- An arriving management packet: as a SEND, delivered to the Lamp room (R219). One that comes by a port in state MGT_ONLY is taken whatever
its DST_NODE (R264); no answer to it leaves, since an answer is no MGT packet. (log entry 48) -/
def State.mgtData (s : State) (p : Packet) : State :=
  let door := decide (2 ^ 63 ≤ (s.take p).1)
  let src := if door then 65536 + ((s.take p).1 - 2 ^ 63) else p.src
  let s := (s.take p).2
  if p.poison then s.count F.TRN_COUNT_COUNT 1
  else if p.type ≠ Pk.MGT_DATA ∨ (s.node ≠ some p.dst ∧ !door) ∨ (p.ver = 1 ∧ !(if door then packetFormOk p && !p.cut8k else s.formOk p)) then
    s.count F.TRN_COUNT_COUNT 7
  else if p.ver ≠ 1 then (if door then s else s.nakVersion p)
  else if p.w7 ≠ word (p.crc p.pay) then s.count F.TRN_COUNT_COUNT 0
  else
    match s.duplicate p src with
    | some s' => s'
    | none =>
      let ok := if (s.rd (rdKey p src)).isSome then (s, true) else s.takeEntry p true none 0 src
      if ok.2 then ok.1.mgtJoin p src else if door then s else ok.1

/-- MGT_DATA. -/
def execMgtData (t : Nat) (p : Packet) (s : State) : Host.Outcome State Fault Refusal := .next ((s.at t).mgtData p)

/-! ### READ_REQ (R213) -/

/-- Send one READ_RSP packet of a request: ENC and KEY_ID as the request's (R466), TS echoed (R195). -/
def State.sendReadRsp (s : State) (req : Packet) (psn : Nat) (b : List Byte) : State :=
  let c := cutAt req.addr req.msgLen req.pshift psn
  let owner := (s.region (keyIdx req.key)).owner
  let p := { Packet.zero with
    w0 := hdr0 1 Pk.READ_RSP Cls.RSP false req.enc req.src (s.node.getD 0) req.keyId, w1 := hdr1 s.nv.epoch 0 0
    w2 := hdr2 req.msgId psn b.length req.pshift (decide (psn + 1 = cutCount req.addr req.msgLen req.pshift))
    w4 := word (req.addr + c.1), w5 := hdr5 req.ts false 0, pay := b }
  if req.enc then
    match s.slotKey owner req.keyId with
    | some k => s.sendAnswer (s.encrypt k p) owner
    | none => s
  else s.sendAnswer p.seal owner

/-- The data of one READ_RSP packet has come, or failed: the affected packet is answered with ERROR_RSP (R102, R131). -/
def State.gotReadRsp (s : State) (req : Packet) (psn : Nat) (g : Got) : State :=
  let s := s.uncountRegion (keyIdx req.key)
  match g with
  | .bytes b => s.sendReadRsp req psn b
  | .bad st d => s.sendError req psn (if st = Stat.MEMORY_ERROR then 0 else 1) d

/-- The packets of an accepted read request that its WANT asks for, from number `from_` on. -/
def State.serveRead (s : State) (p : Packet) (owner idx : Nat) (from_ : Nat := 0) : State :=
  let n := cutCount p.addr p.msgLen p.pshift
  ((List.range n).filter (fun i => p.want.testBit i && decide (from_ ≤ i))).foldl (fun s i =>
    let c := cutAt p.addr p.msgLen p.pshift i
    let g := (s.countRegion idx).gather owner [⟨none, p.addr + c.1, c.2, 0, 0, false⟩] (.readRsp p i)
    match g.2 with
    | some b => g.1.gotReadRsp p i b
    | none => g.1) s

/-- A READ_REQ of good form: tag and CRC-64, the region check; it waits for its domains and is served (R68, R190, R213). `aes` a mismatch
while a line was decrypted or a response encrypted (R463). -/
def State.readIn (s : State) (p : Packet) (aes : Option AesHit) (at0 : Nat) : State :=
  let ds := s.needsOf p.addr p.msgLen
  let owner := (s.region (keyIdx p.key)).owner
  match s.openKnown (s.rgnExists (keyIdx p.key)) owner p with
  | .noKey => s
  | .forged => s.count F.TRN_COUNT_COUNT 0
  | .bad => s.count F.TRN_COUNT_COUNT 0
  | .ok _ =>
    let s := s.regionRead (keyIdx p.key)
    match s.regionCheck p.inc p.key p.addr p.msgLen true false false with
    | .nak r => s.refuse p r owner
    | .ok idx =>
      if (s.part owner).fabricEnc && !p.enc then s.sendNak p Nk.DENIED 0 0
      else if !s.ready ds then s.holdAccepted ds p [] at0 idx
      else
        match aes with
        | none => s.serveRead p owner idx
        | some h =>
          if h.xts then
            let s := s.coreMiss h.core 4 owner
            if h.again then (s.sendError p 0 0 (bitsN p.addr 0 48)).serveRead p owner idx 1 else s.serveRead p owner idx
          else if p.enc then s.coreMiss h.core 1 owner
          else s.serveRead p owner idx

/-- An arriving READ_REQ. -/
def State.readReq (s : State) (p : Packet) (aes : Option AesHit) : State :=
  let a := s.packetIn p Pk.READ_REQ
  if !a.1 then a.2
  else if p.ver ≠ 1 then a.2.nakVersion p
  else (a.2.countOpen (s.region (keyIdx p.key)).owner p).readIn p aes (s.take p).1

/-- READ_REQ. -/
def execReadReq (t : Nat) (p : Packet) (aes : Option AesHit) (hits : List EccHit) (s : State) : Host.Outcome State Fault Refusal :=
  .next (((s.at t).struck hits).readReq p aes)

/-! ### READ_RSP (R28, R212, R213) -/

/-- Whether packet psn of a response, of n bytes, is one the request still waits for. -/
def Msg.lacks (m : Msg) (psn n : Nat) : Bool :=
  m.kind == .read && decide (psn < m.rspCount) && n == (cutAt m.raddr m.len m.pshift psn).2 && !m.acked.contains psn && !m.staged.contains psn
    && !m.bad.contains psn

/-- Place the bytes of a response packet that its request still waits for; a part of a poisoned line is not written (R102). -/
def State.placeRsp (s : State) (p : Packet) (m : Msg) (plain : List Byte) : State :=
  let c := cutAt m.raddr m.len m.pshift p.psn
  let parts := layOut (cutExt m.dst c.1 c.2) plain
  if !m.lacks p.psn p.plen then s
  else if !s.ready (s.partsNeeds parts) then s.hold (s.partsNeeds parts) (.response p plain)
  else
    let s := s.checkedParts parts
    match s.partsPoison parts with
    | some g => s.failPkt p.msgId p.psn Stat.MEMORY_ERROR (word g)
    | none => (s.putMsg p.msgId { m with staged := m.staged ++ [p.psn] }).place m.part parts none (.readRsp p.msgId p.psn)

/-- An arriving READ_RSP (R27, R190, R213): placed where its request's bytes go, unless that packet is placed already or the request has
ended; it waits for what its place needs (R103, R107). -/
def State.readRsp (s : State) (p : Packet) (aes : Option AesHit) : State :=
  let a := s.packetIn p Pk.READ_RSP
  if !a.1 || p.ver != 1 then a.2
  else
    match a.2.answered p with
    | none => a.2.rttSample p.src p.ts p.cm true
    | some m =>
      match gcmHit aes p with
      | some h => a.2.coreMiss h.core 2 m.part
      | none =>
        let s := a.2.countOpen m.part p
        let c := cutAt m.raddr m.len m.pshift p.psn
        match s.openPacket m.part p with
        | .noKey => s
        | .forged => s.count F.TRN_COUNT_COUNT 0
        | .bad =>
          let s := s.count F.TRN_COUNT_COUNT 0
          if m.lacks p.psn p.plen then s.undefine m.part (layOut (cutExt m.dst c.1 c.2) p.pay) else s
        | .ok plain => (s.rttSample p.src p.ts p.cm m.rated).placeRsp p m plain

/-- READ_RSP. -/
def execReadRsp (t : Nat) (p : Packet) (aes : Option AesHit) (s : State) : Host.Outcome State Fault Refusal :=
  .next ((s.at t).readRsp p aes)

/-- A response's placement meets R26: the request ends when every packet has, or has failed (R102, R212). -/
def State.metReadRsp (s : State) (id psn : Nat) (links : List Nat) : State :=
  match s.msg id with
  | none => s
  | some m =>
    let m := { m with acked := m.acked ++ [psn], staged := m.staged.erase psn }
    ((s.putMsg id m).modRec m.recId (fun x => { x with links := (x.links ++ links).eraseDups })).tryEnd id

/-! ### ATOMIC_REQ (R30, R97 to R99, R128, R214) -/

/-- The entry of an executed atomic (R204): DELIVERED, with the old value. -/
def State.atomicEntry (s : State) (p : Packet) (old : Word) : State :=
  match s.rd (rdKey p) with
  | none => s
  | some e => s.putRd (rdKey p) { e with delivered := true, since := s.now, old := old, fetching := p.fetch, psns := [0], met := [0] }

/-- Answer an executed atomic (R214). -/
def State.answerAtomic (s : State) (p : Packet) (old : Word) : State :=
  if p.fetch then s.sendAnswer ({ s.answerTo p Pk.ATOMIC_RSP p.cm 0 with w6 := old }).seal 0
  else
    match s.rd (rdKey p) with
    | some e => s.sendAck e [p.psn] p.ts p.cm
    | none => s

/-- Execute an accepted atomic. -/
def State.runAtomic (s : State) (p : Packet) (owner idx : Nat) : State :=
  let n := aopSize p.aop
  let ok := s.takeEntry { p with w3 := 0 } false none owner
  if !ok.2 then ok.1
  else if winOf p.addr = 1 then
    let g := bitsN p.addr 0 48
    let s := ok.1.land.atomicRead g p.aop
    match s.firstPoison g n with
    | some l => (s.setRds (Tbl.del s.tr.rds (rdKey p))).sendError p 0 0 l
    | none =>
      let x := s.gAtomic g p.aop p.w6.toNat p.w3.toNat
      (x.2.atomicEntry p (word x.1)).answerAtomic p (word x.1)
  else
    match ((ok.1.countPacket p).countRegion idx).linkAtomic owner p.addr p.aop p.w6 p.w3 (.atomicRemote p) with
    | some s' => s'
    | none => s.sendNak p Nk.DENIED 0 0

/-- The old value of a remote atomic behind a link has come, or its read failed (R131). -/
def State.gotAtomicRemote (s : State) (p : Packet) (g : Got) : State :=
  let owner := (s.region (keyIdx p.key)).owner
  let s := s.uncountRegion (keyIdx p.key)
  match g with
  | .bytes b =>
    let old := leNat (b.take (aopSize p.aop))
    ((s.linkAtomicEnd owner p.addr p.aop p.w6 p.w3 old).atomicEntry p (word old)).answerAtomic p (word old)
  | .bad st d => (s.setRds (Tbl.del s.tr.rds (rdKey p))).sendError p 0 (if st = Stat.MEMORY_ERROR then 0 else 1) d

/-- An ATOMIC_REQ of good form: tag and CRC-64, the duplicate check, the region check; it waits for its domains and is executed. (log entry 40) -/
def State.atomicIn (s : State) (p : Packet) (aes : Option AesHit) (at0 : Nat) : State :=
  let ds := s.needsOf p.addr 8
  let owner := (s.region (keyIdx p.key)).owner
  match s.openKnown (s.rgnExists (keyIdx p.key)) owner p with
  | .noKey => s
  | .forged => s.count F.TRN_COUNT_COUNT 0
  | .bad => s.count F.TRN_COUNT_COUNT 0
  | .ok _ =>
    match s.duplicate p with
    | some s' => s'
    | none =>
      let s := s.regionRead (keyIdx p.key)
      match s.regionCheck p.inc p.key p.addr (aopSize p.aop) false false true with
      | .nak r => s.refuse p r owner
      | .ok idx =>
        if ((s.part owner).fabricEnc && !p.enc) || p.addr % aopSize p.aop != 0 then s.sendNak p Nk.DENIED 0 0
        else if !s.ready ds then s.holdAccepted ds p [] at0 idx
        else
          match aes.filter (·.xts) with
          | none => s.runAtomic p owner idx
          | some h =>
            let s := s.coreMiss h.core 4 owner
            if h.again then s.sendError p 0 0 (bitsN p.addr 0 48) else s.runAtomic p owner idx

/-- An arriving ATOMIC_REQ. -/
def State.atomicReq (s : State) (p : Packet) (aes : Option AesHit) : State :=
  let a := s.packetIn p Pk.ATOMIC_REQ
  let owner := (s.region (keyIdx p.key)).owner
  if !a.1 then a.2
  else if p.ver ≠ 1 then a.2.nakVersion p
  else
    match gcmHit aes p with
    | some h => a.2.coreMiss h.core 2 owner
    | none => (a.2.countOpen owner p).atomicIn p aes (s.take p).1

/-- ATOMIC_REQ. -/
def execAtomicReq (t : Nat) (p : Packet) (aes : Option AesHit) (hits : List EccHit) (s : State) : Host.Outcome State Fault Refusal :=
  .next (((s.at t).struck hits).atomicReq p aes)

end Sys2Proof.Machine
end

