-- ==== Sys2Proof/Machine/Qadmin.lean ====
section
/-!
DEFINITION. The queue and ring commands, the doorbells and the admin queues (R115 to R117, R139 to R150, R173 to R176, R233, R234,
spec/05_queues_and_descriptors.md).
-/
namespace Sys2Proof.Machine

/-! ### Doorbells (R115 to R117, R149, R150) -/

/-- QP_DOORBELL: a write of `len` bytes to the slot of doorbell n of partition p, carried by link l. -/
def execQpDoorbell (t l p n len : Nat) (w : Word) (s : State) : Host.Outcome State Fault Refusal :=
  let s := (s.at t).bwRx (bwLink l) len
  if len ≠ 8 ∨ !s.exposed l p ∨ (s.part p).state ≠ .active then .next (s.dropDoorbell l)
  else
    match s.dbOwner p n with
    | .queue q =>
      let rq := bit w 63
      if (s.dring q rq).isNone then .next (s.dropDoorbell l) else .next (s.ringPi q rq (bits w 0 32))
    | _ => .next (s.dropDoorbell l)

/-- RING_DOORBELL: the same for a completion ring or a partition's fault queue (R149, R164, R167, R499). -/
def execRingDoorbell (t l p n len : Nat) (w : Word) (s : State) : Host.Outcome State Fault Refusal :=
  let s := (s.at t).bwRx (bwLink l) len
  if len ≠ 8 ∨ !s.exposed l p ∨ (s.part p).state ≠ .active then .next (s.dropDoorbell l)
  else
    match s.dbOwner p n with
    | .ring r => .next (s.ringHead r (bits w 0 32) (bit w 63))
    | .faultRing => .next (s.faultHead p (bits w 0 32) (bit w 63))
    | _ => .next (s.dropDoorbell l)

/-- ADM_SQ_DOORBELL: a write to QMG_ADM_SQ_DB, which the host link carries (R116, R150, R157, R178). -/
def execAdmSqDoorbell (t pi : Nat) (s : State) : Host.Outcome State Fault Refusal :=
  let s := s.at t
  .next (s.ifServing (fun s => if (s.admq 64).state = .free then s.dropDoorbell 0 else s.ringPi devQueue false (pi % 2 ^ 32)))

/-- ADM_CQ_DOORBELL: a write to QMG_ADM_CQ_DB (R167, R178). -/
def execAdmCqDoorbell (t : Nat) (w : Word) (s : State) : Host.Outcome State Fault Refusal :=
  let s := s.at t
  .next (s.ifServing (fun s => if (s.ring devQueue).state = .free then s.dropDoorbell 0 else s.ringHead devQueue (bits w 0 32) (bit w 63)))

/-! ### Enabling the admin queues (R173, R178, R437) -/

/-- A fresh descriptor ring. -/
def DRing.at (loc : Loc) (ext : Option Extent) (log2 : Nat) : DRing := { DRing.none with loc := loc, ext := ext, log2 := log2 }

/-- A fresh completion ring. -/
def Ring.at (part : Nat) (loc : Loc) (ext : Option Extent) (log2 vector : Nat) (split : Bool) (doorbell : Nat) : Ring :=
  { Ring.none with state := .active, part := part, loc := loc, ext := ext, log2 := log2, vector := vector, split := split, doorbell := doorbell }

/-- LOG2 within 6 to 20 (R140). (log entry 30) -/
def clampLog2 (n : Nat) : Nat := min 20 (max 6 n)

/-- STAGE READY or LAMP_OUT (R437). -/
def State.stage (s : State) : Nat := s.fld F.LAMP_STATUS_STAGE

/-- A write to QMG_ADM_CFG or QMG_PADM_CFG as the register keeps it: the sizes stand while ENABLE is 1, ENABLE is never cleared
(R178). -/
def admCfgWrite (old w : Word) (enableOk : Bool) : Word :=
  if bit old 31 then setBits (setBits old 20 11 (bits w 20 11)) 19 1 (bits w 19 1)
  else setBits (setBits (setBits (setBits old 20 11 (bits w 20 11)) 19 1 (bits w 19 1)) 5 10 (bits w 5 10)) 31 1
    (if enableOk then bits w 31 1 else 0)

/-- VECTOR and SPLIT written while the queue is enabled act on its completion ring (R178). -/
def State.ringCfg (s : State) (r : Nat) (new : Word) : State :=
  if (s.ring r).state = .free then s else s.modRing r (fun x => { x with vector := bits new 20 11, split := bit new 19 })

/-- QMG_ADM_ENABLE: a write to QMG_ADM_CFG; ENABLE is ignored before STAGE is READY or LAMP_OUT (R437). -/
def execQmgAdmEnable (t : Nat) (w : Word) (s : State) : Host.Outcome State Fault Refusal :=
  let s := s.at t
  let old := s.reg .QMG_ADM_CFG
  let new := admCfgWrite old w (s.stage == 6 || s.stage == 7)
  if !s.serving then .next s
  else
  let s := s.setReg .QMG_ADM_CFG 0 0 new
  if bit new 31 ∧ ¬ bit old 31 then
    let sq := DRing.at ⟨0, 0, (s.reg .QMG_ADM_SQ_BASE).toNat⟩ none (clampLog2 (s.fld F.QMG_ADM_CFG_SQ_LOG2))
    let cq := Ring.at 0 ⟨0, 0, (s.reg .QMG_ADM_CQ_BASE).toNat⟩ none (clampLog2 (s.fld F.QMG_ADM_CFG_CQ_LOG2))
      (s.fld F.QMG_ADM_CFG_VECTOR) (s.flag F.QMG_ADM_CFG_SPLIT) 0
    .next ((s.setAdmq 64 ⟨.active, sq⟩).setRing devQueue cq)
  else .next (s.ringCfg devQueue new)

/-- QMG_PADM_ENABLE: a write to partition p's QMG_PADM_CFG; its rings are translated, and a failure leaves the queue disabled in
FAULT (R173); so does a ring behind a lost link. (log entry 141) -/
def execQmgPadmEnable (t p : Nat) (w : Word) (s : State) : Host.Outcome State Fault Refusal :=
  let s := s.at t
  let old := s.reg .QMG_PADM_CFG p
  let new := admCfgWrite old w true
  if ¬ (s.part p).lives ∨ ¬ s.serving then .next s
  else if bit new 31 ∧ ¬ bit old 31 then
    let l1 := clampLog2 (bits new 5 5)
    let l2 := clampLog2 (bits new 10 5)
    let a := s.xring p (s.reg .QMG_PADM_SQ_BASE p).toNat (2 ^ l1 * 64) needR
    let b := s.xring p (s.reg .QMG_PADM_CQ_BASE p).toNat (2 ^ l2 * 32) needW
    if a.1 = Stat.SUCCESS ∧ b.1 = Stat.SUCCESS then
      let sq := DRing.at (s.locOf p a.2.2.2.addr) (some a.2.2.2) l1
      let cq := Ring.at p (s.locOf p b.2.2.2.addr) (some b.2.2.2) l2 (bits new 20 11) (bit new 19) 1
      .next (((s.setReg .QMG_PADM_CFG p 0 new).setAdmq p ⟨.active, sq⟩).setRing (admQueue p) cq)
    else .next ((s.setReg .QMG_PADM_CFG p 0 (setBits new 31 1 0)).setAdmq p ⟨.fault, DRing.none⟩)
  else .next ((s.setReg .QMG_PADM_CFG p 0 new).ringCfg (admQueue p) new)

/-! ### Re-fetching (R155 to R157) -/

/-- Whether a ring's fetch is outstanding. -/
def State.fetching (s : State) (q : Nat) (rq : Bool) : Bool := s.io.reads.any (fun e => e.2.why == .fetch q rq)

/-- Whether a stale slot's next re-fetch is due and may be issued (R156): the k-th 2^(k−1) × 100 ns after the copy before it returned, while the
queue takes slots and its memory can be reached. -/
def State.refetchDue (s : State) (q : Nat) (rq : Bool) (d : DRing) : Bool :=
  d.busy && !s.fetching q rq && decide (1 ≤ d.stale) && decide (d.stale ≤ 8) && decide (d.retAt + 2 ^ (d.stale - 1) * 100 ≤ s.now)
    && s.takes q && s.ringReach d.loc

/-- Fetch a stale slot again, if its time has come. -/
def State.tryRefetch (s : State) (q : Nat) (rq : Bool) : State :=
  match s.dring q rq with
  | none => s
  | some d => if s.refetchDue q rq d then s.fetchNow q rq else s

/-- REFETCH_TIMER (R156). -/
def execRefetchTimer (t q : Nat) (rq : Bool) (s : State) : Host.Outcome State Fault Refusal := .next ((s.at t).tryRefetch q rq)

/-- FETCH_RESUME (R155, R168): a slot that waited for an outstanding count, an acceptance record or its completion ring is fetched. -/
def execFetchResume (t q : Nat) (rq : Bool) (s : State) : Host.Outcome State Fault Refusal := .next (((s.at t).tryRefetch q rq).tryFetch q rq)

/-- FETCH_RETRY_TIMER (R131): a slot whose fetch failed is fetched again 100 µs after the failure. -/
def execFetchRetryTimer (t q : Nat) (rq : Bool) (s : State) : Host.Outcome State Fault Refusal :=
  let s := s.at t
  match s.dring q rq with
  | none => .next s
  | some d =>
    if d.retry ∧ d.retAt + 100000 ≤ s.now then .next ((s.setDring q rq { d with retry := false }).tryFetch q rq) else .next s

/-! ### Admin commands: the shared beginning (R173, R176, R539) -/

/-- Whether two admin commands act on one object, so that the later waits for the earlier (R176). -/
def sameObject (x y : Desc) : Bool :=
  let qp (d : Desc) := d.op == Op.QP_DESTROY || d.op == Op.QP_REARM || d.op == Op.QP_QUERY
  let ring (d : Desc) := d.op == Op.RING_DESTROY || d.op == Op.RING_REARM || d.op == Op.RING_QUERY
  let rgn (d : Desc) : Option Nat :=
    if d.op = Op.REVOKE then some (bits d.w2 0 19) else if d.op = Op.REGION_QUERY then some (bits d.w2 0 19) else none
  let run (d : Desc) : Option (Nat × Nat) :=
    if d.op = Op.GALLERY_FREE then some (d.w2.toNat, bits d.w3 0 22 * 2097152)
    else if d.op = Op.GALLERY_QUERY then some (d.w2.toNat, bits d.w3 0 5 * 2097152)
    else if d.op = Op.BIAS_SET then some (d.w2.toNat, bits d.w3 0 22 * 4096) else none
  (qp x && qp y && bits x.w2 0 16 == bits y.w2 0 16) || (ring x && ring y && bits x.w2 0 16 == bits y.w2 0 16)
    || (match rgn x, rgn y with | some a, some b => a == b | _, _ => false)
    || (match run x, run y with | some a, some b => decide (a.1 < b.1 + b.2) && decide (b.1 < a.1 + a.2) | _, _ => false)
    || (x.op == Op.INVALIDATE_DRAIN && y.op == Op.INVALIDATE_DRAIN && x.part == y.part)

/-- Whether record e of an admin queue was accepted before record x of the same queue. -/
def Rec.before (e x : Rec) : Bool := e.queue == x.queue && decide (0 < idxDiff x.idx e.idx) && decide (idxDiff x.idx e.idx < 2 ^ 31)

/-- Whether an admin command waits for another (R33, R58, R176): one accepted before it on its queue that is not over and acts on the same object,
or a drain or a change of quota of its partition in progress, from whatever source it came. -/
def State.admHeld (s : State) (r : Nat) (x : Rec) : Bool :=
  s.qm.recs.any (fun e => e.1 != r && (e.2.phase == .accepted || e.2.phase == .waiting) && isAdm e.2.queue
    && ((e.2.before x && sameObject x.desc e.2.desc)
      || (e.2.phase == .waiting && (x.desc.op == Op.INVALIDATE_DRAIN || x.desc.op == Op.PART_QUOTA) && e.2.desc.op == x.desc.op
        && x.desc.part == e.2.desc.part)))

/-- An admin command that may start now (R58, R176): it waits for no other, and none before it on its queue is still to start but those that
wait for another themselves. (log entry 24) -/
def State.admStart (s : State) (r op : Nat) : Option Rec :=
  match s.admReady r op with
  | none => none
  | some x =>
    if s.admHeld r x || s.qm.recs.any (fun e => e.1 != r && e.2.phase == .accepted && e.2.before x && !s.admHeld e.1 e.2) then none
    else some x

/-- A TRANSLATION_FAULT completion of partition p is counted (XLT_FAULT_COUNT, R48). -/
def State.countFault (s : State) (p : Nat) : State := s.modPart p (fun y => { y with faults := y.faults + 1 })

/-- Finish an admin command with DATA (or TRANSLATION_FAULT with its reason). -/
def State.admEnd (s : State) (r status : Nat) (data : Nat := 0) (reason : Nat := 0) : State :=
  let s := if status = Stat.TRANSLATION_FAULT then
      (match s.getRec r with
       | some x => s.countFault x.desc.part
       | none => s)
    else s
  s.finishAdm r status data reason

/-- Run an admin command's body, if it may start: a command that names a partition that is FREE or DESTROYING completes with
BAD_STATE (R539); PART_CREATE has its own test, and the Keeper commands ignore PART (R430). -/
def State.admRun (s : State) (r op : Nat) (f : State → Rec → State) : State :=
  match s.admStart r op with
  | some x => if !(List.contains [Op.PART_CREATE, Op.KEEPER_SET, Op.FOG_PUBLISH, Op.REDIRECT_SET] op) && !(s.part x.desc.part).lives then s.admEnd r Stat.BAD_STATE else f s x
  | none => s

/-- Write the RESULT of an admin command, then complete it (R174, R122). -/
def State.admResult (s : State) (r : Nat) (x : Rec) (bs : List Byte) (data : Nat := 0) : State :=
  ((s.writeResult x.part x.xtra bs).modRec r (fun y => { y with links := linksOf x.xtra })).admEnd r
    Stat.SUCCESS data

/-- An admin command waits for an event. -/
def State.admWait (s : State) (r : Nat) : State := s.modRec r (fun x => { x with phase := .waiting })

/-! ### Queue pairs (R142, R143, R145 to R147, R228, R233) -/

/-- A partition's reserved Beacon rate, and the adapter's (SCH_PART_BEACON.USED, SCH_BEACON_USE). -/
def State.beaconUsed (s : State) (p : Nat) : Nat :=
  ((s.qm.qps.filter (fun e => e.2.state != .free && e.2.beacon && e.2.part == p)).map (fun e => e.2.rate)).foldl (· + ·) 0
def State.beaconTotal (s : State) : Nat :=
  ((s.qm.qps.filter (fun e => e.2.state != .free && e.2.beacon)).map (fun e => e.2.rate)).foldl (· + ·) 0
def State.beaconQps (s : State) (die : Nat) : Nat :=
  (s.qm.qps.filter (fun e => e.2.state != .free && e.2.beacon && s.dieOf e.1 == die)).length

/-- The horizon check of R233: BURST / RATE + 1 µs ≤ H / 2. -/
def horizonFits (burst rate h : Nat) : Bool := decide (0 < rate) && decide (2 * (burst * 1000 + 1000 * rate) ≤ h * rate)

/-- The checks of a Beacon reservation (R233). -/
def State.beaconFits (s : State) (p die kind rate burst : Nat) : Bool :=
  kind == 0 && decide (4224 ≤ burst) && horizonFits burst rate s.horizon && decide (s.beaconUsed p + rate ≤ (s.part p).beaconRate)
    && decide (s.beaconTotal + rate ≤ s.fld F.SCH_BEACON_INJ_RATE) && decide (s.beaconQps die < 512)

/-- Queue pairs and rings a partition holds (R398). -/
def State.qpsHeld (s : State) (p : Nat) : Nat := (s.qm.qps.filter (fun e => e.2.state != .free && e.2.part == p)).length
def State.ringsHeld (s : State) (p : Nat) : Nat :=
  (s.qm.rings.filter (fun e => decide (e.1 < 65536) && e.2.state != .free && e.2.part == p)).length

/-- The free numbers of a table for a DIE operand: 0 any, 2 die 0, 3 die 1. -/
def freeNumbers (used : Nat → Bool) (n die : Nat) : List Nat :=
  (List.range n).filter (fun i => !used i && (die == 0 || i % 2 == die - 2))

/-- The status of a completion ring named by QP_CREATE (R142). -/
def State.ringFor (s : State) (part r : Nat) : Nat :=
  let x := s.ring r
  if x.state = .free ∨ 65536 ≤ r then Stat.BAD_STATE else if x.part ≠ part then Stat.PERMISSION_DENIED else Stat.SUCCESS

/-- The body of QP_CREATE. -/
def State.qpCreate (s : State) (r : Nat) (x : Rec) : State :=
  let d := x.desc
  let p := d.part
  let fmt := bits d.w4 60 4
  let kind := bits d.w4 58 2
  let beacon := bit d.w4 54
  let sch := bits d.w4 48 6
  let l1 := bits d.w4 43 5
  let l2 := bits d.w4 38 5
  let die := bits d.w4 36 2
  let r1 := bits d.w5 48 16
  let r2 := bits d.w5 32 16
  let rate := bits d.w6 32 32
  let burst := bits d.w6 0 32
  let free := freeNumbers (fun i => (s.qp i).state != .free) s.nQps die
  if !(s.fld F.QMG_CAPS_FMT).testBit fmt then s.admEnd r Stat.UNSUPPORTED_VERSION
  else if s.ringFor p r1 ≠ Stat.SUCCESS then s.admEnd r (s.ringFor p r1)
  else if l2 ≠ 0 ∧ s.ringFor p r2 ≠ Stat.SUCCESS then s.admEnd r (s.ringFor p r2)
  else if (!beacon && (decide (sch < 2) || !(s.part p).queues.testBit sch)) || (beacon && sch != 0) then s.admEnd r Stat.PERMISSION_DENIED
  else if (s.part p).qps ≤ s.qpsHeld p ∨ free = [] then s.admEnd r Stat.NO_QUEUE
  else
    let n := s.pickFrom free 0
    if beacon && !s.beaconFits p (s.dieOf n.1) kind rate burst then s.admEnd r Stat.NO_RESERVATION
    else
      let a := s.xring p d.w2.toNat (2 ^ l1 * 64) needR
      let b := if l2 = 0 then (Stat.SUCCESS, 0, 0, a.2.2.2) else s.xring p d.w3.toNat (2 ^ l2 * 64) needR
      if a.1 ≠ Stat.SUCCESS then s.admEnd r a.1 a.2.1 a.2.2.1
      else if b.1 ≠ Stat.SUCCESS then s.admEnd r b.1 b.2.1 b.2.2.1
      else
        let db := n.2.pickFrom (allIdx (fun k => n.2.freeDoorbells p k) 130558 2) 2
        let q : Qp := { Qp.none with
          state := .active, part := p, ethPort := if kind = 1 then some (bits d.w4 55 3) else none, beacon := beacon, schQueue := sch
          fmt := fmt, qkey := bits d.w5 0 32, maxOut := bits d.w4 0 13, flags := bits d.w4 32 4, sqRing := r1, rqRing := r2
          sq := DRing.at (s.locOf p a.2.2.2.addr) (some a.2.2.2) l1
          rq := if l2 = 0 then none else some (DRing.at (s.locOf p b.2.2.2.addr) (some b.2.2.2) l2)
          rate := if beacon then rate else 0, burst := if beacon then burst else 0, doorbell := db.1, debtAt := s.now }
        (db.2.setQp n.1 q).admEnd r Stat.SUCCESS (n.1 * 2 ^ 32 + db.1)

/-- QP_CREATE (R142, R143, R228, R233). -/
def execQpCreate (t r : Nat) (s : State) : Host.Outcome State Fault Refusal :=
  .next ((s.at t).admRun r Op.QP_CREATE (fun s x => s.qpCreate r x))

/-- The tests of a command on an existing queue pair: its status, SUCCESS when it may act. -/
def State.qpFor (s : State) (x : Rec) : Nat :=
  let q := s.qp (bits x.desc.w2 0 16)
  if q.state = .free then Stat.BAD_STATE else if q.part ≠ x.desc.part then Stat.PERMISSION_DENIED else Stat.SUCCESS

/-- Whether an accepted descriptor waits on an event that has not begun (R147). -/
def Rec.notBegun (x : Rec) : Bool :=
  (x.desc.op == Op.RECV || x.desc.op == Op.ETH_RECV || x.desc.op == Op.COLLECTIVE) && (x.phase == .accepted || x.phase == .waiting)

/-- The body of QP_DESTROY (R147). -/
def State.qpDestroy (s : State) (r : Nat) (x : Rec) : State :=
  let n := bits x.desc.w2 0 16
  let q := s.qp n
  if s.qpFor x ≠ Stat.SUCCESS then s.admEnd r (s.qpFor x)
  else if q.state = .destroying ∨ (q.state = .halted ∧ x.queue < devQueue) then s.admEnd r Stat.BAD_STATE
  else
    let s := ((s.modQp n (fun q => { q with state := .destroying, destroyer := some r })).admWait r).unbind n
    ((s.recsOf n).filter (fun e => e.2.notBegun)).foldl (fun s e => s.flushRec e.1) s

/-- Whether a queue pair's last completion has been written or discarded (R145, R147). -/
def State.qpDrained (s : State) (n : Nat) : Bool :=
  (s.recsOf n).isEmpty && !s.qm.rings.any (fun e => e.1 < 65536 && e.2.held.any (fun y => y.qpn == n && y.type != Ty.ADMIN))
    && !s.io.builds.any (fun e => match e.2.why with
      | .entry _ y => y.qpn == n && y.type != Ty.ADMIN
      | _ => false)

/-- Drop the fetches of a queue's rings that are outstanding. -/
def State.dropFetches (s : State) (q : Nat) : State :=
  { s with
    io := { s.io with reads := s.io.reads.filter (fun e => !(e.2.why == .fetch q false || e.2.why == .fetch q true)) }
    waiting := s.waiting.filter (fun e => !(e.2 == .fetch q false || e.2 == .fetch q true)) }

/-- A queue pair returns to FREE: its number, doorbell and reservation are free. -/
def State.freeQp (s : State) (n : Nat) : State := (s.setQp n Qp.none).dropFetches n

/-- QP_DESTROY_DONE (R145): the queue pair becomes FREE and its QP_DESTROY completes. -/
def execQpDestroyDone (t n : Nat) (s : State) : Host.Outcome State Fault Refusal :=
  let s := s.at t
  let q := s.qp n
  if q.state = .destroying ∧ s.qpDrained n then
    .next (match q.destroyer with
      | some r => (s.freeQp n).admEnd r Stat.SUCCESS
      | none => s.freeQp n)
  else .next s

/-- The body of QP_REARM (R145): from ERROR or HOST_LOST, with new ring bases and every index 0. (log entry 25) -/
def State.qpRearm (s : State) (r : Nat) (x : Rec) : State :=
  let n := bits x.desc.w2 0 16
  let q := s.qp n
  if s.qpFor x ≠ Stat.SUCCESS then s.admEnd r (s.qpFor x)
  else if q.state ≠ .error ∧ q.state ≠ .hostLost then s.admEnd r Stat.BAD_STATE
  else
    let a := s.xring q.part x.desc.w3.toNat (2 ^ q.sq.log2 * 64) needR
    let b := match q.rq with
      | none => (Stat.SUCCESS, 0, 0, a.2.2.2)
      | some d => s.xring q.part x.desc.w4.toNat (2 ^ d.log2 * 64) needR
    if a.1 ≠ Stat.SUCCESS then s.admEnd r a.1 a.2.1 a.2.2.1
    else if b.1 ≠ Stat.SUCCESS then s.admEnd r b.1 b.2.1 b.2.2.1
    else
      let q' : Qp := { q with
        state := .active
        sq := DRing.at (s.locOf q.part a.2.2.2.addr) (some a.2.2.2) q.sq.log2
        rq := q.rq.map (fun d => DRing.at (s.locOf q.part b.2.2.2.addr) (some b.2.2.2) d.log2)
        flushed := 0, failAll := 0, failBy := [], linkBy := [] }
      ((s.setQp n q').dropFetches n).admEnd r Stat.SUCCESS

/-- QP_REARM. -/
def execQpRearm (t r : Nat) (s : State) : Host.Outcome State Fault Refusal :=
  .next ((s.at t).admRun r Op.QP_REARM (fun s x => s.qpRearm r x))

/-- STATE as QP_QUERY shows it (R175). -/
def QpState.code : QpState → Nat
  | .free => 0 | .active => 1 | .error => 2 | .hostLost => 3 | .halted => 4 | .destroying => 5

/-- STATE as RING_QUERY and the admin status registers show it. -/
def RingState.code : RingState → Nat
  | .free => 0 | .active => 1 | .stalled => 2 | .hostLost => 3

/-- The body of QP_QUERY. -/
def State.qpQuery (s : State) (r : Nat) (x : Rec) : State :=
  let n := bits x.desc.w2 0 16
  let q := s.qp n
  if q.state ≠ .free ∧ q.part ≠ x.desc.part then s.admEnd r Stat.PERMISSION_DENIED
  else
    let wait := q.sq.seqWait || (q.rq.map (·.seqWait)).getD false
    let stalled := q.state != .free && ((s.ring q.sqRing).state == .stalled || (q.rq.isSome && (s.ring q.rqRing).state == .stalled))
    s.admEnd r Stat.SUCCESS (q.state.code * 2 ^ 60 + b2n wait * 2 ^ 59 + b2n stalled * 2 ^ 58 + (s.recsOf n).length % 2 ^ 13 * 2 ^ 32 + q.sq.fetch % 2 ^ 32)

/-- QP_QUERY (R175). -/
def execQpQuery (t r : Nat) (s : State) : Host.Outcome State Fault Refusal :=
  .next ((s.at t).admRun r Op.QP_QUERY (fun s x => s.qpQuery r x))

/-! ### Completion rings (R144, R148) -/

/-- The body of RING_CREATE. -/
def State.ringCreate (s : State) (r : Nat) (x : Rec) : State :=
  let d := x.desc
  let p := d.part
  let l := bits d.w3 59 5
  let free := freeNumbers (fun i => (s.ring i).state != .free) s.nRings (bits d.w3 45 2)
  if (s.part p).rings ≤ s.ringsHeld p ∨ free = [] then s.admEnd r Stat.NO_QUEUE
  else
    let a := s.xring p d.w2.toNat (2 ^ l * 32) needW
    if a.1 ≠ Stat.SUCCESS then s.admEnd r a.1 a.2.1 a.2.2.1
    else
      let n := s.pickFrom free 0
      let db := n.2.pickFrom (allIdx (fun k => n.2.freeDoorbells p k) 130558 2) 2
      let y := Ring.at p (s.locOf p a.2.2.2.addr) (some a.2.2.2) l (bits d.w3 48 11) (bit d.w3 47) db.1
      (db.2.setRing n.1 y).admEnd r Stat.SUCCESS (n.1 * 2 ^ 32 + db.1)

/-- RING_CREATE. -/
def execRingCreate (t r : Nat) (s : State) : Host.Outcome State Fault Refusal :=
  .next ((s.at t).admRun r Op.RING_CREATE (fun s x => s.ringCreate r x))

/-- The tests of a command on an existing ring. -/
def State.ringCmd (s : State) (x : Rec) : Nat :=
  let y := s.ring (bits x.desc.w2 0 16)
  if y.state = .free then Stat.BAD_STATE else if y.part ≠ x.desc.part then Stat.PERMISSION_DENIED else Stat.SUCCESS

/-- The body of RING_DESTROY (R148). -/
def State.ringDestroy (s : State) (r : Nat) (x : Rec) : State :=
  let n := bits x.desc.w2 0 16
  if s.ringCmd x ≠ Stat.SUCCESS then s.admEnd r (s.ringCmd x)
  else if s.qm.qps.any (fun e => e.2.state != .free && (e.2.sqRing == n || (e.2.rq.isSome && e.2.rqRing == n))) then
    s.admEnd r Stat.RING_BUSY
  else ((s.setRing n Ring.none).admEnd r Stat.SUCCESS).reap

/-- RING_DESTROY. -/
def execRingDestroy (t r : Nat) (s : State) : Host.Outcome State Fault Refusal :=
  .next ((s.at t).admRun r Op.RING_DESTROY (fun s x => s.ringDestroy r x))

/-- The body of RING_REARM (R148): from HOST_LOST only. -/
def State.ringRearm (s : State) (r : Nat) (x : Rec) : State :=
  let n := bits x.desc.w2 0 16
  let y := s.ring n
  if s.ringCmd x ≠ Stat.SUCCESS then s.admEnd r (s.ringCmd x)
  else if y.state ≠ .hostLost then s.admEnd r Stat.BAD_STATE
  else
    let a := s.xring y.part x.desc.w3.toNat (2 ^ y.log2 * 32) needW
    if a.1 ≠ Stat.SUCCESS then s.admEnd r a.1 a.2.1 a.2.2.1
    else
      (s.setRing n { y with
        state := .active, loc := s.locOf y.part a.2.2.2.addr, ext := some a.2.2.2, head := 0, tail := 0, armed := false, held := [] }).admEnd r
        Stat.SUCCESS

/-- RING_REARM. -/
def execRingRearm (t r : Nat) (s : State) : Host.Outcome State Fault Refusal :=
  .next ((s.at t).admRun r Op.RING_REARM (fun s x => s.ringRearm r x))

/-- The body of RING_QUERY. -/
def State.ringQuery (s : State) (r : Nat) (x : Rec) : State :=
  let y := s.ring (bits x.desc.w2 0 16)
  if y.state ≠ .free ∧ y.part ≠ x.desc.part then s.admEnd r Stat.PERMISSION_DENIED
  else s.admEnd r Stat.SUCCESS (y.state.code * 2 ^ 60 + min 64 y.held.length * 2 ^ 52 + y.lost % 2 ^ 20 * 2 ^ 32 + y.tail % 2 ^ 32)

/-- RING_QUERY (R175). -/
def execRingQuery (t r : Nat) (s : State) : Host.Outcome State Fault Refusal :=
  .next ((s.at t).admRun r Op.RING_QUERY (fun s x => s.ringQuery r x))

end Sys2Proof.Machine
end

