-- ==== Sys2Proof/Machine/Madmin.lean ====
section
/-!
DEFINITION. The memory commands: translation tables (R49 to R58), regions (R65 to R77, spec/02_addressing_and_regions.md),
Galleries, page bias and block migration (R86 to R96, R103 to R106, R469, spec/03_grotto_memory.md).
-/
namespace Sys2Proof.Machine

/-! ### Translation tables (R49 to R58) -/

/-- FIRST_PAGE and COUNT of the table commands. -/
def firstPage (d : Desc) : Nat := bits d.w2 0 20
def pageCount (d : Desc) : Nat := bits d.w3 0 9

/-- The first page of the run that the partition does not have, as the DATA of SYNC_REJECTED (R52, R55). -/
def State.runBad (s : State) (d : Desc) : Option Nat :=
  if firstPage d + pageCount d ≤ (s.part d.part).pages then none
  else some (max (firstPage d) (s.part d.part).pages * 256)

/-- The entries of table pages as bytes, and back. -/
def TEntry.bytes (e : TEntry) : List Byte := wordBytes e.w0 ++ wordBytes e.w1
def stagedEntry (first : Nat) (bs : List Byte) (page idx : Nat) : TEntry :=
  let k := ((page - first) * 256 + idx) * 2
  ⟨wordAt bs k, wordAt bs (k + 1)⟩

/-- The tree as it will stand with staged pages in place (R52). (log entry 31) -/
def State.stagedTree (s : State) (d : Desc) (bs : List Byte) (page idx : Nat) : TEntry :=
  if firstPage d ≤ page ∧ page < firstPage d + pageCount d then stagedEntry (firstPage d) bs page idx else s.tentry d.part page idx

/-- Validation of staged pages (R52): the DATA of SYNC_REJECTED, if any entry fails. -/
def State.syncBad (s : State) (d : Desc) (bs : List Byte) : Option Nat :=
  (firstBad (s.part d.part) (s.stagedTree d bs) (List.range' (firstPage d) (pageCount d))).map (fun x => x.1 * 256 + x.2)

/-- Commit staged pages to the adapter copy, as one change (R53). -/
def State.commitPages (s : State) (d : Desc) (bs : List Byte) : State :=
  let t := (List.range (pageCount d * 256)).foldl (fun t k =>
    let page := firstPage d + k / 256
    Tbl.set TEntry.zero t (page * 256 + k % 256) (stagedEntry (firstPage d) bs page (k % 256))) (Tbl.get [] s.xl.tables d.part)
  { s with xl := { s.xl with tables := Tbl.set [] s.xl.tables d.part t } }

/-- Read the host copy of the run; HOST_LOST when the host link is lost (R54). -/
def State.syncRead (s : State) (r : Nat) (x : Rec) : State :=
  match s.runBad x.desc with
  | some n => s.admEnd r Stat.SYNC_REJECTED n
  | none =>
    if (s.link 0).lost then s.admEnd r Stat.HOST_LOST
    else (s.admWait r).readHost ((s.reg .XLT_HOST_BASE x.desc.part).toNat + firstPage x.desc * 4096) (pageCount x.desc * 4096) (.admin r)

/-- TABLE_SYNC (R52): its pages are asked for. -/
def execTableSync (t r : Nat) (s : State) : Host.Outcome State Fault Refusal :=
  .next ((s.at t).admRun r Op.TABLE_SYNC (fun s x => s.syncRead r x))

/-- The pages of a TABLE_SYNC have come (R52, R53). -/
def State.tableStaged (s : State) (r : Nat) (x : Rec) (bs : List Byte) : State :=
  match s.syncBad x.desc bs with
  | some n => s.admEnd r Stat.SYNC_REJECTED n
  | none => (s.commitPages x.desc bs).admEnd r Stat.SUCCESS

/-- The body of TABLE_READBACK (R55). -/
def State.tableReadback (s : State) (r : Nat) (x : Rec) : State :=
  let d := x.desc
  match s.runBad d with
  | some n => s.admEnd r Stat.SYNC_REJECTED n
  | none =>
    if (s.link 0).lost then s.admEnd r Stat.HOST_LOST
    else
      let bs := (List.range (pageCount d * 256)).flatMap (fun k => (s.tentry d.part (firstPage d + k / 256) (k % 256)).bytes)
      ((s.writeHost ((s.reg .XLT_HOST_BASE d.part).toNat + firstPage d * 4096) bs).modRec r (fun y => { y with links := [0] })).admEnd r
        Stat.SUCCESS

/-- TABLE_READBACK. -/
def execTableReadback (t r : Nat) (s : State) : Host.Outcome State Fault Refusal :=
  .next ((s.at t).admRun r Op.TABLE_READBACK (fun s x => s.tableReadback r x))

/-- The local pages a range of partition addresses yields, passing over what is not mapped to local memory (R56 step 2). -/
def State.localOf (s : State) (part : Nat) : Nat → Nat → Nat → List (Nat × Nat)
  | 0, _, _ => []
  | n + 1, a, len =>
    if len = 0 ∨ 2 ^ 52 ≤ a then []
    else
      let x := s.walk part a
      let span := levelSpan x.2
      let k := min len (span - a % span)
      if x.1.type = 2 then (x.1.target + a % span, k) :: State.localOf s part n (a + k) (len - k)
      else State.localOf s part n (a + k) (len - k)

/-- The memory of a ring that exists, if it was translated. -/
def DRing.memory (d : DRing) : List Extent := d.ext.toList

/-- The ring memory of a partition's objects that are not FREE (R141). -/
def State.ringMemory (s : State) (p : Nat) : List Extent :=
  (s.qm.qps.filter (fun e => e.2.part == p && e.2.state != .free)).flatMap (fun e => e.2.sq.memory ++ (e.2.rq.map DRing.memory).getD [])
    ++ (s.qm.rings.filter (fun e => e.2.part == p && e.2.state != .free)).flatMap (fun e => e.2.ext.toList)
    ++ (if p < 64 && (s.admq p).state != .free then (s.admq p).sq.memory else [])
    ++ (if p < 64 && (s.faultq p).state != .free then (s.faultq p).ext.toList else [])

/-- Whether withdrawn local memory overlaps a region of the partition that is OPEN or CLOSING (R56), or ring memory (R141). -/
def State.drainBlocked (s : State) (p : Nat) (ls : List (Nat × Nat)) : Bool :=
  ls.any (fun l =>
    s.xl.rgn.any (fun e => e.2.owner == p && (e.2.state == .open || e.2.state == .closing)
      && overlap l.1 l.2 e.2.base (e.2.pages * 4096))
    || (s.ringMemory p).any (fun e => overlap l.1 l.2 e.addr e.len))

/-- INVALIDATE_DRAIN (R56 step 1): its pages are asked for. -/
def execInvalidateDrain (t r : Nat) (s : State) : Host.Outcome State Fault Refusal :=
  .next ((s.at t).admRun r Op.INVALIDATE_DRAIN (fun s x => s.syncRead r x))

/-- Make record r wait for the accepted descriptors that satisfy a test; those that wait on an event that has not begun are
completed with FLUSHED (R57). -/
def State.coverAll (s : State) (r : Nat) (p : Nat × Rec → Bool) : State :=
  let es := s.qm.recs.filter (fun e => e.1 != r && p e)
  let s := (es.filter (fun e => e.2.notBegun)).foldl (fun s e => s.flushRec e.1) s
  s.modRec r (fun x => { x with cover := (es.map (·.1)).filter (fun i => (s.getRec i).isSome) })

/-- Whether a record's translated copy holds an extent taken from a range of partition addresses (R56 step 4). -/
def Rec.takenFrom (x : Rec) (base len : Nat) : Bool := x.ranges.any (fun a => overlap a.1 a.2 base len)

/-- The pages of an INVALIDATE_DRAIN have come (R56 steps 1 to 4). -/
def State.drainStaged (s : State) (r : Nat) (x : Rec) (bs : List Byte) : State :=
  let d := x.desc
  let base := d.w4.toNat
  let len := d.w5.toNat
  match s.syncBad d bs with
  | some n => s.admEnd r Stat.SYNC_REJECTED n
  | none =>
    if s.drainBlocked d.part (s.localOf d.part (len / 4096 + 2) base len) then s.admEnd r Stat.REGION_ACTIVE
    else (s.commitPages d bs).modRec r (fun y => { y with aux := [1] }) |>.coverAll r
      (fun e => e.2.part == d.part && e.2.takenFrom base len)

/-- Whether an INVALIDATE_DRAIN has committed and every descriptor it covers has finished (R56, R57). -/
def Rec.drainOver (x : Rec) : Bool :=
  x.desc.op == Op.INVALIDATE_DRAIN && x.phase == .waiting && x.aux == [1] && x.cover.isEmpty

/-- DRAIN_END (R56 step 5). -/
def execDrainEnd (t r : Nat) (s : State) : Host.Outcome State Fault Refusal :=
  let s := s.at t
  match s.getRec r with
  | none => .next s
  | some x => .next (if x.drainOver then s.admEnd r Stat.SUCCESS else s)

/-! ### Regions (R63 to R77) -/

/-- The die that serves a region's memory (R66, R17). -/
def State.regionDie (s : State) (a : Nat) : Nat :=
  if s.half then 0
  else match winOf a with
  | 0 => accDie (bitsN a 44 4)
  | 1 => stackDie (s.gblk (bitsN a 0 48 / blkBytes)).stack
  | _ => 0

/-- The CLOSED entry a registration takes (R66). -/
def State.regionTake (s : State) (a : Nat) : Option Nat :=
  let d := s.regionDie a
  match s.oldestClosed d with
  | some i => some i
  | none => if s.half then none else s.oldestClosed (1 - d)

/-- Open a region entry (R67). -/
def State.openRegion (s : State) (i p : Nat) (e : Extent) (d : Desc) : State :=
  let x := s.region i
  s.setRegion i { x with
    base := e.addr, pages := d.w3.toNat / 4096, atRest := bit d.w4 3, a := bit d.w4 2, w := bit d.w4 1, r := bit d.w4 0, owner := p
    state := .open, tag := d.w5, busy := 0, retire := false, revoker := none, waiters := [] }

/-- The body of REGION_REGISTER (R65 to R67, R106). -/
def State.regionRegister (s : State) (r : Nat) (x : Rec) : State :=
  let d := x.desc
  let p := d.part
  let rs : List Range := [⟨d.w2.toNat, d.w3.toNat, 1, 0, ⟨bit d.w4 0, bit d.w4 1, bit d.w4 2, false⟩⟩]
  let s := s.walked p rs
  match s.xlate p rs with
  | .fault a why => s.admEnd r Stat.TRANSLATION_FAULT a why
  | .ok [[e]] =>
    if e.node.isSome ∨ e.xts ≠ bit d.w4 3 then s.admEnd r Stat.NOT_CONTIGUOUS
    else if (s.part p).regions ≤ s.regionsHeld p then s.admEnd r Stat.NO_REGION_ENTRY
    else
      match s.regionTake e.addr with
      | none => s.admEnd r Stat.NO_REGION_ENTRY
      | some i =>
        let key := keyOf (s.region i).gen i
        let s := s.openRegion i p e d
        s.admResult r x (wordBytes (word (key * 2 ^ 32 + s.nv.inc % 2 ^ 16 * 2 ^ 16 + s.node.getD 0)) ++ wordBytes (word e.addr)
          ++ wordBytes (word (d.w3.toNat / 4096)) ++ wordBytes 0) key
  | .ok _ => s.admEnd r Stat.NOT_CONTIGUOUS

/-- REGION_REGISTER. -/
def execRegionRegister (t r : Nat) (s : State) : Host.Outcome State Fault Refusal :=
  .next ((s.at t).admRun r Op.REGION_REGISTER (fun s x => s.regionRegister r x))

/-- Whether a key can still reach an entry: the current generation of an OPEN one, the closing generation of a CLOSING one (R72). -/
def Region.reaches (e : Region) (gen : Nat) : Bool :=
  (e.state == .open && gen == e.gen) || (e.state == .closing && gen == e.closingGen)

/-- The body of REVOKE (R72). -/
def State.revoke (s : State) (r : Nat) (x : Rec) : State :=
  let key := bits x.desc.w2 0 32
  let i := keyIdx key
  let e := s.region i
  if !e.reaches (keyGen key) then s.admEnd r Stat.SUCCESS
  else if x.queue < devQueue ∧ e.owner ≠ x.part then s.admEnd r Stat.PERMISSION_DENIED
  else if e.state = .open then
    let s := (s.beginClosing i (some r)).admWait r
    if e.busy = 0 then s.endClosing i else s
  else (s.setRegion i { e with waiters := e.waiters ++ [r] }).admWait r

/-- REVOKE. -/
def execRevoke (t r : Nat) (s : State) : Host.Outcome State Fault Refusal :=
  .next ((s.at t).admRun r Op.REVOKE (fun s x => s.revoke r x))

/-- REVOKE_DONE (R71 to R73): a waiting REVOKE whose key reaches nothing any more completes. -/
def execRevokeDone (t r : Nat) (s : State) : Host.Outcome State Fault Refusal :=
  let s := s.at t
  match s.getRec r with
  | none => .next s
  | some x =>
    let key := bits x.desc.w2 0 32
    if x.desc.op = Op.REVOKE ∧ x.phase = .waiting ∧ !(s.region (keyIdx key)).reaches (keyGen key) then
      .next ((s.leaveClosing (keyIdx key) r).admEnd r Stat.SUCCESS)
    else .next s

/-- STATE as a region entry holds it (R63). -/
def RgnState.code : RgnState → Nat
  | .closed => 0 | .open => 1 | .closing => 2 | .retired => 3

/-- The four words of an entry (R63). -/
def Region.bytes (e : Region) : List Byte :=
  wordBytes (word (e.base / 4096 * 4096)) ++ wordBytes (word (e.pages % 2 ^ 36)) ++
  wordBytes (word (b2n e.atRest * 2 ^ 25 + b2n e.a * 2 ^ 24 + b2n e.w * 2 ^ 23 + b2n e.r * 2 ^ 22 + e.owner % 64 * 2 ^ 16
    + e.state.code * 2 ^ 13 + e.gen % 2 ^ 13)) ++ wordBytes e.tag

/-- The body of REGION_QUERY (R63). -/
def State.regionQuery (s : State) (r : Nat) (x : Rec) : State :=
  let e := s.region (bits x.desc.w2 0 19)
  if x.queue < devQueue ∧ e.owner ≠ x.part then s.admEnd r Stat.PERMISSION_DENIED
  else s.admResult r x (e.bytes ++ wordBytes (word e.busy))

/-- REGION_QUERY. -/
def execRegionQuery (t r : Nat) (s : State) : Host.Outcome State Fault Refusal :=
  .next ((s.at t).admRun r Op.REGION_QUERY (fun s x => s.regionQuery r x))

/-- The body of REGION_RECLAIM (R77): the entries count as closed at one moment (R66). -/
def State.regionReclaim (s : State) (r : Nat) (x : Rec) : State :=
  let die := bits x.desc.w2 0 1
  let es := s.xl.rgn.filter (fun e => e.1 % 2 == die && e.2.state == .retired)
  let seq := s.xl.rgnSeq + 1
  let s := es.foldl (fun s e => s.setRegion e.1 { e.2 with state := .closed, gen := 1, seq := seq, retire := false }) s
  { s with xl := { s.xl with rgnSeq := seq } }.admEnd r Stat.SUCCESS es.length

/-- REGION_RECLAIM. -/
def execRegionReclaim (t r : Nat) (s : State) : Host.Outcome State Fault Refusal :=
  .next ((s.at t).admRun r Op.REGION_RECLAIM (fun s x => s.regionReclaim r x))

/-! ### Galleries (R86 to R90, R538, R469) -/

/-- An XTS key handle of a partition (R469): its slot, when it is a loaded handle. -/
def State.xtsSlot (s : State) (p h : Nat) : Option Nat :=
  let slot := bitsN h 0 16
  if bitsN h 30 2 = 2 ∧ bitsN h 24 6 = p ∧ bitsN h 16 8 = (s.part p).gen % 256 ∧ slot < 64 ∧ Tbl.has s.sec.xts (p * 64 + slot) then some slot
  else none

/-- The lowest Gallery key slot that is free, of 4,096 (R469). -/
def State.freeGalleryKey (s : State) : Option Nat := firstIdx (fun k => !Tbl.has s.pool.xtsKeys k) 4096 0

/-- Enter a run of Gallery blocks on the given stack blocks (R86, R91: bias DEVICE). -/
def State.enterGallery (s : State) (p base : Nat) (key : Option Nat) (bs : List (Nat × Nat)) : State :=
  let s := s.markBlocks .gallery bs ((List.range bs.length).map (fun i => .gallery (base + i)))
  let s := (List.range bs.length).foldl (fun s i =>
    let b := bs.getD i (0, 0)
    s.setGblk (base + i) ⟨true, .gallery, p, key.isSome, key.getD 0, b.1, b.2, base⟩) s
  { s with pool := { s.pool with bias := s.pool.bias.filter (fun e => !(decide (base ≤ e.1 / 512) && decide (e.1 / 512 < base + bs.length))) } }

/-- How many blocks a GALLERY_ALLOC can have, with its shortfall (R88). -/
def allocSize (n avail : Nat) (stripe : Bool) : Option (Nat × Nat) :=
  if n ≤ avail then some (n, 0) else if stripe ∧ 8 * (n - avail) ≤ n then some (avail, n - avail) else none

/-- The body of GALLERY_ALLOC (R88, R89, R469, R538). With a SHORTFALL the run looked for and reserved is of the blocks allocated.
(log entries 42, 135) -/
def State.galleryAlloc (s : State) (r : Nat) (x : Rec) : State :=
  let d := x.desc
  let p := d.part
  let ks := (maskBits (bits d.w3 0 20) 20).filter (fun k => decide (k < s.nStacks))
  let xts := bit d.w4 0
  let slot := s.xtsSlot p (bits d.w5 0 32)
  let gk := s.freeGalleryKey
  if xts ∧ (slot.isNone ∨ gk.isNone) then s.admEnd r Stat.NO_KEY
  else
    match allocSize (bits d.w2 0 22) (s.freeOn ks) (bit d.w4 1) with
    | none => s.admEnd r Stat.NO_GALLERY_SPACE
    | some (n, short) =>
      let runs := s.galleryRuns n
      if (s.part p).blocks < s.blocksHeld p + n ∨ runs = [] then s.admEnd r Stat.NO_GALLERY_SPACE
      else
        let b := s.pickFrom runs 0
        let s := b.2
        let s := if xts then { s with pool := { s.pool with
            xtsKeys := Tbl.put s.pool.xtsKeys (gk.getD 0) (Tbl.get [] s.sec.xts (p * 64 + slot.getD 0)) } } else s
        let s := s.enterGallery p b.1 (if xts then gk else none) ((s.takeBlocks ks n).getD [])
        s.admEnd r Stat.SUCCESS (short * 2 ^ 42 + b.1 * blkBytes)

/-- GALLERY_ALLOC. -/
def execGalleryAlloc (t r : Nat) (s : State) : Host.Outcome State Fault Refusal :=
  .next ((s.at t).admRun r Op.GALLERY_ALLOC (fun s x => s.galleryAlloc r x))

/-- Whether an extent of this adapter touches a run of Gallery blocks. -/
def Extent.inBlocks (e : Extent) (first n : Nat) : Bool :=
  e.node.isNone && winOf e.addr == 1 && overlap (bitsN e.addr 0 48) e.len (first * blkBytes) (n * blkBytes)

/-- Whether a record holds an extent in a run of Gallery blocks. -/
def Rec.inBlocks (x : Rec) (first n : Nat) : Bool := (x.src ++ x.dst ++ x.xtra).any (fun e => e.inBlocks first n)

/-- Set a run FREEING (R90 step 1); a LOST stack block stays LOST. -/
def State.setFreeing (s : State) (first n : Nat) : State :=
  (List.range' first n).foldl (fun s i =>
    let b := s.gblk i
    let k := physBlk b.stack b.block
    let s := s.setGblk i { b with state := .freeing }
    if (s.blk k).state = .lost then s else s.setBlk k { s.blk k with state := .freeing }) s

/-- The body of GALLERY_FREE (R90 steps 1 and 2). -/
def State.galleryFree (s : State) (r : Nat) (x : Rec) : State :=
  let d := x.desc
  let first := d.w2.toNat / blkBytes
  let n := bits d.w3 0 22
  if !(List.range' first n).all (fun i => decide (i < 2097152) && (s.gblk i).alloc && (s.gblk i).state != .freeing && (s.gblk i).owner == d.part) then
    s.admEnd r Stat.BAD_STATE
  else if s.xl.rgn.any (fun e => (e.2.state == .open || e.2.state == .closing)
      && Extent.inBlocks ⟨none, e.2.base, e.2.pages * 4096, 0, 0, false⟩ first n) then s.admEnd r Stat.REGION_ACTIVE
  else
    let s := (s.setFreeing first n).admWait r
    let s := { s with pool := { s.pool with freeing := Tbl.put s.pool.freeing first ⟨some r, d.part, first, n, false⟩ } }
    s.coverAll r (fun e => e.2.inBlocks first n)

/-- GALLERY_FREE. -/
def execGalleryFree (t r : Nat) (s : State) : Host.Outcome State Fault Refusal :=
  .next ((s.at t).admRun r Op.GALLERY_FREE (fun s x => s.galleryFree r x))

/-- GALLERY_FREE_WAIT_END (R90 step 2 ends, step 3 begins): the run that begins at Gallery block `first`. -/
def execGalleryFreeWaitEnd (t first : Nat) (s : State) : Host.Outcome State Fault Refusal :=
  let s := s.at t
  match Tbl.find s.pool.freeing first with
  | none => .next s
  | some f =>
    let waits : Bool := match f.recId.bind s.getRec with
      | some x => !x.cover.isEmpty
      | none => false
    if f.scrub || waits then .next s
    else .next { s with pool := { s.pool with freeing := Tbl.put s.pool.freeing first { f with scrub := true } } }

/-- A migration out of a block that is given up: the copy's block is free again. -/
def State.dropMigration (s : State) (b : Nat) : State :=
  match Tbl.find s.pool.migr b with
  | none => s
  | some m => { s with pool := { s.pool with migr := Tbl.del s.pool.migr b } }.scrubFree m.dst

/-- A run of Gallery blocks is scrubbed and free; its addresses are released (R90 step 3), and a Gallery key with its last block
(R469). -/
def State.releaseRun (s : State) (first n : Nat) : State :=
  let s := (List.range' first n).foldl (fun s i =>
    let b := s.gblk i
    let k := physBlk b.stack b.block
    let s := ((s.dropMigration k).scrubFree k).setGblk i GBlk.none
    if b.xts && !s.pool.gmap.any (fun e => e.2.alloc && e.2.xts && e.2.key == b.key) then
      { s with pool := { s.pool with xtsKeys := Tbl.del s.pool.xtsKeys b.key } }
    else s) s
  { s with pool := { s.pool with bias := s.pool.bias.filter (fun e => !(decide (first ≤ e.1 / 512) && decide (e.1 / 512 < first + n))) } }

/-- The number under which the area of a destroyed group is freed. -/
def areaKey (g : Nat) : Nat := 2097152 + g

/-- The area of a destroyed group goes to FREEING; no descriptor holds an extent there, so that only its scrub is waited for (R90, R327). -/
def State.freeArea (s : State) (g p : Nat) : State :=
  let mine (u : Use) : Bool := match u with
    | .groupArea h _ => h == g
    | _ => false
  let s := (s.pool.blks.filter (fun e => e.2.state == .internal && mine e.2.use)).foldl (fun s e => s.setBlk e.1 { e.2 with state := .freeing }) s
  { s with pool := { s.pool with freeing := Tbl.put s.pool.freeing (areaKey g) ⟨none, p, areaKey g, 0, true⟩ } }

/-- The blocks of a run, or of a group's area, are scrubbed and free. -/
def State.releaseFreeing (s : State) (f : Freeing) : State :=
  if f.first < areaKey 0 then s.releaseRun f.first f.count
  else (s.pool.blks.filter (fun e => e.2.state == .freeing && (match e.2.use with
    | .groupArea h _ => areaKey h == f.first
    | _ => false))).foldl (fun s e => s.scrubFree e.1) s

/-- BLOCK_SCRUB_DONE (R90 steps 3 and 4): the run that begins at `first`. The blocks become FREE; a GALLERY_FREE completes. A
teardown's own command looks for its runs itself. -/
def State.scrubDone (s : State) (first : Nat) : State :=
  match Tbl.find s.pool.freeing first with
  | none => s
  | some f =>
    if !f.scrub then s
    else
      let s := { s with pool := { s.pool with freeing := Tbl.del s.pool.freeing first } }.releaseFreeing f
      match f.recId with
      | some r => s.admEnd r Stat.SUCCESS
      | none => s

/-- The state of a block-map entry as GALLERY_QUERY shows it. -/
def GBlk.code (b : GBlk) : Nat :=
  if !b.alloc then 7
  else match b.state with
  | .free => 0 | .internal => 1 | .gallery => 2 | .freeing => 3 | .lost => 4

/-- The 72 bytes of GALLERY_QUERY for one block (R175). -/
def State.galleryBytes (s : State) (n : Nat) : List Byte :=
  let b := s.gblk n
  wordBytes (word (b.code * 2 ^ 61 + b2n b.xts * 2 ^ 60 + b.owner % 64 * 2 ^ 54 + b.stack % 32 * 2 ^ 49 + b.block % 2 ^ 16 * 2 ^ 33)) ++
  (List.range 64).map (fun k => BitVec.ofNat 8 (((List.range 8).map (fun i => b2n (s.biasOf (n * 512 + 8 * k + i)).shared * 2 ^ i)).foldl (· + ·) 0))

/-- The body of GALLERY_QUERY. -/
def State.galleryQuery (s : State) (r : Nat) (x : Rec) : State :=
  s.admResult r x ((List.range' (x.desc.w2.toNat / blkBytes) (bits x.desc.w3 0 5)).flatMap s.galleryBytes)

/-- GALLERY_QUERY (R90, R175). -/
def execGalleryQuery (t r : Nat) (s : State) : Host.Outcome State Fault Refusal :=
  .next ((s.at t).admRun r Op.GALLERY_QUERY (fun s x => s.galleryQuery r x))

/-! ### Page bias (R91 to R93) -/

/-- The snoops of a page that leaves SHARED: each line once more through every port of the old mask (R93). -/
def State.unshare (s : State) (page : Nat) : State :=
  let b := s.biasOf page
  if b.shared then
    (List.range 64).foldl (fun s l => s.snoopLine (page * 4096 + l * 64) 16) s
  else s

/-- Set the bias of a page (R91, R93). -/
def State.setBias (s : State) (page : Nat) (shared : Bool) (mask : Nat) : State :=
  let s := if shared then s else s.unshare page
  { s with pool := { s.pool with bias := Tbl.set Bias.device s.pool.bias page (if shared then ⟨true, mask⟩ else Bias.device) } }

/-- The body of BIAS_SET (R93). Pages that are not the partition's complete with BAD_STATE (DESIGN CHOICE, log entry 8). -/
def State.biasSet (s : State) (r : Nat) (x : Rec) : State :=
  let d := x.desc
  let first := d.w2.toNat / 4096
  let n := bits d.w3 0 22
  let mask := bits d.w4 0 16
  if !(List.range' (first / 512) ((first + n - 1) / 512 - first / 512 + 1)).all (fun i => decide (i < 2097152) && (s.gblk i).alloc
      && (s.gblk i).state == .gallery && (s.gblk i).owner == d.part) then s.admEnd r Stat.BAD_STATE
  else if !(maskBits mask 16).all (fun k => (s.part d.part).accAllow.testBit k && (s.link (1 + k)).mode == 2) then
    s.admEnd r Stat.PERMISSION_DENIED
  else ((List.range' first n).foldl (fun s p => s.setBias p (bit d.w4 16) mask) s).admEnd r Stat.SUCCESS

/-- BIAS_SET. -/
def execBiasSet (t r : Nat) (s : State) : Host.Outcome State Fault Refusal :=
  .next ((s.at t).admRun r Op.BIAS_SET (fun s x => s.biasSet r x))

end Sys2Proof.Machine
end

