-- ==== Sys2Proof/Machine/Reduce.lean ====
section
/-!
DEFINITION. The arithmetic of a reduction pass (R292 to R318, spec/09_reduction_arithmetic.md): number formats, exact
accumulation, rounding once, MIN, MAX and the logical operations, MX requantization and native mode.
-/
namespace Sys2Proof.Machine

/-! ### The control word (R299, R300) -/

structure Ctl where
  op     : Nat
  inFmt  : Nat
  outFmt : Nat
  rnd    : Nat
  sat    : Bool
  native : Bool
  deriving DecidableEq, Repr

def Ctl.of (w : Word) : Ctl := ⟨bits w 60 4, bits w 55 5, bits w 50 5, bits w 47 3, bit w 46, bit w 45⟩

def isFloat (c : Nat) : Bool := decide (1 ≤ c) && decide (c ≤ 5)
def isMx (c : Nat) : Bool := decide (8 ≤ c) && decide (c ≤ 13)
def isInt (c : Nat) : Bool := decide (0x10 ≤ c) && decide (c ≤ 0x12)

/-- Whether a control word is one of the combinations of R300. -/
def ctlOk (w : Word) : Bool :=
  let c := Ctl.of w
  let outOk := c.outFmt == 0 || isFloat c.outFmt || isMx c.outFmt
  bits w 0 45 == 0 &&
  (if c.op = 0 then
     ((isFloat c.inFmt || isMx c.inFmt) && outOk && decide (c.rnd ≤ 4) && !c.native)
       || (isFloat c.inFmt && c.outFmt == c.inFmt && decide (c.rnd ≤ 3) && c.native)
       || (c.inFmt == 0 && c.outFmt == 0 && decide (c.rnd ≤ 3) && c.native)
       || (isInt c.inFmt && isInt c.outFmt && c.rnd == 0 && !c.native)
   else if c.op = 1 ∨ c.op = 2 then
     (c.inFmt == 0 && c.outFmt == 0 && decide (c.rnd ≤ 3) && c.native)
       || ((isFloat c.inFmt || isMx c.inFmt) && outOk && decide (c.rnd ≤ 3))
       || (isInt c.inFmt && isInt c.outFmt && c.rnd == 0 && !c.native)
   else if c.op = 3 ∨ c.op = 4 ∨ c.op = 5 then isInt c.inFmt && c.outFmt == c.inFmt && c.rnd == 0 && !c.native
   else false)

/-! ### Formats (R302 to R304) -/

/-- A binary floating format: exponent and mantissa widths, bias, whether it has infinities, whether all-ones exponents are
special as in IEEE 754, its largest finite magnitude's code, its canonical NaN (0 for an MX element format, which has none). -/
structure Fmt where
  eb   : Nat
  mb   : Nat
  bias : Nat
  inf  : Bool
  top  : Nat
  nan  : Nat
  deriving DecidableEq, Repr

/-- The floating format behind a code; an MX code gives its element format. -/
def fmtOf (c : Nat) : Fmt :=
  match c with
  | 0 => ⟨11, 52, 1023, true, 0x7FEFFFFFFFFFFFFF, 0x7FF8000000000000⟩
  | 1 => ⟨8, 23, 127, true, 0x7F7FFFFF, 0x7FC00000⟩
  | 2 => ⟨8, 7, 127, true, 0x7F7F, 0x7FC0⟩
  | 3 => ⟨5, 10, 15, true, 0x7BFF, 0x7E00⟩
  | 4 => ⟨4, 3, 7, false, 0x7E, 0x7F⟩
  | 5 => ⟨5, 2, 15, true, 0x7B, 0x7E⟩
  | 8 => ⟨4, 3, 7, false, 0x7E, 0x7F⟩
  | 9 => ⟨5, 2, 15, true, 0x7B, 0x7E⟩
  | 10 => ⟨3, 2, 3, false, 0x1F, 0⟩
  | 11 => ⟨2, 3, 1, false, 0x1F, 0⟩
  | _ => ⟨2, 1, 1, false, 0x7, 0⟩

/-- The width of an element in bits (R302, R303). -/
def fmtBits (c : Nat) : Nat :=
  if c = 0 ∨ c = 0x12 then 64 else if c = 1 ∨ c = 0x11 then 32 else if c = 2 ∨ c = 3 then 16
  else if c = 10 ∨ c = 11 then 6 else if c = 12 then 4 else 8

/-- Bytes of the element area, and of the scale area, of n elements (R303). -/
def elBytes (c n : Nat) : Nat := ceilDiv (n * fmtBits c) 8
def scBytes (c n : Nat) : Nat := if isMx c then ceilDiv n 32 else 0

/-- The bytes of n elements (B_in and B_out of R344). -/
def vecBytes (c n : Nat) : Nat := elBytes c n + scBytes c n

/-- A decoded contribution: NaN, an infinity, or (−1)^neg × m × 2^e. -/
inductive Num where
  | nan
  | inf (neg : Bool)
  | fin (neg : Bool) (m : Nat) (e : Int)
  deriving DecidableEq, Repr

/-- Decode an element of a floating format. -/
def Fmt.decode (f : Fmt) (x : Nat) : Num :=
  let neg := bitsN x (f.eb + f.mb) 1 == 1
  let e := bitsN x f.mb f.eb
  let m := bitsN x 0 f.mb
  let mag := bitsN x 0 (f.eb + f.mb)
  if f.top < mag ∧ f.nan ≠ 0 then (if f.inf ∧ m = 0 then .inf neg else .nan)
  else if e = 0 then .fin neg m (1 - (f.bias : Int) - f.mb)
  else .fin neg (m + 2 ^ f.mb) ((e : Int) - f.bias - f.mb)

/-- Element i of an element area taken as a little-endian bit string (R303). -/
def elemAt (c : Nat) (el : List Byte) (i : Nat) : Nat :=
  let w := fmtBits c
  bitsN (leNat (slice el (w * i / 8) 9)) (w * i % 8) w

/-- Decode element i of a vector of a floating or MX format (R303, R304). -/
def decodeAt (c : Nat) (el sc : List Byte) (i : Nat) : Num :=
  let x := elemAt c el i
  if isMx c then
    let s := (sc.getD (i / 32) 0).toNat
    if s = 255 then .nan
    else if c = 13 then
      let v := signed x 8
      .fin (decide (v < 0)) v.natAbs ((s : Int) - 127 - 6)
    else match (fmtOf c).decode x with
      | .fin neg m e => .fin neg m (e + (s : Int) - 127)
      | _ => .nan
  else (fmtOf c).decode x

/-! ### The accumulator (R305, R306) -/

/-- An accumulator entry: the four flags, and the exact value in units of 2^−1074, of which every family's weight is a multiple. -/
structure Flow where
  nan  : Bool
  pinf : Bool
  ninf : Bool
  negz : Bool
  val  : Int
  deriving DecidableEq, Repr

def Flow.start : Flow := ⟨false, false, false, true, 0⟩

/-- A finite contribution in units of 2^−1074. -/
def finVal (neg : Bool) (m : Nat) (e : Int) : Int :=
  let v : Int := (m * 2 ^ (e + 1074).toNat : Nat)
  if neg then -v else v

/-- Add a contribution (R306). (log entry 70) -/
def Flow.add (a : Flow) (x : Num) : Flow :=
  match x with
  | .nan => { a with nan := true, negz := false }
  | .inf neg => if neg then { a with ninf := true, negz := false } else { a with pinf := true, negz := false }
  | .fin neg m e => { a with val := a.val + finVal neg m e, negz := a.negz && neg && m == 0 }

/-! ### Rounding once (R309 to R311) -/

/-- rng of R311. -/
def rng (seed idx : Nat) : Nat :=
  let z := (seed + (idx + 1) * 0x9E3779B97F4A7C15) % 2 ^ 64
  let z := (Nat.xor z (z / 2 ^ 30)) * 0xBF58476D1CE4E5B9 % 2 ^ 64
  let z := (Nat.xor z (z / 2 ^ 27)) * 0x94D049BB133111EB % 2 ^ 64
  (Nat.xor z (z / 2 ^ 31)) / 2 ^ 32

/-- Whether a kept significand k with remainder r / 2^sh is rounded away from zero (R309). -/
def roundUp (rnd : Nat) (neg : Bool) (k r sh seed idx : Nat) : Bool :=
  match rnd with
  | 0 => decide (2 ^ sh < 2 * r) || (decide (2 * r = 2 ^ sh) && decide (0 < r) && k % 2 == 1)
  | 1 => false
  | 2 => decide (0 < r) && !neg
  | 3 => decide (0 < r) && neg
  | _ => decide (rng seed idx < r * 2 ^ 32 / 2 ^ sh)

/-- The rounded integer of m × 2^e in units of 2^q. -/
def quantize (m : Nat) (e q : Int) (rnd : Nat) (neg : Bool) (seed idx : Nat) : Nat :=
  if q ≤ e then m * 2 ^ (e - q).toNat
  else
    let sh := (q - e).toNat
    let k := m / 2 ^ sh
    let r := m % 2 ^ sh
    if roundUp rnd neg k r sh seed idx then k + 1 else k

/-- The magnitude code of k × 2^q in a format. -/
def Fmt.code (f : Fmt) (k : Nat) (q : Int) : Nat :=
  if k < 2 ^ f.mb then k else (q + f.mb + f.bias).toNat * 2 ^ f.mb + (k - 2 ^ f.mb)

/-- The infinity's magnitude code. -/
def Fmt.infCode (f : Fmt) : Nat := (2 ^ f.eb - 1) * 2 ^ f.mb

/-- A code with its sign. -/
def Fmt.sign (f : Fmt) (neg : Bool) (mag : Nat) : Nat := b2n neg * 2 ^ (f.eb + f.mb) + mag

/-- The overflow of R310. -/
def Fmt.overflow (f : Fmt) (neg : Bool) (rnd : Nat) (sat : Bool) : Nat :=
  if sat then f.sign neg f.top
  else if !f.inf then f.nan
  else if rnd = 0 ∨ rnd = 4 then f.sign neg f.infCode
  else if rnd = 1 then f.sign neg f.top
  else if rnd = 2 then (if neg then f.sign true f.top else f.sign false f.infCode)
  else if neg then f.sign true f.infCode else f.sign false f.top

/-- A rounded result: its code, whether R310 decided it, whether it is a NaN. -/
structure Rounded where
  code : Nat
  ovf  : Bool
  nan  : Bool
  deriving DecidableEq, Repr

/-- Round a finite non-zero value m × 2^e (R309). -/
def Fmt.roundFin (f : Fmt) (neg : Bool) (m : Nat) (e : Int) (rnd : Nat) (sat : Bool) (seed idx : Nat) : Rounded :=
  let lg : Int := (Nat.log2 m : Int) + e
  let q := max lg (1 - (f.bias : Int)) - f.mb
  let mag := f.code (quantize m e q rnd neg seed idx) q
  if f.top < mag then
    let c := f.overflow neg rnd sat
    ⟨c, true, !sat && !f.inf⟩
  else ⟨f.sign neg mag, false, false⟩

/-- round_once (R309), with its value taken in units of 2^u; `negz` already says the sign of an exact zero. -/
def Fmt.roundOnce (f : Fmt) (a : Flow) (u : Int) (rnd : Nat) (sat : Bool) (seed idx : Nat) : Rounded :=
  if a.nan ∨ (a.pinf ∧ a.ninf) then ⟨f.nan, false, true⟩
  else if a.pinf ∨ a.ninf then
    (if f.inf then ⟨f.sign a.ninf f.infCode, false, false⟩ else ⟨f.nan, false, true⟩)
  else if a.val = 0 then ⟨f.sign a.negz 0, false, false⟩
  else f.roundFin (decide (a.val < 0)) a.val.natAbs u rnd sat seed idx

/-- The sign of an exact zero sum (R309). -/
def Flow.zeroSign (a : Flow) (rnd : Nat) : Flow := { a with negz := a.negz || rnd == 3 }

/-! ### MIN and MAX (R314, R315) -/

/-- The order of R314: a total order on what is not NaN. -/
def Num.le (x y : Num) : Bool :=
  match x, y with
  | .inf true, _ => true
  | _, .inf false => true
  | .inf false, _ => false
  | _, .inf true => false
  | .fin n m e, .fin n' m' e' =>
    let a := finVal n m e
    let b := finVal n' m' e'
    decide (a < b) || (a == b && (n || !n'))
  | _, _ => true

/-- The extreme of two contributions; a NaN stays. -/
def extreme (isMax : Bool) (x y : Num) : Num :=
  if x = .nan ∨ y = .nan then .nan else if isMax then (if x.le y then y else x) else if x.le y then x else y

/-- A value as an entry. -/
def Num.flow : Num → Flow
  | .nan => ⟨true, false, false, false, 0⟩
  | .inf neg => ⟨false, !neg, neg, false, 0⟩
  | .fin neg m e => ⟨false, false, false, neg && m == 0, finVal neg m e⟩

/-! ### MX requantization (R316, R317) -/

/-- emax of an MX format. -/
def mxEmax (c : Nat) : Int :=
  match c with
  | 8 => 8 | 9 => 15 | 10 => 4 | 11 => 2 | 12 => 2 | _ => 0

/-- One MXINT8 element: the value × 2^6, rounded and clamped to ±127. -/
def mxInt8 (a : Flow) (u : Int) (rnd seed idx : Nat) : Nat :=
  let neg := decide (a.val < 0)
  let k := min 127 (quantize a.val.natAbs u (-6) rnd neg seed idx)
  unsigned (if neg then -(k : Int) else k) 8

/-- requantize (R316): the scale byte, the element codes, and whether x exceeded 127. -/
def requantize (as : List Flow) (c rnd : Nat) (sat : Bool) (seed idx0 : Nat) : Nat × List Nat × Bool :=
  if as.any (fun a => a.nan || a.pinf || a.ninf) then (255, as.map (fun _ => 0), false)
  else
    let mx := (as.map (fun a => a.val.natAbs)).foldl max 0
    let x : Int := if mx = 0 then -127 else (Nat.log2 mx : Int) - 1074 - mxEmax c
    if 127 < x ∧ ¬ sat then (255, as.map (fun _ => 0), true)
    else
      let y := max (-127) (min 127 x)
      let u : Int := -1074 - y
      let es := (List.range as.length).map (fun i =>
        let a := as.getD i Flow.start
        if c = 13 then mxInt8 a u rnd seed (idx0 + i) else ((fmtOf c).roundOnce a u rnd true seed (idx0 + i)).code)
      ((y + 127).toNat, es, decide (127 < x))

/-! ### Integers (R306, R315) -/

/-- A result of an integer operation in a format of w bits: wrapped or clamped, and whether it lay outside the range. -/
def intOut (v : Int) (w : Nat) (sat : Bool) : Nat × Bool :=
  let hi : Int := 2 ^ (w - 1) - 1
  let lo : Int := -2 ^ (w - 1)
  if lo ≤ v ∧ v ≤ hi then (unsigned v w, false)
  else if sat then (unsigned (if hi < v then hi else lo) w, true) else (unsigned v w, true)

/-- One integer element from its contributions' codes, in the order the plan gives. -/
def reduceInt (c : Ctl) (xs : List Nat) : Nat × Bool :=
  let w := fmtBits c.inFmt
  let vs := xs.map (fun x => signed x w)
  match c.op with
  | 0 => intOut (vs.foldl (· + ·) 0) (fmtBits c.outFmt) c.sat
  | 1 => intOut (match vs with | [] => 0 | v :: t => t.foldl min v) (fmtBits c.outFmt) c.sat
  | 2 => intOut (match vs with | [] => 0 | v :: t => t.foldl max v) (fmtBits c.outFmt) c.sat
  | 3 => (xs.foldl Nat.land (2 ^ w - 1), false)
  | 4 => (xs.foldl Nat.lor 0, false)
  | _ => (xs.foldl Nat.xor 0, false)

/-! ### Native mode (R318) -/

/-- One native addition in a format: operands and result as decoded values, and whether R310 decided it. -/
def nativeAdd (f : Fmt) (rnd : Nat) (sat : Bool) (x y : Num) : Num × Bool :=
  let a := (Flow.start.add x).add y
  let r := f.roundOnce (a.zeroSign rnd) (-1074) rnd sat 0 0
  (f.decode r.code, r.ovf)

/-- The code of a native entry; a NaN is canonical (R313). -/
def Fmt.encode (f : Fmt) (x : Num) : Nat := (f.roundOnce x.flow (-1074) 1 true 0 0).code

/-- A native SUM of one element, in the plan's order. -/
def nativeSum (f : Fmt) (rnd : Nat) (sat : Bool) (xs : List Num) : Num × Bool :=
  match xs with
  | [] => (.fin false 0 0, false)
  | x :: t => t.foldl (fun r y => let z := nativeAdd f rnd sat r.1 y; (z.1, r.2 || z.2)) (x, false)

/-! ### A pass (R295, R309, R314 to R318) -/

/-- What a pass yields: element codes, scale bytes, and the counts of ARR_COUNT 2, 3 and 4. -/
structure PassOut where
  codes  : List Nat
  scales : List Nat
  nans   : Nat
  ovfs   : Nat
  ffs    : Nat
  deriving DecidableEq, Repr

/-- The entry of element i at the end of the pass, from its contributions in the plan's order. A MIN or MAX whose formats differ is
converted by all of R309, its zero rule included; where they agree the extreme keeps its bits (R314). -/
def passFlow (c : Ctl) (xs : List Num) : Flow :=
  if c.op = 0 then (xs.foldl Flow.add Flow.start).zeroSign c.rnd
  else match xs with
    | [] => Flow.start
    | x :: t =>
      let a := (t.foldl (extreme (c.op == 2)) x).flow
      if c.inFmt = c.outFmt ∧ ¬ isMx c.outFmt then a else a.zeroSign c.rnd

/-- A contribution to a pass: its element area and scale area. -/
abbrev Contrib := List Byte × List Byte

def countP (l : List Bool) : Nat := (l.filter id).length

/-- Reduce the n elements of a pass whose first has vector index idx0. -/
def reducePass (ctl seed : Word) (idx0 n : Nat) (cs : List Contrib) : PassOut :=
  let c := Ctl.of ctl
  let sd := seed.toNat
  if isInt c.inFmt then
    let rs := (List.range n).map (fun i => reduceInt c (cs.map (fun k => elemAt c.inFmt k.1 i)))
    ⟨rs.map (·.1), [], 0, countP (rs.map (·.2)), 0⟩
  else
    let nums (i : Nat) : List Num := cs.map (fun k => decodeAt c.inFmt k.1 k.2 i)
    if c.native ∧ c.op = 0 then
      let f := fmtOf c.inFmt
      let rs := (List.range n).map (fun i => nativeSum f c.rnd c.sat (nums i))
      ⟨rs.map (fun r => f.encode r.1), [], countP (rs.map (fun r => r.1 == .nan)), countP (rs.map (·.2)), 0⟩
    else if isMx c.outFmt then
      let bs := (List.range (ceilDiv n 32)).map (fun b =>
        requantize ((List.range (min 32 (n - 32 * b))).map (fun i => passFlow c (nums (32 * b + i)))) c.outFmt c.rnd c.sat sd (idx0 + 32 * b))
      ⟨bs.flatMap (fun x => x.2.1), bs.map (·.1), (bs.map (fun x => if x.1 = 255 then x.2.1.length else 0)).foldl (· + ·) 0,
        countP (bs.map (fun x => x.2.2)), countP (bs.map (fun x => x.1 == 255))⟩
    else
      let f := fmtOf c.outFmt
      let rs := (List.range n).map (fun i => f.roundOnce (passFlow c (nums i)) (-1074) c.rnd c.sat sd (idx0 + i))
      ⟨rs.map (·.code), [], countP (rs.map (·.nan)), countP (rs.map (·.ovf)), 0⟩

/-- Element codes laid out as an element area (R303). -/
def packCodes (c : Nat) (xs : List Nat) : List Byte :=
  let w := fmtBits c
  leBytes (ceilDiv (xs.length * w) 8) (xs.foldr (fun x n => x % 2 ^ w + n * 2 ^ w) 0)

end Sys2Proof.Machine
end

