-- ==== Sys2Proof/Machine/Plans.lean ====
section
/-!
DEFINITION. Collective groups and plans (R326 to R344, R366, R367, spec/10_collectives.md): the plan image and its checks, the
assignment of logical arrays (R293, R294, R341), window calendars (R275), the Beacon allowance (R242), and the group and plan
commands that do not abort.
-/
namespace Sys2Proof.Machine

/-! ### Groups and plans -/

def State.group (s : State) (g : Nat) : Group := Tbl.get Group.none s.col.groups g
def State.setGroup (s : State) (g : Nat) (x : Group) : State :=
  { s with col := { s.col with groups := Tbl.set Group.none s.col.groups g x } }
def State.plan (s : State) (k : Nat) : Option Plan := Tbl.find s.col.plans k
def State.setPlan (s : State) (k : Nat) (x : Plan) : State := { s with col := { s.col with plans := Tbl.put s.col.plans k x } }
def State.modPlan (s : State) (k : Nat) (f : Plan → Plan) : State :=
  match s.plan k with
  | some x => s.setPlan k (f x)
  | none => s

def State.nGroups (s : State) : Nat := s.sized 4096
def State.nPlans (s : State) : Nat := s.sized 16384

/-- The plans of a group, and of a partition. -/
def State.plansOf (s : State) (g : Nat) : List (Nat × Plan) := s.col.plans.filter (fun e => e.2.group == g)
def State.plansHeld (s : State) (p : Nat) : List (Nat × Plan) := s.col.plans.filter (fun e => e.2.part == p)
def State.groupsHeld (s : State) (p : Nat) : Nat := (s.col.groups.filter (fun e => e.2.state != .free && e.2.part == p)).length

/-- The plan with a PLAN_ID. -/
def State.planById (s : State) (id : Nat) : Option (Nat × Plan) := s.col.plans.find? (fun e => e.2.body.id == id)

/-! ### Reading an image (R329 to R335) -/

def imgStep (b : List Byte) (o : Nat) : PStep :=
  let w (k : Nat) : Word := wordAt (slice b o 48) k
  { op := bits (w 0) 60 4, peer := bits (w 0) 48 12, route := bits (w 0) 36 12, stream := bit (w 0) 32, afterA := bits (w 0) 16 16
    afterB := bits (w 0) 0 16, srcSpace := bits (w 1) 62 2, dstSpace := bits (w 1) 60 2, ncontrib := bits (w 1) 48 12 + 1
    srcSlot := bits (w 1) 32 16, dstSlot := bits (w 1) 16 16, aux := bits (w 1) 0 16, srcOff := bits (w 2) 0 40, dstOff := bits (w 3) 0 40
    len := bits (w 4) 0 40, elem := bits (w 5) 24 40, localPos := bits (w 5) 11 13 }

def imgLink (b : List Byte) (o : Nat) : PLink :=
  let w := wordAt (slice b o 8) 0
  let m := slice b (o + 8) 128
  { output := bits w 56 8, dim := bits w 52 3, dir := bits w 51 1
    slots := (List.range 1024).filter (fun k => (m.getD (k / 8) 0).toNat.testBit (k % 8)) }

def imgRoute (b : List Byte) (o : Nat) : PRoute :=
  let w := wordAt (slice b o 8) 0
  ⟨bits w 52 12, bits w 44 8, bits w 36 8⟩

def imgSlot (b : List Byte) (o : Nat) : PSlot :=
  let w := wordAt (slice b o 16) 0
  let v := wordAt (slice b o 16) 1
  ⟨bits w 50 14, bits w 0 40, bits v 52 12, bits v 0 40⟩

/-- The counts of the five tables, and where each begins: nodes, links, routes, slots, steps, end. -/
def imgCounts (b : List Byte) : List Nat :=
  [bits (wordAt b 1) 16 16 + bits (wordAt b 1) 0 16, bits (wordAt b 9) 16 16, bits (wordAt b 9) 32 16, bits (wordAt b 9) 48 16, bits (wordAt b 10) 0 32]
def imgAt (b : List Byte) (k : Nat) : Nat :=
  128 + ((List.zip (imgCounts b) [8, 136, 8, 16, 48]).take k |>.map (fun x => x.1 * x.2)).foldl (· + ·) 0

def imgTable {α : Type} (b : List Byte) (k size : Nat) (f : List Byte → Nat → α) : List α :=
  (List.range ((imgCounts b).getD k 0)).map (fun i => f b (imgAt b k + i * size))

/-- A plan part read from its image. -/
def imgBody (b : List Byte) : PlanBody :=
  let w (k : Nat) : Word := wordAt b k
  { id := bits (w 1) 32 32, members := bits (w 1) 16 16, relays := bits (w 1) 0 16, control := w 2, seed := w 3, kind := bits (w 4) 56 8
    count := bits (w 4) 0 40, lag := bits (w 5) 32 32, abort := bits (w 5) 0 32, self := bits (w 6) 52 12, root := bits (w 6) 40 12
    relay := bit (w 6) 39, inplace := bit (w 6) 38, mask := bits (w 6) 0 16, ownStart := bits (w 7) 0 40, ownLen := bits (w 8) 0 40
    arrays := bits (w 9) 0 16
    nodes := imgTable b 0 8 (fun b o => bits (wordAt (slice b o 8) 0) 0 14)
    links := imgTable b 1 136 imgLink, routes := imgTable b 2 8 imgRoute, slots := imgTable b 3 16 imgSlot, steps := imgTable b 4 48 imgStep }

/-! ### Formats and spaces (R337) -/

def PlanBody.ctl (p : PlanBody) : Ctl := Ctl.of p.control

/-- The format a space holds: RECV_BUF that of the results, SEND_BUF and slots that of the contributions. -/
def PlanBody.fmtOf (p : PlanBody) (space : Nat) : Nat := if space = 1 then p.ctl.outFmt else p.ctl.inFmt

/-- The elements of the vector a space holds: of SEND_BUF and RECV_BUF by KIND (R344), of a slot the most whole blocks its bytes
hold (DEDUCED, log entry 10). -/
def PlanBody.vecLen (p : PlanBody) (space slot : Nat) : Nat :=
  match space with
  | 0 => if p.kind = 2 then p.ownLen else p.count
  | 1 => if p.kind = 1 then p.ownLen else p.count
  | _ =>
    let b := ((p.slots[slot]?).map (·.bytes)).getD 0
    let w := fmtBits p.ctl.inFmt
    if isMx p.ctl.inFmt then 32 * (b / (4 * w + 1)) else b * 8 / w

/-- The byte ranges of n elements at an offset of a space: the element area, and for an MX format the scale area (R303, R337). -/
def PlanBody.ranges (p : PlanBody) (space slot off n : Nat) : List (Nat × Nat) :=
  let f := p.fmtOf space
  let v := p.vecLen space slot
  (off * fmtBits f / 8, elBytes f n) :: (if isMx f then [(elBytes f v + off / 32, scBytes f n)] else [])

/-- The bytes of a step's transfer. -/
def PlanBody.stepBytes (p : PlanBody) (space n : Nat) : Nat := vecBytes (p.fmtOf space) n

/-! ### The checks of R340 -/

/-- The first index whose element fails a test. -/
def badIdx {α : Type} (l : List α) (ok : Nat → α → Bool) : Option Nat :=
  (firstIdx (fun i => match l[i]? with
    | some x => !ok i x
    | none => false) l.length 0)

/-- Whether an output number is a bridge's (R252). -/
def isBridge (o : Nat) : Bool := decide (136 ≤ o) && decide (o ≤ 145)

/-- The reserved bits and ranges of the header (R330). -/
def headerOk (b : List Byte) (caps : Nat) : Bool :=
  let w (k : Nat) : Word := wordAt b k
  let p := imgBody (b.take 128)
  bits (w 0) 32 32 == 0x4C50515A && caps.testBit (bits (w 0) 16 16) && bits (w 0) 0 16 == 0 &&
  p.id != 0 && decide (1 ≤ p.members) && decide (p.members ≤ 4096) && decide (p.relays ≤ 4096) &&
  onlyFields (w 4) [(56, 8), (0, 40)] && decide (p.kind ≤ 5) && p.lag != 0 && onlyFields (w 6) [(52, 12), (40, 12), (38, 2), (0, 16)] &&
  onlyFields (w 7) [(0, 40)] && onlyFields (w 8) [(0, 40)] && onlyFields (w 10) [(0, 32)] &&
  (List.range' 11 5).all (fun k => w k == 0) &&
  decide ((imgCounts b).getD 3 0 ≤ 256) && decide ((imgCounts b).getD 2 0 ≤ 4096) && decide ((imgCounts b).getD 1 0 ≤ 146) &&
  decide (p.arrays ≤ 512) && decide ((imgCounts b).getD 4 0 ≤ 65534) &&
  (p.relay || decide (p.self < p.members)) &&
  (p.kind != 4 || p.count == 0) && (p.kind != 5 || decide (p.count ≤ 16777215))

/-- The reserved bits of a step record (R335). -/
def stepBitsOk (b : List Byte) (i : Nat) : Bool :=
  let o := imgAt b 4 + 48 * i
  let w (k : Nat) : Word := wordAt (slice b o 48) k
  onlyFields (w 0) [(36, 28), (0, 33)] && onlyFields (w 2) [(0, 40)] && onlyFields (w 3) [(0, 40)] && onlyFields (w 4) [(0, 40)]
    && onlyFields (w 5) [(11, 53)]

/-- Whether a step is a RECV into STREAM. -/
def PStep.toStream (x : PStep) : Bool := x.op == 2 && x.dstSpace == 3

/-- Whether a STREAM step's source is part of the destination of its AFTER_A (R340, R345). -/
def PlanBody.streamOk (p : PlanBody) (x : PStep) : Bool :=
  (x.op == 1 || x.op == 4) &&
  (match p.steps[x.afterA]? with
   | some y => (y.op == 2 || y.op == 3 || y.op == 4) && x.srcSpace == y.dstSpace && (x.srcSpace != 2 || x.srcSlot == y.dstSlot)
       && decide (y.dstOff ≤ x.srcOff) && decide (x.srcOff + x.len ≤ y.dstOff + y.len)
   | none => false)

/-- The rules of FORMAT on one step (R335, R336, R340). -/
def PlanBody.stepOk (p : PlanBody) (i : Nat) (x : PStep) : Bool :=
  let hasSrc := x.op == 1 || x.op == 3 || x.op == 4
  let hasDst := x.op == 2 || x.op == 3 || x.op == 4
  decide (1 ≤ x.op) && decide (x.op ≤ 7) &&
  (x.afterA == 0xFFFF || decide (x.afterA < i)) && (x.afterB == 0xFFFF || decide (x.afterB < i)) &&
  decide (x.peer < p.members) &&
  (!hasSrc || (decide (x.srcSpace ≤ 2) && (x.srcSpace != 2 || decide (x.srcSlot < p.slots.length)))) &&
  (!hasDst || (decide (1 ≤ x.dstSpace) && (x.dstSpace != 2 || decide (x.dstSlot < p.slots.length)))) &&
  (!(x.op == 1 || x.op == 6) || decide (x.aux < 65534)) &&
  (x.op != 3 || decide (x.aux < p.arrays)) &&
  (x.dstSpace != 3 || (x.op == 2 && (match p.steps[x.aux]? with
    | some y => y.op == 3
    | none => false))) &&
  (!x.stream || p.streamOk x) &&
  (x.op != 3 || x.dstSpace != 1 || (p.steps.take i).all (fun y => y.op != 3 || y.dstSpace != 1 || !overlap x.dstOff x.len y.dstOff y.len))

/-- The first rule of FORMAT that fails, as the index it names (R340). -/
def formatBad (b : List Byte) (caps : Nat) : Option Nat :=
  if b.length < 128 ∨ !headerOk b caps then some 0
  else if b.length ≠ imgAt b 5 then some 0
  else
    let p := imgBody b
    if p.relay ∧ (p.steps ≠ [] ∨ p.slots ≠ [] ∨ p.arrays ≠ 0) then some 0
    else
      (badIdx p.nodes (fun i _ => onlyFields (wordAt (slice b (imgAt b 0 + 8 * i) 8) 0) [(0, 14)])).orElse fun _ =>
      (badIdx p.links (fun i _ => onlyFields (wordAt (slice b (imgAt b 1 + 136 * i) 8) 0) [(56, 8), (51, 4)])).orElse fun _ =>
      (badIdx p.routes (fun i x =>
        onlyFields (wordAt (slice b (imgAt b 2 + 8 * i) 8) 0) [(36, 28)] && (x.link == 0xFF || decide (x.link < p.links.length)) &&
        (x.bridge == 0xFF || (match p.links[x.bridge]? with
          | some l => isBridge l.output
          | none => false)) && !(p.routes.take i).any (fun y => y.route == x.route))).orElse fun _ =>
      (badIdx p.slots (fun i x =>
        onlyFields (wordAt (slice b (imgAt b 3 + 16 * i) 16) 0) [(50, 14), (0, 40)] &&
        onlyFields (wordAt (slice b (imgAt b 3 + 16 * i) 16) 1) [(52, 12), (0, 40)] &&
        x.off % 4096 == 0 && x.bytes % 4096 == 0 && x.bytes != 0)).orElse fun _ =>
      badIdx p.steps (fun i x => stepBitsOk b i && p.stepOk i x)

/-- The multiples of 32 of a step that moves or reduces MX elements (R301, R337): LEN, and its offset in each space that holds an MX format.
(log entry 122) -/
def PlanBody.mxOk (p : PlanBody) (x : PStep) : Bool :=
  let src := (x.op == 1 || x.op == 4) && isMx (p.fmtOf x.srcSpace)
  let strm := x.toStream && isMx p.ctl.inFmt
  let dst := (x.op == 2 || x.op == 3 || x.op == 4) && !x.toStream && isMx (p.fmtOf x.dstSpace)
  let red := x.op == 3 && (isMx p.ctl.inFmt || isMx p.ctl.outFmt)
  (!(src || strm || dst || red) || x.len % 32 == 0) && (!src || x.srcOff % 32 == 0) && (!dst || x.dstOff % 32 == 0) && (!red || x.elem % 32 == 0)

/-- R300, R301, R330 and the rule on STREAM in native mode, as the index CONTROL names. -/
def controlBad (p : PlanBody) (formats : Nat) : Option Nat :=
  let c := p.ctl
  let reduces := p.kind == 0 || p.kind == 1
  let mx := isMx c.inFmt || isMx c.outFmt
  if reduces && !ctlOk p.control then some 0
  else if !reduces && !(onlyFields p.control [(50, 10)] && c.inFmt == c.outFmt && formats.testBit c.inFmt && (p.kind != 4 || p.control == 0)) then some 0
  else if mx && !(p.count % 32 == 0 && p.ownStart % 32 == 0 && p.ownLen % 32 == 0) then some 0
  else badIdx p.steps (fun _ x =>
    !(x.toStream && c.native) && p.mxOk x)

/-- Whether an output is fitted (R4, R252). -/
def State.outFitted (s : State) (o : Nat) : Bool :=
  if o < 128 then decide (o < s.nPorts)
  else if o < 136 then decide (o - 128 < s.nEth)
  else if o < 140 then decide (o - 136 < s.sized 4) else if o < 144 then decide (o - 140 < s.sized 4) else !s.half && decide (o < 146)

/-- Whether an output is absent: its engine, its quadrant, or both port dies of its bridge have failed (R340, R503). -/
def State.outAbsent (s : State) (o : Nat) : Bool :=
  let failed (d : Nat) : Bool := (s.dom d).state == .failed
  if o < 128 then failed (engineDom (o / 4)) || failed (quadDom (o / 16))
  else if o < 136 then failed (portDom (o - 128))
  else if o < 144 then failed (portDom (2 * (o % 4))) && failed (portDom (2 * (o % 4) + 1))
  else false

/-- Whether an array group serves (R294): it is fitted and has at least 16 working arrays. -/
def State.groupWorking (s : State) (g : Nat) : Nat := 34 - (s.arr.failed.filter (fun a => a / 34 == g)).length
def State.groupServes (s : State) (g : Nat) : Bool := decide (g < s.sized 16) && decide (16 ≤ s.groupWorking g)

/-- The physical array of a logical one, if it has one. -/
def State.physArray (s : State) (l : Nat) : Option Nat := (Tbl.find s.arr.amap l).map (· - 1)

/-- The other logical array on the same physical array (R294). -/
def State.sharedWith (s : State) (l : Nat) : Option Nat :=
  match s.physArray l with
  | none => none
  | some a => (s.arr.amap.find? (fun e => e.1 != l && e.2 == a + 1)).map (·.1)

/-- A logical array is doubled when it shares the physical array of a lower-numbered one (R294). -/
def State.doubled (s : State) (l : Nat) : Bool := (s.sharedWith l).any (fun m => decide (m < l))

/-- The rules of UNITS (R340). -/
def State.unitsBad (s : State) (p : PlanBody) : Option Nat :=
  if !(List.range 16).all (fun g => !p.mask.testBit g || s.groupServes g) then some 0
  else if !p.relay ∧ p.nodes[p.self]? ≠ some (s.node.getD 16384) then some p.self
  else badIdx p.links (fun _ l =>
    s.outFitted l.output && !s.outAbsent l.output && (decide (l.output < 128) || isBridge l.output) &&
    (decide (128 ≤ l.output) || (s.fld F.FAB_PORT_CFG_DIM l.output == l.dim && s.fld F.FAB_PORT_CFG_DIR l.output == l.dir)))

/-- The slots of an output that plans satisfying a test reserve. -/
def State.slotsOn (s : State) (o : Nat) (t : Plan → Bool) : List Nat :=
  (s.col.plans.filter (fun e => t e.2)).flatMap (fun e => (e.2.body.links.filter (fun l => l.output == o)).flatMap (·.slots))

/-- The slots that a plan part reserves on an output, over all its link entries. -/
def PlanBody.slotsAt (p : PlanBody) (o : Nat) : List Nat := ((p.links.filter (fun l => l.output == o)).flatMap (·.slots)).eraseDups

/-- The rules of QUOTA (R340, R398). -/
def State.quotaBad (s : State) (part : Nat) (p : PlanBody) : Option Nat :=
  let x := s.part part
  let held := s.plansHeld part
  if x.plans < held.length + 1 ∨ x.arrays < (held.map (fun e => e.2.arrays.length)).foldl (· + ·) 0 + p.arrays then some 0
  else badIdx p.links (fun _ l => decide ((s.slotsOn l.output (fun y => y.part == part)).length + (p.slotsAt l.output).length ≤ x.calSlots))

/-- The free plan slots of a group's die (R326). -/
def State.freeSlots (s : State) (g : Nat) : List Nat :=
  (List.range s.nPlans).filter (fun k => !Tbl.has s.col.plans k && (s.half || k % 2 == g % 2))

/-- The logical arrays of the mask's groups that no plan holds, undoubled ones first (R341). -/
def State.freeArrays (s : State) (mask : Nat) : List Nat :=
  let l := (List.range 512).filter (fun a => mask.testBit (a / 32) && (s.physArray a).isSome && !s.col.plans.any (fun e => e.2.arrays.contains a))
  l.filter (fun a => !s.doubled a) ++ l.filter s.doubled

/-- The blocks of a plan's body copies and receive maps (R341): one bit for each 4 KiB of every RECV step's transfer. -/
def bodyBlocks (bytes : Nat) : Nat := ceilDiv bytes blkBytes
def PlanBody.mapBlocks (p : PlanBody) : Nat :=
  let units := ((p.steps.filter (fun x => x.op == 2 || x.op == 7)).map (fun x =>
    ceilDiv (if x.op = 7 then vecBytes p.ctl.inFmt p.count else p.stepBytes (if x.dstSpace = 3 then 2 else x.dstSpace) x.len) 4096)).foldl (· + ·) 0
  ceilDiv (ceilDiv units 8) blkBytes

/-- Take the INTERNAL blocks of a plan in slot k (R341, R538). -/
def State.takePlan (s : State) (k die bytes : Nat) (p : PlanBody) : Option State :=
  (s.takeMirror (s.dieStacks die) (bodyBlocks bytes) (fun i c => .planBody k i c)).bind
    (fun s => s.takeInternal (s.dieStacks die) p.mapBlocks (fun i => .recvMap k i))

/-- The rules of BUFFER on the slot table (R340). -/
def State.slotsBad (s : State) (g : Nat) (p : PlanBody) : Option Nat :=
  let own := s.node.getD 16384
  badIdx p.slots (fun _ x => x.node != own || (decide (x.off + x.bytes ≤ (s.group g).area * blkBytes) &&
    (s.plansOf g).all (fun e => e.2.body.slots.all (fun y => y.node != own || !overlap x.off x.bytes y.off y.bytes))))

/-- Whether the reserved slots form runs of at least 7, counted cyclically (R332). -/
def runsOk (l : List Nat) : Bool :=
  l.all (fun k => l.contains ((k + 1023) % 1024) || (List.range 7).all (fun i => l.contains ((k + i) % 1024)))

/-- The rules of CALENDAR (R340). -/
def State.calendarBad (s : State) (p : PlanBody) : Option Nat :=
  badIdx p.links (fun _ l => runsOk l.slots && (s.slotsOn l.output (fun _ => true)).all (fun k => !l.slots.contains k))

/-! ### The Beacon allowance (R242) -/

/-- Send n packets of 4,224 B or the rest, from a byte position of the frame, each wholly inside unreserved slots (R225): the
position after the last byte. The first number bounds the skips. -/
def carry (free : Nat → Bool) (sb : Nat) : Nat → Nat → Nat → Option Nat
  | 0, _, _ => none
  | fuel + 1, pos, left =>
    if left = 0 then some pos
    else
      let n := min left 4224
      let first := pos / sb
      let k := (pos + n - 1) / sb - first + 1
      match (List.range' first k).reverse.find? (fun i => !free (i % 1024)) with
      | some i => carry free sb fuel ((i + 1) * sb) left
      | none => carry free sb fuel (pos + n) (left - n)

/-- S_o (R242), ns, over every starting flit of the frame; none when the bytes can never be carried (DESIGN CHOICE of how the fit
rule cuts the burst into packets, log entry 11). -/
def waitNs (o : Nat) (free : Nat → Bool) (burst : Nat) : Option Nat :=
  let sb := slotBytes o
  if burst = 0 then some 0
  else
    (List.range (1024 * (sb / 64))).foldl (fun (m : Option Nat) k =>
      m.bind (fun w => (carry free sb (burst / 64 + 4096) (k * 64) burst).map (fun e => max w (ceilDiv (e - k * 64) (outRate o))))) (some 0)

def State.wOut (s : State) : Nat := if s.half then 418 else 198

/-- Whether an allowance is valid on an output with given free slots (R242). -/
def State.allowanceOk (s : State) (o burst rate : Nat) (free : Nat → Bool) : Bool :=
  (match waitNs o free burst with
   | some w => decide (w ≤ s.wOut)
   | none => false) &&
  decide (rate * 2048 ≤ ((List.range 1024).filter free).length * outRate o * 1000)

/-- The rules of BEACON (R340, R242). -/
def State.beaconBad (s : State) (p : PlanBody) : Option Nat :=
  badIdx p.links (fun _ l =>
    let cal := (s.out l.output).calAfter
    s.allowanceOk l.output (s.fld F.SCH_BEACON_PORT_BURST l.output * 64) (s.fld F.SCH_BEACON_PORT_RATE l.output)
      (fun k => Tbl.get 0 cal k == 0 && !(p.slotsAt l.output).contains k))

/-! ### PLAN_LOAD (R340, R341) -/

/-- The REASON and index of the first check that fails (R340). (log entry 72) -/
def State.planBad (s : State) (part g : Nat) (b : List Byte) : Option (Nat × Nat) :=
  match formatBad b (s.fld F.COL_CAPS_FMT) with
  | some i => some (1, i)
  | none =>
    let p := imgBody b
    let tag (n : Nat) (o : Option Nat) : Option (Nat × Nat) := o.map (fun i => (n, i))
    let when_ (n : Nat) (c : Bool) : Option (Nat × Nat) := if c then some (n, 0) else none
    (when_ 2 (s.planById p.id).isSome).orElse fun _ =>
    (when_ 3 ((s.group g).state != .active || (s.group g).part != part)).orElse fun _ =>
    (tag 4 (controlBad p (s.fld F.ARR_CAPS_FORMATS))).orElse fun _ =>
    (tag 5 (s.unitsBad p)).orElse fun _ =>
    (tag 6 (s.quotaBad part p)).orElse fun _ =>
    (when_ 7 (s.freeSlots g).isEmpty).orElse fun _ =>
    (when_ 8 (decide ((s.freeArrays p.mask).length < p.arrays))).orElse fun _ =>
    (tag 9 (s.slotsBad g p)).orElse fun _ =>
    (when_ 9 (s.takePlan 0 (s.dieOf g) b.length p).isNone).orElse fun _ =>
    (tag 10 (s.calendarBad p)).orElse fun _ => tag 11 (s.beaconBad p)

/-- Enter or remove a plan's reservations at the next frame boundaries (R275). -/
def State.reserveSlots (s : State) (p : PlanBody) (v : Nat) : State :=
  p.links.foldl (fun s l =>
    let x := s.out l.output
    s.setOut l.output { x with calNext := x.calNext ++ l.slots.map (fun k => (k, v)) }) s

/-- Whether any calendar change of a plan still waits. -/
def State.calPending (s : State) (p : PlanBody) : Bool := p.links.any (fun l => !(s.out l.output).calNext.isEmpty)

/-- A load whose calendars have all changed completes (R341). -/
def State.planReady (s : State) (k : Nat) (x : Plan) : State :=
  match x.loader with
  | some r => if s.calPending x.body then s else (s.setPlan k { x with state := .loaded, loader := none }).admEnd r Stat.SUCCESS k
  | none => s

/-- The image has come: the checks, and the commit (R340, R341). -/
def State.planImage (s : State) (r : Nat) (x : Rec) (b : List Byte) : State :=
  let g := bits x.desc.w4 0 12
  let part := x.desc.part
  match s.planBad part g b with
  | some (n, i) => s.admEnd r Stat.PLAN_REJECTED (n * 2 ^ 60 + i)
  | none =>
    let p := imgBody b
    let k := s.pickFrom (s.freeSlots g) 0
    let arrays := (k.2.freeArrays p.mask).take p.arrays
    let s := (k.2.takePlan k.1 (k.2.dieOf g) b.length p).getD k.2
    let y : Plan := { body := p, part := part, group := g, state := .loading, arrays := arrays, inv := 0, run := none, queue := [], loader := some r
                      unloaders := [], readys := [] }
    let s := (s.setPlan k.1 y).reserveSlots p (k.1 + 1)
    s.planReady k.1 y

/-- PLAN_LOAD (R340): the image is asked for. -/
def State.planLoad (s : State) (r : Nat) (x : Rec) : State :=
  let g := (s.admWait r).gather x.part x.src (.admin r)
  match g.2 with
  | some (.bytes b) => g.1.planImage r x b
  | some (.bad st d) => g.1.admEnd r st d
  | none => g.1

/-- PLAN_LOAD. -/
def execPlanLoad (t r : Nat) (s : State) : Host.Outcome State Fault Refusal :=
  .next ((s.at t).admRun r Op.PLAN_LOAD (fun s x => s.planLoad r x))

/-! ### Unloading and groups (R327, R328, R342, R367) -/

/-- Everything a plan holds is released (R342); a load that still waited is not completed here. -/
def State.dropPlan (s : State) (k : Nat) (x : Plan) : State :=
  let s := { s with col := { s.col with plans := Tbl.del s.col.plans k } }
  (s.reserveSlots x.body 0).releaseUses (fun u => match u with
    | .planBody j _ _ => j == k
    | .recvMap j _ => j == k
    | _ => false)

/-- Whether a plan's invocation is in progress. -/
def Plan.running (x : Plan) : Bool := x.run.any (fun r => !r.ended)

/-- A plan that is being unloaded and runs nothing is removed, and its commands complete, the first one first (R342). -/
def State.unloadNow (s : State) (k : Nat) (x : Plan) : State :=
  x.unloaders.foldl (fun s r => s.admEnd r Stat.SUCCESS) (s.dropPlan k x)

/-- The body of PLAN_UNLOAD. COLLECTIVEs that wait for the plan end with BAD_STATE (DEDUCED, log entry 12). -/
def State.planUnload (s : State) (r : Nat) (d : Rec) : State :=
  let k := bits d.desc.w2 0 14
  match s.plan k with
  | none => s.admEnd r Stat.BAD_STATE
  | some x =>
    if x.state = .loading then s.admEnd r Stat.BAD_STATE
    else if x.part ≠ d.desc.part then s.admEnd r Stat.PERMISSION_DENIED
    else
      let s := (s.setPlan k { x with state := .unloading, unloaders := x.unloaders ++ [r], queue := [] }).admWait r
      let s := x.queue.foldl (fun s c => s.endWith c Stat.BAD_STATE) s
      match s.plan k with
      | some y => if y.running then s else s.unloadNow k y
      | none => s

/-- PLAN_UNLOAD. -/
def execPlanUnload (t r : Nat) (s : State) : Host.Outcome State Fault Refusal :=
  .next ((s.at t).admRun r Op.PLAN_UNLOAD (fun s x => s.planUnload r x))

/-- PLAN_UNLOAD_RESUME (R342): the invocation in progress has ended. (log entry 73) -/
def execPlanUnloadResume (t k : Nat) (s : State) : Host.Outcome State Fault Refusal :=
  let s := s.at t
  match s.plan k with
  | some x => .next (if x.state = .unloading ∧ ¬ x.running then s.unloadNow k x else s)
  | none => .next s

/-- The group number and blocks of a new group (R328, R538): the lowest free number, then the lowest of the other die. -/
def State.groupPlace (s : State) (n mask : Nat) : Option (Nat × State) :=
  let ks (d : Nat) : List Nat := (maskBits mask 20).filter (fun k => decide (k < s.nStacks) && stackDie k == d)
  let free := fun g => (s.group g).state == .free
  let try_ (g : Nat) : Option (Nat × State) := (s.takeInternal (ks (s.dieOf g)) n (fun k => .groupArea g k)).map (fun s => (g, s))
  match firstIdx free s.nGroups 0 with
  | none => none
  | some g => (try_ g).orElse fun _ =>
    ((firstIdx (fun h => free h && s.dieOf h != s.dieOf g) s.nGroups 0).bind try_)

/-- The body of GROUP_CREATE (R328). -/
def State.groupCreate (s : State) (r : Nat) (x : Rec) : State :=
  let p := x.desc.part
  let n := bits x.desc.w2 0 22
  if (s.part p).groups ≤ s.groupsHeld p ∨ (firstIdx (fun g => (s.group g).state == .free) s.nGroups 0).isNone then s.admEnd r Stat.NO_QUEUE
  else if (s.part p).blocks < s.blocksHeld p + n then s.admEnd r Stat.NO_GALLERY_SPACE
  else match s.groupPlace n (bits x.desc.w3 0 20) with
    | none => s.admEnd r Stat.NO_GALLERY_SPACE
    | some (g, s) => (s.setGroup g ⟨.active, p, bits x.desc.w4 0 16, n, 0⟩).admEnd r Stat.SUCCESS g

/-- GROUP_CREATE. -/
def execGroupCreate (t r : Nat) (s : State) : Host.Outcome State Fault Refusal :=
  .next ((s.at t).admRun r Op.GROUP_CREATE (fun s x => s.groupCreate r x))

/-- The tests of a command on an existing group. -/
def State.groupFor (s : State) (x : Rec) : Nat :=
  let g := s.group (bits x.desc.w2 0 12)
  if g.state = .free then Stat.BAD_STATE else if g.part ≠ x.desc.part then Stat.PERMISSION_DENIED else Stat.SUCCESS

/-- A group returns to FREE: its area is scrubbed and freed (R327). -/
def State.freeGroup (s : State) (g : Nat) : State :=
  (s.setGroup g Group.none).releaseUses (fun u => match u with
    | .groupArea h _ => h == g
    | _ => false)

/-- The body of GROUP_DESTROY (R327, R366). -/
def State.groupDestroy (s : State) (r : Nat) (x : Rec) : State :=
  let g := bits x.desc.w2 0 12
  if s.groupFor x ≠ Stat.SUCCESS then s.admEnd r (s.groupFor x)
  else if (s.group g).state ≠ .active ∨ s.plansOf g ≠ [] then s.admEnd r Stat.BAD_STATE
  else ((s.setGroup g Group.none).freeArea g x.desc.part).admEnd r Stat.SUCCESS

/-- GROUP_DESTROY. -/
def execGroupDestroy (t r : Nat) (s : State) : Host.Outcome State Fault Refusal :=
  .next ((s.at t).admRun r Op.GROUP_DESTROY (fun s x => s.groupDestroy r x))

/-- STATE of a group in GROUP_QUERY. -/
def GroupState.code : GroupState → Nat
  | .free => 0 | .active => 1 | .aborting => 2

/-- The body of GROUP_QUERY (R367). -/
def State.groupQuery (s : State) (r : Nat) (x : Rec) : State :=
  let k := bits x.desc.w2 0 12
  let g := s.group k
  if g.state ≠ .free ∧ g.part ≠ x.desc.part then s.admEnd r Stat.PERMISSION_DENIED
  else
    let ps := s.plansOf k
    s.admResult r x (wordBytes (word (g.state.code * 2 ^ 60 + g.gen % 2 ^ 16 * 2 ^ 32 + ps.length % 2 ^ 16)) ++ wordBytes (word (g.area % 2 ^ 22))
      ++ wordBytes g.last ++ wordBytes (word (ps.filter (fun e => e.2.running)).length))

/-- GROUP_QUERY. -/
def execGroupQuery (t r : Nat) (s : State) : Host.Outcome State Fault Refusal :=
  .next ((s.at t).admRun r Op.GROUP_QUERY (fun s x => s.groupQuery r x))

/-- The body of PLAN_QUERY (R367); a slot that holds no loaded plan completes with BAD_STATE (DESIGN CHOICE, log entry 13). -/
def State.planQuery (s : State) (r : Nat) (x : Rec) : State :=
  match s.plan (bits x.desc.w2 0 14) with
  | none => s.admEnd r Stat.BAD_STATE
  | some p =>
    if p.part ≠ x.desc.part then s.admEnd r Stat.PERMISSION_DENIED
    else
      let st := if p.state = .unloading then 2 else if p.running then 1 else 0
      let done := (p.run.map (fun y => if y.ended then 0 else y.done.length)).getD 0
      s.admResult r x (wordBytes (word (p.body.id * 2 ^ 32 + p.inv % 2 ^ 32)) ++ wordBytes (word (st * 2 ^ 60 + p.group % 2 ^ 12))
        ++ wordBytes (word (done % 2 ^ 16)) ++ wordBytes (word ((p.arrays.head?.getD 0) % 512)))

/-- PLAN_QUERY. -/
def execPlanQuery (t r : Nat) (s : State) : Host.Outcome State Fault Refusal :=
  .next ((s.at t).admRun r Op.PLAN_QUERY (fun s x => s.planQuery r x))

end Sys2Proof.Machine
end

