-- ==== Sys2Proof/Machine/Collective.lean ====
section
/-!
DEFINITION. Running a collective (R343 to R364, R321, R322, spec/10_collectives.md and spec/09_reduction_arithmetic.md): acceptance
of a COLLECTIVE, the steps of an invocation, READYs and data, passes, laggards and aborts.
-/
namespace Sys2Proof.Machine

/-! ### Where the bytes of a step lie (R336, R337, R363, R364) -/

/-- Extents of a group area from a byte offset (log entry 9 names INTERNAL memory by window 3). -/
def State.areaExts (s : State) (g : Nat) : Nat → Nat → Nat → List Extent
  | 0, _, _ => []
  | n + 1, off, len =>
    if len = 0 then []
    else
      let k := min len (blkBytes - off % blkBytes)
      ⟨none, 3 * 2 ^ 48 + s.usePhys (fun i => .groupArea g i) off, k, 0, 0, false⟩ :: State.areaExts s g n (off + k) (len - k)

/-- The extents of byte ranges of a space: SEND_BUF, RECV_BUF or a slot. -/
def State.spaceExts (s : State) (x : Plan) (r : Run) (space slot : Nat) (rs : List (Nat × Nat)) : List Extent :=
  rs.flatMap (fun p => match space with
    | 0 => cutExt r.src p.1 p.2
    | 1 => cutExt r.dst p.1 p.2
    | 2 => s.areaExts x.group (p.2 / blkBytes + 2) (((x.body.slots[slot]?).map (·.off)).getD 0 + p.1) p.2
    | _ => [])

/-- The bytes of a count table of N entries, padded (R363). -/
def tabBytes (n : Nat) : Nat := 64 * ceilDiv (4 * n) 64

/-- The elements a member sends to member j, and where its segment starts (R363, R364). -/
def Run.share (r : Run) (b : PlanBody) (j : Nat) : Nat := min (r.counts.getD j 0) b.count
def Run.segment (r : Run) (b : PlanBody) (j : Nat) : Nat :=
  tabBytes b.members + ((r.counts.take j).map (vecBytes b.ctl.inFmt)).foldl (· + ·) 0

/-- The bytes of a pair's capacity. -/
def PlanBody.pairBytes (b : PlanBody) : Nat := vecBytes b.ctl.inFmt b.count

/-- The byte ranges a SEND, COPY or SEND_BOUNDED reads. -/
def PlanBody.srcRanges (b : PlanBody) (r : Run) (x : PStep) : List (Nat × Nat) :=
  if x.op = 6 then
    let f := b.ctl.inFmt
    let n := r.share b x.peer
    let at0 := r.segment b x.peer
    (at0, elBytes f n) :: (if isMx f then [(at0 + elBytes f (r.counts.getD x.peer 0), scBytes f n)] else [])
  else b.ranges x.srcSpace x.srcSlot x.srcOff x.len

/-- The byte ranges a RECV, COPY or RECV_BOUNDED writes. -/
def PlanBody.dstRanges (b : PlanBody) (x : PStep) : List (Nat × Nat) :=
  if x.op = 7 then [(tabBytes b.members + x.peer * b.pairBytes, b.pairBytes)] else b.ranges x.dstSpace x.dstSlot x.dstOff x.len

/-- The bytes of a step's transfer: of a RECV_BOUNDED the capacity until SENT is known. -/
def Run.bytesOf (r : Run) (b : PlanBody) (i : Nat) (x : PStep) : Nat :=
  if x.op = 6 then vecBytes b.ctl.inFmt (r.share b x.peer)
  else if x.op = 7 then ((Tbl.find r.sent i).map (vecBytes b.ctl.inFmt)).getD b.pairBytes
  else b.stepBytes (if x.op = 2 then x.dstSpace else x.srcSpace) x.len

/-- The packets of a transfer (R348). -/
def unitsOf (n : Nat) : Nat := max 1 (ceilDiv n 4096)

/-- The units that hold bytes [lo, hi) of a transfer. -/
def unitRange (lo hi : Nat) : List Nat := if hi ≤ lo then [] else List.range' (lo / 4096) ((hi - 1) / 4096 - lo / 4096 + 1)

/-- The units of a transfer of n elements that hold elements [a, b). -/
def elemUnits (f n a b : Nat) : List Nat :=
  if b ≤ a then []
  else
    let w := fmtBits f
    let eb := elBytes f n
    unitRange (a * w / 8) (ceilDiv (b * w) 8) ++ (if isMx f then unitRange (eb + a / 32) (eb + ceilDiv b 32) else [])

/-- The element ranges that bytes [lo, hi) of a transfer of n elements hold. -/
def byteElems (f n lo hi : Nat) : List (Nat × Nat) :=
  let w := fmtBits f
  let eb := elBytes f n
  (if lo < min hi eb then [(lo * 8 / w, min n (ceilDiv (min hi eb * 8) w))] else []) ++
  (if isMx f ∧ eb < hi then [(32 * (max lo eb - eb), min n (32 * (hi - eb)))] else [])

/-- The passes of a REDUCE (R295). -/
def passElems : Nat := 2048
def PStep.passes (x : PStep) : Nat := ceilDiv x.len passElems
def PStep.passLen (x : PStep) (i : Nat) : Nat := min passElems (x.len - passElems * i)

/-- Whether a step has written elements [a, b) of its destination. -/
def Run.wrote (r : Run) (b : PlanBody) (i lo hi : Nat) : Bool :=
  match b.steps[i]? with
  | none => true
  | some y =>
    if y.op = 2 then (elemUnits (b.fmtOf y.dstSpace) y.len lo hi).all (fun u => (Tbl.get [] r.met i).contains u)
    else if y.op = 4 then (elemUnits (b.fmtOf y.srcSpace) y.len lo hi).all (fun u => (Tbl.get [] r.written i).contains u)
    else if y.op = 3 then
      (List.range' (lo / passElems) ((hi + passElems - 1) / passElems - lo / passElems)).all (fun p => (Tbl.get [] r.written i).contains p)
    else r.done.contains i

/-- The units of a SEND or COPY that its source holds already: with STREAM, those its AFTER_A has written (R345). -/
def Run.present (r : Run) (b : PlanBody) (i : Nat) (x : PStep) : Nat :=
  let total := r.bytesOf b i x
  let n := unitsOf total
  if x.stream then
    let f := b.fmtOf x.srcSpace
    let base := ((b.steps[x.afterA]?).map (·.dstOff)).getD 0
    (firstIdx (fun u => !(byteElems f x.len (4096 * u) (min total (4096 * (u + 1)))).all
      (fun e => r.wrote b x.afterA (x.srcOff - base + e.1) (x.srcOff - base + e.2))) n 0).getD n
  else n

/-- The units the latest READY lets a SEND start (R346). -/
def Plan.window (x : Plan) (r : Run) (i : Nat) (st : PStep) : Nat :=
  let total := r.bytesOf x.body i st
  if st.op = 6 ∧ st.peer = x.body.self then unitsOf total
  else
    match (x.readys.filter (fun e => e.1 == x.inv && e.2.1 == i)).map (fun e => e.2.2) |>.max? with
    | none => 0
    | some e => if total ≤ e then unitsOf total else e / 4096

/-- The window a RECV grants (R346): the whole transfer, or for STREAM the end of what pass p reads, up to a whole packet. (log entry 63) -/
def PlanBody.grant (b : PlanBody) (r : Run) (i : Nat) (x : PStep) (p : Nat) : Nat :=
  let total := r.bytesOf b i x
  if x.toStream then
    let f := b.ctl.inFmt
    let e := min x.len (passElems * (p + 1))
    let last := if isMx f then elBytes f x.len + ceilDiv e 32 else elBytes f e
    min total (4096 * ceilDiv last 4096)
  else total

/-! ### Changing an invocation -/

def State.modRun (s : State) (k : Nat) (f : Run → Run) : State := s.modPlan k (fun x => { x with run := x.run.map f })

/-- The plan in slot k and its invocation in progress. -/
def State.runOf (s : State) (k : Nat) : Option (Plan × Run) :=
  match s.plan k with
  | some x => match x.run with
    | some r => if r.ended then none else some (x, r)
    | none => none
  | none => none

/-- The same, if it still is invocation uid of the model's numbering. -/
def State.runOfUid (s : State) (k uid : Nat) : Option (Plan × Run) := (s.runOf k).filter (fun p => p.2.uid == uid)

/-- A record number that no descriptor has, for messages of no descriptor. -/
def noRec : Nat := 2 ^ 64

/-! ### Collective messages (R348, R349) -/

/-- Make and begin a collective message: words 1, 3, 4 and 6, and its bytes. -/
def State.sendCol (s : State) (k : Nat) (x : Plan) (step dst : Nat) (ctl : List Word) (data : List Byte) (off : Nat) : State :=
  let node := x.body.nodes.getD dst 0
  let m := { Msg.make noRec 0 x.part (s.part x.part).gen MsgKind.col node data.length 12 (s.verTo node) false with
    data := data, ctl := ctl, plan := k, step := step, off := off }
  let y := s.addMsg m
  y.2.tryBegin y.1

/-- Word 1 and word 3 of a COL_DATA header. -/
def colW1 (x : Plan) (gen step : Nat) : Word := word (x.body.id % 2 ^ 32 * 2 ^ 32 + gen % 2 ^ 16 * 2 ^ 16 + step % 2 ^ 16)
def colW3 (x : Plan) (route ckind cause : Nat) : Word :=
  word (x.inv % 2 ^ 32 * 2 ^ 32 + x.body.self % 2 ^ 12 * 2 ^ 20 + route % 2 ^ 12 * 2 ^ 8 + ckind * 16 + cause % 16)

/-- Send the READY of a RECV step (R346). -/
def State.sendReady (s : State) (k i p : Nat) : State :=
  match s.runOf k with
  | none => s
  | some (x, r) => match x.body.steps[i]? with
    | none => s
    | some st =>
      let e := x.body.grant r i st p
      let s := s.modRun k (fun r => { r with grants := Tbl.put r.grants i e })
      if st.op = 7 ∧ st.peer = x.body.self then s
      else s.sendCol k x i st.peer [colW1 x (s.group x.group).gen i, colW3 x st.route 1 0, word (e % 2 ^ 40), 0] [] 0

/-- The data of a chunk of a SEND: messages of at most 4 MiB (R348). -/
def State.sendData4M (s : State) (k i : Nat) (x : Plan) (r : Run) (st : PStep) : Nat → Nat → List Byte → State
  | 0, _, _ => s
  | n + 1, off, bs =>
    let sent : Nat := if st.op = 6 then r.share x.body st.peer else 0
    let s := s.sendCol k x i st.peer
      [colW1 x (s.group x.group).gen st.aux, colW3 x st.route 0 0, word (sent % 2 ^ 24 * 2 ^ 40 + off % 2 ^ 40), r.sig] (bs.take 4194304) off
    if bs.length ≤ 4194304 then s else State.sendData4M s k i x r st n (off + 4194304) (bs.drop 4194304)

/-! ### Aborts (R359, R360) -/

/-- COL_ABORT_LOG (R368). -/
def abortWord (cause g member step gen : Nat) : Word :=
  word (2 ^ 63 + cause % 16 * 2 ^ 56 + g % 4096 * 2 ^ 44 + member % 4096 * 2 ^ 32 + step % 65536 * 2 ^ 16 + gen % 65536)

/-- DATA of a COLLECTIVE entry that an abort ended (R357). -/
def abortData (cause member step gen : Nat) : Word :=
  word (gen % 65536 * 2 ^ 48 + member % 4096 * 2 ^ 36 + cause % 16 * 2 ^ 32 + step % 65536 * 2 ^ 16)

/-- End a COLLECTIVE with its entry: NODE, BYTES and DATA (R357). -/
def State.endCol (s : State) (c status bytes node : Nat) (data : Word) : State :=
  (s.modRec c (fun x => { x with node := node })).finish c Ty.COLLECTIVE status bytes data

/-- The routes that start at this member, with the member at the end of each. (log entry 68) -/
def PlanBody.ownRoutes (b : PlanBody) : List (Nat × Nat) :=
  ((b.steps.filter (fun x => (x.op == 1 || x.op == 2 || x.op == 6 || x.op == 7) && x.peer != b.self)).map (fun x => (x.route, x.peer))).eraseDups

/-- A message of a plan, of a kind other than ABORT. -/
def Msg.ofPlan (m : Msg) (k : Nat) : Bool := m.kind == MsgKind.col && m.plan == k
def Msg.ckind (m : Msg) : Nat := bits (m.ctl.getD 1 0) 4 4

/-- The domains of an output: its engine and quadrant, or the common logic of the Lantern dies that its bridge touches (R16, R478, R479). -/
def outDoms (o : Nat) : List Nat :=
  if o < 128 then [engineDom (o / 4), quadDom (o / 16)] else if o < 144 then [commonDom (o % 4 / 2)] else [commonDom 0, commonDom 1]

/-- The domains an invocation keeps ON (R362). -/
def State.colDoms (s : State) (k : Nat) (x : Plan) (es : List Extent) : List Nat :=
  let areas := (s.pool.blks.filter (fun e => match e.2.use with
    | .groupArea g _ => g == x.group
    | .planBody j _ _ => j == k
    | .recvMap j _ => j == k
    | _ => false)).map (fun e => stackDom (e.1 / 65536))
  (x.arrays.map (fun a => arrayDom (a / 32)) ++ areas ++ x.body.links.flatMap (fun l => outDoms l.output)
    ++ (linksOf es).map linkDom).eraseDups

/-- An invocation has ended: the domains it kept ON begin to idle (R362, R480, R481). -/
def State.colIdles (s : State) (k : Nat) (x : Plan) : State :=
  match x.run with
  | some r => (s.colDoms k x (r.src ++ r.dst) ++ x.body.links.flatMap (fun l => outDoms l.output)).eraseDups.foldl State.idleFrom s
  | none => s

/-- Whether a gathering operation is a plan's. -/
def Why.ofPlan (w : Why) (k : Nat) : Bool :=
  match w with
  | .colSend j _ _ _ _ => j == k
  | .colFold j _ _ => j == k
  | _ => false

/-- Stop one plan of an aborted group (R360 steps 2 to 4): ABORTs leave, everything else of it stops, its COLLECTIVEs complete. -/
def State.abortPlan (s : State) (cause member step old gen k : Nat) : State :=
  match s.plan k with
  | none => s
  | some x =>
    let node := if member < 4095 then x.body.nodes.getD member 0 else 0
    let status := if cause = 1 then Stat.SIGNATURE_MISMATCH else Stat.GROUP_ABORTED
    let data := abortData cause member step gen
    let s := x.body.ownRoutes.foldl (fun s p =>
      s.sendCol k x 65535 p.2 [colW1 x old 65535, colW3 x p.1 2 cause, word (step % 65536 * 4096 + member % 4096), 0] [] 0) s
    let s := ((s.tr.msgs.filter (fun e => e.2.ofPlan k && e.2.ckind != 2)).map (·.1)).foldl State.dropMsg s
    let s := { s with
      io := { s.io with builds := s.io.builds.filter (fun e => !e.2.why.ofPlan k) }
      waiting := s.waiting.filter (fun e => !(e.2 == Work.invoke k)) }
    let s := match x.run with
      | none => s
      | some r =>
        if r.ended then s
        else
          let s := (s.count F.ARR_COUNT_COUNT 5 0 r.cur.length).count F.COL_COUNT_COUNT 1
          let s := (s.colIdles k x).modRun k (fun r => { r with ended := true, cur := [] })
          s.endCol r.recId status r.bytes node data
    let s := x.queue.foldl (fun s c => s.endCol c status 0 node data) s
    s.modPlan k (fun x => { x with queue := [], readys := [] })

/-- Abort a group (R360). An abort begins only from ACTIVE: while ABORTING the group has aborted already. -/
def State.abortGroup (s : State) (g cause member step : Nat) : State :=
  let x := s.group g
  if x.state ≠ .active then s
  else
    let gen := (x.gen + 1) % 65536
    let w := abortWord cause g member step gen
    let s := (s.setGroup g { x with state := .aborting, gen := gen, last := w }).setReg .COL_ABORT_LOG 0 0 w
    ((s.plansOf g).map (·.1)).foldl (fun s k => s.abortPlan cause member step x.gen gen k) s

/-- The status of a read that failed inside a collective: the group aborts with cause MEMORY, naming this member (R359). (log entry 67) -/
def State.colMemory (s : State) (k i : Nat) : State :=
  match s.plan k with
  | some x => s.abortGroup x.group 5 x.body.self i
  | none => s

/-! ### Moving a chunk of a SEND or COPY -/

/-- Place bytes for a step: a write over part of a poisoned line counts as a memory error (R102). (log entry 69) -/
def State.colPlace (s : State) (k i : Nat) (part : Nat) (es : List Extent) (bs : List Byte) (why : PlaceWhy) : State :=
  let parts := layOut es bs
  let s := s.checkedParts parts
  if (s.partsPoison parts).isSome then s.colMemory k i else s.place part parts none why

/-- The bytes of a chunk have come. -/
def State.gotColSend (s : State) (k uid i off : Nat) (g : Got) : State :=
  match s.runOfUid k uid with
  | none => s
  | some (x, r) => match x.body.steps[i]?, g with
    | none, _ => s
    | some _, .bad _ _ => s.colMemory k i
    | some st, .bytes b =>
      let us := List.range' (off / 4096) (unitsOf b.length)
      if st.op = 4 then
        s.colPlace k i x.part (cutExt (s.spaceExts x r st.dstSpace st.dstSlot (x.body.dstRanges st)) off b.length) b (.colWrite k uid i us)
      else if st.op = 6 ∧ st.peer = x.body.self then
        let es := cutExt r.dst (tabBytes x.body.members + st.peer * x.body.pairBytes + off) b.length
        s.colPlace k i x.part es b (.colWrite k uid i us)
      else s.sendData4M k i x r st (b.length / 4194304 + 1) off b

/-- Ask for units [lo, hi) of a SEND or COPY. -/
def State.askUnits (s : State) (k : Nat) (x : Plan) (r : Run) (i : Nat) (st : PStep) (lo hi : Nat) : State :=
  let off := 4096 * lo
  let len := min (r.bytesOf x.body i st) (4096 * hi) - off
  let s := s.modRun k (fun r => { r with asked := Tbl.put r.asked i hi, since := Tbl.del r.since i })
  let g := s.gather x.part (cutExt (s.spaceExts x r st.srcSpace st.srcSlot (x.body.srcRanges r st)) off len) (.colSend k r.uid i off len)
  match g.2 with
  | some b => g.1.gotColSend k r.uid i off b
  | none => g.1

/-! ### Starting and completing steps (R336, R345) -/

/-- Whether an AFTER field is satisfied. -/
def Run.after (r : Run) (a : Nat) : Bool := a == 0xFFFF || r.done.contains a

/-- Whether a step may start (R345). A step with STREAM starts with AFTER_A, once its AFTER_B, if it names one, has completed (R335; DEDUCED,
log entry 143). -/
def Run.mayStart (r : Run) (i : Nat) (x : PStep) : Bool :=
  !r.started.contains i &&
  (if x.toStream then r.started.contains x.aux
   else if x.stream then r.started.contains x.afterA && r.after x.afterB
   else r.after x.afterA && r.after x.afterB)

/-- Whether messages or gathered bytes of a SEND are still under way. -/
def State.colBusy (s : State) (k uid i : Nat) : Bool :=
  s.tr.msgs.any (fun e => e.2.ofPlan k && e.2.step == i && e.2.ckind == 0)
    || s.io.builds.any (fun e => match e.2.why with
      | .colSend j u t _ _ => j == k && u == uid && t == i
      | _ => false)

/-- The step of this plan that carries the member's own pair. -/
def PlanBody.selfSend (b : PlanBody) : Option Nat := firstIdx (fun i => match b.steps[i]? with
  | some x => x.op == 6 && x.peer == b.self
  | none => false) b.steps.length 0

/-- Whether every unit of a RECV has been placed. -/
def Run.allMet (r : Run) (b : PlanBody) (i : Nat) (x : PStep) : Bool :=
  if x.op = 7 ∧ x.peer = b.self then b.selfSend.any (fun j => r.done.contains j)
  else (x.op != 7 || Tbl.has r.sent i) && (Tbl.get [] r.met i).length == unitsOf (r.bytesOf b i x)

/-- Whether a started step is complete (R336). -/
def State.stepComplete (s : State) (k : Nat) (x : Plan) (r : Run) (i : Nat) (st : PStep) : Bool :=
  let wr := (Tbl.get [] r.written i).length
  if st.op = 1 ∨ (st.op = 6 ∧ st.peer ≠ x.body.self) then
    Tbl.get 0 r.asked i == unitsOf (r.bytesOf x.body i st) && !s.colBusy k r.uid i
  else if st.op = 6 then wr == unitsOf (r.bytesOf x.body i st)
  else if st.op = 2 then r.allMet x.body i st
  else if st.op = 7 then r.allMet x.body i st && wr == 1
  else if st.op = 3 then wr == st.passes
  else if st.op = 4 then st.len == 0 || wr == unitsOf (r.bytesOf x.body i st)
  else true

/-- A step starts: a RECV sends its READY, a REDUCE grants its streams the first pass, a bounded SEND counts what it drops
(R346, R364). -/
def State.startStep (s : State) (k : Nat) (x : Plan) (r : Run) (i : Nat) (st : PStep) : State :=
  let s := s.modRun k (fun r => { r with started := r.started ++ [i] })
  if st.op = 2 ∨ st.op = 7 then s.sendReady k i 0
  else if st.op = 6 then
    let d := r.counts.getD st.peer 0 - x.body.count
    (s.count F.COL_COUNT_COUNT 5 0 d).modRun k (fun r => { r with drops := Tbl.set 0 r.drops st.peer d })
  else s

/-- Something a started step can do now: units to ask for, or a bounded RECV's count to write. -/
inductive Pump where
  | units (lo hi : Nat)
  | count
  deriving DecidableEq, Repr

def Plan.pump (x : Plan) (r : Run) (i : Nat) (st : PStep) : Option Pump :=
  if !r.started.contains i || r.done.contains i then none
  else if st.op = 1 ∨ st.op = 6 then
    let hi := min (r.present x.body i st) (x.window r i st)
    if Tbl.get 0 r.asked i < hi then some (.units (Tbl.get 0 r.asked i) hi) else none
  else if st.op = 4 then
    let hi := r.present x.body i st
    if st.len ≠ 0 ∧ Tbl.get 0 r.asked i < hi then some (.units (Tbl.get 0 r.asked i) hi) else none
  else if st.op = 7 then (if r.allMet x.body i st && !Tbl.has r.asked i then some .count else none)
  else none

/-- The first step among those listed for which f answers. -/
def firstStep {α : Type} (b : PlanBody) (f : Nat → PStep → Option α) : Option (Nat × PStep × α) :=
  (List.range b.steps.length).findSome? (fun i => match b.steps[i]? with
    | some st => (f i st).map (fun a => (i, st, a))
    | none => none)

/-- Write SENT to the count table of RECV_BUF (R364). -/
def State.writeCount (s : State) (k : Nat) (x : Plan) (r : Run) (i : Nat) (st : PStep) : State :=
  let n := if st.peer = x.body.self then r.share x.body st.peer else Tbl.get 0 r.sent i
  let s := s.modRun k (fun r => { r with asked := Tbl.put r.asked i 1 })
  s.colPlace k i x.part (cutExt r.dst (4 * st.peer) 4) (leBytes 4 n) (.colWrite k r.uid i [0])

/-- One change of an invocation: a step that may start, a complete step, or bytes that may move; none when nothing is to be done. -/
def State.colStep (s : State) (k : Nat) : Option State :=
  match s.runOf k with
  | none => none
  | some (x, r) =>
    let b := x.body
    match firstStep b (fun i st => if r.mayStart i st then some () else none) with
    | some (i, st, _) => some (s.startStep k x r i st)
    | none =>
      match firstStep b (fun i st => if r.started.contains i && !r.done.contains i && s.stepComplete k x r i st then some () else none) with
      | some (i, _, _) => some (s.modRun k (fun r => { r with done := r.done ++ [i], since := Tbl.del r.since i }))
      | none =>
        match firstStep b (x.pump r) with
        | some (i, st, .units lo hi) => some (s.askUnits k x r i st lo hi)
        | some (i, st, .count) => some (s.writeCount k x r i st)
        | none => none

/-- Do all that can be done; the number bounds the changes. -/
def State.colLoop (s : State) (k : Nat) : Nat → State
  | 0 => s
  | n + 1 => match s.colStep k with
    | some s' => State.colLoop s' k n
    | none => s

/-! ### Laggards (R358) -/

/-- Where the contributions of a pass come from. -/
inductive PassSrc where
  | own                                -- SEND_BUF at ELEM
  | stream (step : Nat)                -- a RECV into STREAM
  | at (off : Nat)                     -- an element offset of SRC_SPACE
  deriving DecidableEq, Repr

def PlanBody.passSrc (b : PlanBody) (i : Nat) (st : PStep) (c : Nat) : PassSrc :=
  if c = st.localPos then .own
  else match firstIdx (fun j => match b.steps[j]? with
    | some y => y.toStream && y.aux == i && y.dstOff == c
    | none => false) b.steps.length 0 with
  | some j => .stream j
  | none => .at (st.srcOff + c * st.len)

/-- The RECV steps whose missing bytes hold up pass p of a REDUCE (R345). -/
def Run.missing (r : Run) (b : PlanBody) (i : Nat) (st : PStep) (p : Nat) : List Nat :=
  let a := passElems * p
  let n := st.passLen p
  (List.range st.ncontrib).flatMap (fun c => match b.passSrc i st c with
    | .own => []
    | .stream j => if r.wrote b j a (a + n) then [] else [j]
    | .at off => (List.range b.steps.length).filter (fun j => match b.steps[j]? with
      | some y =>
        let lo := max (off + a) y.dstOff
        let hi := min (off + a + n) (y.dstOff + y.len)
        y.op == 2 && y.dstSpace == st.srcSpace && (st.srcSpace != 2 || y.dstSlot == st.srcSlot) && decide (lo < hi)
          && !r.wrote b j (lo - y.dstOff) (hi - y.dstOff)
      | none => false))

/-- Whether a started step waits on a partner (R358), and on which member. (log entry 64) -/
def State.waitsOn (s : State) (k : Nat) (x : Plan) (r : Run) (i : Nat) (st : PStep) : Option Nat :=
  if !r.started.contains i || r.done.contains i then none
  else if st.op = 1 ∨ st.op = 6 then
    if x.window r i st ≤ Tbl.get 0 r.asked i ∨ s.colBusy k r.uid i then some st.peer else none
  else if st.op = 2 ∨ st.op = 7 then (if r.allMet x.body i st then none else some st.peer)
  else if st.op = 3 then
    if Tbl.has r.cur i then none
    else ((r.missing x.body i st (Tbl.get 0 r.next i)).head?.bind (fun j => x.body.steps[j]?)).map (·.peer)
  else none

/-- Start and stop the wait counters. -/
def State.colWatch (s : State) (k : Nat) : State :=
  match s.runOf k with
  | none => s
  | some (x, r) =>
    let since := (List.range x.body.steps.length).foldl (fun (t : Tbl Nat) i => match x.body.steps[i]? with
      | some st => if (s.waitsOn k x r i st).isSome then (if Tbl.has t i then t else Tbl.put t i s.now) else Tbl.del t i
      | none => t) r.since
    s.modRun k (fun r => { r with since := since })

/-- Everything an event of a plan lets its invocation do. -/
def State.colAdvance (s : State) (k : Nat) : State :=
  match s.runOf k with
  | none => s
  | some (x, _) => (s.colLoop k (4 * x.body.steps.length + 8)).colWatch k

/-- A step made progress: its wait counter restarts. -/
def State.progress (s : State) (k i : Nat) : State := s.modRun k (fun r => { r with since := Tbl.del r.since i })

/-! ### COLLECTIVE (R343, R344, R363) -/

/-- The sizes of R344: SEND_BUF, RECV_BUF, OVF_ADDR. `sum` is the data bytes of an ALL_TO_ALL. -/
def PlanBody.sizes (b : PlanBody) (sum : Nat) : Nat × Nat × Nat :=
  let c := b.ctl
  match b.kind with
  | 0 => (vecBytes c.inFmt b.count, vecBytes c.outFmt b.count, 0)
  | 1 => (vecBytes c.inFmt b.count, vecBytes c.outFmt b.ownLen, 0)
  | 2 => (vecBytes c.inFmt b.ownLen, vecBytes c.inFmt b.count, 0)
  | 3 => if b.self = b.root then (vecBytes c.inFmt b.count, 0, 0) else (0, vecBytes c.inFmt b.count, 0)
  | 4 => (0, 0, 0)
  | _ => (tabBytes b.members + sum, tabBytes b.members + b.members * b.pairBytes, 4 * b.members)

/-- The buffers of a COLLECTIVE; a size of 0 leaves its address out (R344). -/
def colRanges (d : Desc) (sz : Nat × Nat × Nat) : List Range :=
  [⟨d.w3.toNat, sz.1, 1, 0, needR⟩, ⟨d.w4.toNat, sz.2.1, 1, 0, needW⟩, ⟨d.w6.toNat, sz.2.2, 1, 0, needW⟩]

/-- Translate the buffers of a COLLECTIVE. -/
def State.colTranslate (s : State) (part : Nat) (d : Desc) (sz : Nat × Nat × Nat) : Xlated := s.xlate part (colRanges d sz)

/-- A COLLECTIVE refused at acceptance leaves its plan's queue and completes. -/
def State.refuseCol (s : State) (k c status : Nat) (data : Word := 0) (reason : Nat := 0) : State :=
  (s.modPlan k (fun x => { x with queue := x.queue.erase c })).finish c Ty.COLLECTIVE status 0 data reason

/-- The buffers are translated (R343): the COLLECTIVE waits for the plan's previous invocation, or completes with the fault, or with
HOST_LOST for a buffer behind a lost link (R134). -/
def State.colReady (s : State) (k c : Nat) (x : Rec) (sz : Nat × Nat × Nat) : State :=
  let s := s.walked x.part (colRanges x.desc sz)
  match s.colTranslate x.part x.desc sz with
  | .fault a reason => (s.countFault x.part).refuseCol k c Stat.TRANSLATION_FAULT (word a) reason
  | .ok ranges =>
    let src := ranges.getD 0 []
    let dst := ranges.getD 1 []
    let ovf := ranges.getD 2 []
    if (linksOf (src ++ dst ++ ovf)).any (fun l => (s.link l).lost) then s.refuseCol k c Stat.HOST_LOST
    else s.putRec c { x with
      phase := .waiting, src := src, dst := dst, xtra := ovf, links := linksOf (dst ++ ovf)
      ranges := ([(x.desc.w3.toNat, sz.1), (x.desc.w4.toNat, sz.2.1), (x.desc.w6.toNat, sz.2.2)]).filter (fun a => a.2 != 0) }

/-- The entries of a count table. -/
def tableCounts (n : Nat) (bs : List Byte) : List Nat := (List.range n).map (fun j => leNat (slice bs (4 * j) 4))

/-- The count table of an ALL_TO_ALL has been read (R363). -/
def State.gotColCounts (s : State) (c : Nat) (g : Got) : State :=
  match s.getRec c with
  | none => s
  | some x =>
    let k := bits x.desc.w2 0 14
    match s.plan k with
    | none => s
    | some y => match g with
      | .bad _ _ => s.colMemory k 65535
      | .bytes bs =>
        let ns := tableCounts y.body.members bs
        let x := { x with aux := ns }
        (s.putRec c x).colReady k c x (y.body.sizes ((ns.map (vecBytes y.body.ctl.inFmt)).foldl (· + ·) 0))

/-- The checks of R343 after the generation's, once the group is ACTIVE. -/
def State.colCheck (s : State) (k c : Nat) : State :=
  match s.getRec c, s.plan k with
  | some x, some y =>
    if (s.group y.group).state ≠ .active then s
    else if bits x.desc.w5 0 40 ≠ y.body.count then s.abortGroup y.group 1 y.body.self 65535
    else if y.body.kind = 5 then
      match s.xlate x.part [⟨x.desc.w3.toNat, tabBytes y.body.members, 1, 0, needR⟩] with
      | .fault a reason => (s.countFault x.part).refuseCol k c Stat.TRANSLATION_FAULT (word a) reason
      | .ok ranges =>
        let g := s.gather x.part (ranges.getD 0 []) (.colCounts c)
        match g.2 with
        | some b => g.1.gotColCounts c b
        | none => g.1
    else s.colReady k c x (y.body.sizes 0)
  | _, _ => s

/-- Whether a PLAN_UNLOAD of the plan has been fetched (R342). -/
def State.unloadFetched (s : State) (k part : Nat) : Bool :=
  s.qm.recs.any (fun e => isAdm e.2.queue && e.2.desc.op == Op.PLAN_UNLOAD && e.2.desc.part == part && bits e.2.desc.w2 0 14 == k)

/-- The body of COLLECTIVE (R343). -/
def State.collective (s : State) (c : Nat) (x : Rec) : State :=
  let d := x.desc
  let k := bits d.w2 0 14
  match s.plan k with
  | none => s.finish c Ty.COLLECTIVE Stat.PERMISSION_DENIED 0
  | some y =>
    let g := s.group y.group
    if y.part ≠ x.part ∨ y.state = .loading then s.finish c Ty.COLLECTIVE Stat.PERMISSION_DENIED 0
    else if y.state = .unloading ∨ s.unloadFetched k y.part ∨ bits d.w2 32 12 ≠ y.group then s.finish c Ty.COLLECTIVE Stat.BAD_STATE 0
    else if bits d.w2 48 16 ≠ g.gen then s.finish c Ty.COLLECTIVE Stat.GROUP_ABORTED 0 (abortData 8 4095 65535 g.gen)
    else ((s.putRec c { x with phase := .running }).modPlan k (fun y => { y with queue := y.queue ++ [c] })).colCheck k c

/-- COLLECTIVE (R343). -/
def execCollective (t r : Nat) (s : State) : Host.Outcome State Fault Refusal :=
  let s := s.at t
  match s.recReady r Op.COLLECTIVE with
  | some x => .next (s.collective r x)
  | none => .next s

/-! ### Invocations (R345, R354, R357, R362) -/

/-- A member's signature (R354). -/
def colSig (b : PlanBody) (d : Desc) : Word :=
  word (crc64 (wordBytes b.control ++ wordBytes (word (bits d.w5 0 40 + b.kind % 256 * 2 ^ 40)) ++ wordBytes (word (b.id % 2 ^ 32))
    ++ wordBytes (word (bits d.w2 48 16))))

/-- The waiting COLLECTIVEs of a plan whose records still stand. -/
def State.colQueue (s : State) (x : Plan) : List Nat := x.queue.filter (fun c => (s.getRec c).isSome)

/-- The bytes of a plan part (R329 to R335). -/
def PlanBody.bytes (b : PlanBody) : Nat :=
  128 + 8 * b.nodes.length + 136 * b.links.length + 8 * b.routes.length + 16 * b.slots.length + 48 * b.steps.length

/-- Start the next invocation of a plan (R345); its domains are woken first (R362). -/
def State.invoke (s : State) (k : Nat) : State :=
  match s.plan k with
  | none => s
  | some x =>
    match s.colQueue x with
    | [] => s
    | c :: cs => match s.getRec c with
      | none => s
      | some d =>
        if x.running || (s.group x.group).state != .active || d.phase != .waiting then s
        else
          let ds := s.colDoms k x (d.src ++ d.dst)
          if !s.ready ds then (if s.waiting.any (fun e => e.2 == Work.invoke k) then s else s.hold ds (.invoke k))
          else
            let s := ds.foldl State.touchDom (s.tableRead (s.readCopy (fun c => .planBody k 0 c)) x.body.bytes)
            let u := s.fresh
            let r : Run := { uid := u.1, recId := c, src := d.src, dst := d.dst, ovf := d.xtra, sig := colSig x.body d.desc, started := [], done := []
                             maps := [], met := [], grants := [], sent := [], strm := [], next := [], cur := [], written := [], asked := [], since := []
                             noticed := [], bytes := 0, drops := [], counts := d.aux, ended := false }
            let inv := (x.inv + 1) % 2 ^ 32
            let s := (u.2.setPlan k { x with
              inv := inv, run := some r, queue := cs, readys := x.readys.filter (fun e => e.1 == inv) }).putRec c { d with phase := .running }
            s.colAdvance k

/-- INVOCATION_START (R345). -/
def execInvocationStart (t k : Nat) (s : State) : Host.Outcome State Fault Refusal := .next ((s.at t).invoke k)

/-- INVOCATION_END (R345, R357, R364): every step has completed; the drop counts, then the COLLECTIVE entry. -/
def execInvocationEnd (t k : Nat) (s : State) : Host.Outcome State Fault Refusal :=
  let s := s.at t
  match s.runOf k with
  | none => .next s
  | some (x, r) =>
    if (List.range x.body.steps.length).all (fun i => r.done.contains i) then
      let n := x.body.members
      let drops : Nat := (r.drops.map (fun e => e.2)).foldl (· + ·) 0
      let s := if x.body.kind = 5 then s.writeResult x.part r.ovf ((List.range n).flatMap (fun j => leBytes 4 (min (Tbl.get 0 r.drops j) (2 ^ 32 - 1)))) else s
      let s := ((s.colIdles k x).modRun k (fun r => { r with ended := true })).count F.COL_COUNT_COUNT 0
      .next (s.endCol r.recId (if drops = 0 then Stat.SUCCESS else Stat.CAPACITY_EXCEEDED) r.bytes 0
        (word (x.inv % 2 ^ 32 * 2 ^ 32 + min drops (2 ^ 32 - 1))))
    else .next s

/-! ### Passes (R295, R296, R321, R322, R345, R356) -/

/-- Bytes [lo, lo + n) of what a RECV into STREAM has received. -/
def Run.streamBytes (r : Run) (i lo n : Nat) : List Byte :=
  let us := Tbl.get [] r.strm i
  let f := lo / 4096
  slice ((unitRange lo (lo + n)).flatMap (fun u => ((us.find? (fun e => e.1 == u)).map (·.2)).getD [])) (lo - 4096 * f) n

/-- The contribution of a stream to elements [a, a + n) of a transfer of len elements. -/
def Run.streamContrib (r : Run) (f i len a n : Nat) : List Byte × List Byte :=
  (r.streamBytes i (a * fmtBits f / 8) (elBytes f n), if isMx f then r.streamBytes i (elBytes f len + a / 32) (scBytes f n) else [])

/-- The extents of position c of a pass; none for a stream. -/
def State.passExts (s : State) (x : Plan) (r : Run) (i : Nat) (st : PStep) (p c : Nat) : Option (List Extent) :=
  let a := passElems * p
  let n := st.passLen p
  match x.body.passSrc i st c with
  | .own => some (s.spaceExts x r 0 0 (x.body.ranges 0 0 (st.elem + a) n))
  | .stream _ => none
  | .at off => some (s.spaceExts x r st.srcSpace st.srcSlot (x.body.ranges st.srcSpace st.srcSlot (off + a) n))

/-- Split gathered bytes into the contributions of a pass, position by position. -/
def splitContribs (f n : Nat) (streams : List (Option (List Byte × List Byte))) (bs : List Byte) : List (List Byte × List Byte) :=
  match streams with
  | [] => []
  | some c :: t => c :: splitContribs f n t bs
  | none :: t => (bs.take (elBytes f n), (bs.drop (elBytes f n)).take (scBytes f n)) :: splitContribs f n t (bs.drop (vecBytes f n))

/-- The contributions of a pass have been read; one that cannot be read aborts the group (R102, R322). -/
def State.gotColFold (s : State) (k uid i : Nat) (g : Got) : State :=
  match s.runOfUid k uid with
  | none => s
  | some (x, r) => match x.body.steps[i]?, Tbl.find r.cur i, g with
    | some _, some _, .bad _ _ => s.colMemory k i
    | some st, some p, .bytes bs =>
      let f := x.body.ctl.inFmt
      let a := passElems * p.idx
      let streams := (List.range st.ncontrib).map (fun c => match x.body.passSrc i st c with
        | .stream j => some (r.streamContrib f j ((x.body.steps[j]?.map (·.len)).getD 0) a (st.passLen p.idx))
        | _ => none)
      s.modRun k (fun r => { r with cur := Tbl.put r.cur i { p with contribs := some (splitContribs f (st.passLen p.idx) streams bs) } })
    | _, _, _ => s

/-- The streams that feed a REDUCE. -/
def PlanBody.streamsOf (b : PlanBody) (i : Nat) : List Nat := (List.range b.steps.length).filter (fun j => match b.steps[j]? with
  | some y => y.toStream && y.aux == i
  | none => false)

/-- Whether every byte of the next pass of a REDUCE is present, and none is in progress. -/
def Run.passReady (r : Run) (b : PlanBody) (i : Nat) (st : PStep) : Bool :=
  let p := Tbl.get 0 r.next i
  st.op == 3 && r.started.contains i && decide (p < st.passes) && !Tbl.has r.cur i && r.missing b i st p == []

/-- Whether a pass is ready for a logical array. -/
def Plan.readyOn (x : Plan) (m : Nat) : Bool :=
  match x.run with
  | none => false
  | some r => (List.range x.body.steps.length).any (fun i => match x.body.steps[i]? with
    | some st => x.arrays[st.aux]? == some m && r.passReady x.body i st
    | none => false)

/-- Whether the array of a REDUCE can take a pass now: it is there and its group is ON (R323), no pass is in progress on its physical array, and
where that serves two logical arrays it is not the other's turn (R294). -/
def State.arrayFree (s : State) (l : Nat) : Bool :=
  match s.physArray l with
  | none => false
  | some a =>
    (s.dom (arrayDom (l / 32))).state == .on && !s.col.plans.any (fun e => e.2.busyArrays.any (fun m => s.physArray m == some a))
      && !(Tbl.find s.arr.turn a == some l && (s.sharedWith l).any (fun m => s.col.plans.any (fun e => e.2.readyOn m)))

/-- PASS_BEGIN (R345): every byte of the next pass of step i is present; the array takes its contributions, and the streams are granted
the pass after it. -/
def execPassBegin (t k i : Nat) (hits : List EccHit) (s : State) : Host.Outcome State Fault Refusal :=
  let s := (s.at t).struck hits
  match s.runOf k with
  | none => .next s
  | some (x, r) => match x.body.steps[i]? with
    | none => .next s
    | some st =>
      let p := Tbl.get 0 r.next i
      let l := (x.arrays[st.aux]?).getD 0
      if r.passReady x.body i st && s.arrayFree l then
        let s := { s with arr := { s.arr with turn := Tbl.put s.arr.turn ((s.physArray l).getD 0) l } }
        let s := s.modRun k (fun r => { r with cur := Tbl.put r.cur i ⟨p, none⟩, next := Tbl.put r.next i (p + 1), since := Tbl.del r.since i })
        let s := if p + 1 < st.passes then (x.body.streamsOf i).foldl (fun s j => s.sendReady k j (p + 1)) s else s
        let es := ((List.range st.ncontrib).filterMap (fun c => s.passExts x r i st p c)).flatten
        let g := s.gather x.part es (.colFold k r.uid i)
        .next ((match g.2 with
          | some b => g.1.gotColFold k r.uid i b
          | none => g.1).colWatch k)
      else .next s

/-- The working physical arrays of a group that serve no logical array. -/
def State.sparesOf (s : State) (g : Nat) : List Nat :=
  (List.range' (34 * g) 34).filter (fun a => !s.arr.failed.contains a && !s.arr.amap.any (fun e => e.2 == a + 1))

/-- Serve a logical array that lost its physical one: on a spare of its group, else doubled with the lowest array of the group that
serves alone (R294, R321). (log entry 71) -/
def State.replaceArray (s : State) (l : Nat) : State :=
  let g := l / 32
  let put (a : Option Nat) : State := { s with arr := { s.arr with amap := Tbl.set 0 s.arr.amap l ((a.map (· + 1)).getD 0) } }
  if !s.groupServes g then put none
  else match s.sparesOf g with
    | a :: _ => put (some a)
    | [] => put (((List.range' (32 * g) 32).find? (fun m => m != l && (s.physArray m).isSome && (s.sharedWith m).isNone)).bind s.physArray)

/-- Mark a physical array failed (R321 steps 4 and 5). -/
def State.arrayFailed (s : State) (a : Nat) : State :=
  let ls := (s.arr.amap.filter (fun e => e.2 == a + 1)).map (·.1)
  let s := { s with arr := { s.arr with failed := s.arr.failed ++ [a], amap := ls.foldl Tbl.del s.arr.amap } }
  if s.groupServes (a / 34) then ls.foldl State.replaceArray s
  else { s with arr := { s.arr with amap := s.arr.amap.filter (fun e => e.1 / 32 != a / 34) } }

/-- An array fault during a pass of step i (R321). KIND 1 residue mismatch, 2 bank parity. -/
def State.arrayFault (s : State) (i kind : Nat) (x : Plan) (st : PStep) : State :=
  let l := (x.arrays[st.aux]?).getD 0
  let a := (s.physArray l).getD 1023
  let s := s.abortGroup x.group 6 x.body.self i
  let s := (s.setReg .ARR_FAULT_LOG 0 0 (word (2 ^ 63 + x.group % 4096 * 2 ^ 32 + a % 1024 * 2 ^ 16 + l % 512 * 16 + kind % 16))).count F.ARR_COUNT_COUNT 6
  let s := (s.faultL 3 0x30 a (s.reg .ARR_FAULT_LOG).toNat 0).ledgerAdd 0x04 a 3 kind
  s.arrayFailed a

/-- The results of a pass are counted and written (R315, R325, R356). -/
def State.passOut (s : State) (k i : Nat) (x : Plan) (r : Run) (st : PStep) (p : Pass) (cs : List (List Byte × List Byte)) : State :=
  let b := x.body
  let c := b.ctl
  let n := st.passLen p.idx
  let o := reducePass b.control b.seed (st.elem + passElems * p.idx) n cs
  let s := s.count F.ARR_COUNT_COUNT (if c.native then 1 else 0) 0 n
  let s := ((s.count F.ARR_COUNT_COUNT 2 0 o.nans).count F.ARR_COUNT_COUNT 3 0 o.ovfs).count F.ARR_COUNT_COUNT 4 0 o.ffs
  let bytes := packCodes c.outFmt o.codes ++ o.scales.map (BitVec.ofNat 8)
  let s := s.modRun k (fun r => { r with cur := Tbl.del r.cur i })
  s.colPlace k i x.part (s.spaceExts x r st.dstSpace st.dstSlot (b.ranges st.dstSpace st.dstSlot (st.dstOff + passElems * p.idx) n)) bytes
    (.colWrite k r.uid i [p.idx])

/-- PASS_END (R295): the last contribution is added, the banks swap, the result is rounded and emitted. `fault` the KIND of an array
fault found, 0 for none (R321). -/
def execPassEnd (t k i fault : Nat) (s : State) : Host.Outcome State Fault Refusal :=
  let s := s.at t
  match s.runOf k with
  | none => .next s
  | some (x, r) => match x.body.steps[i]?, Tbl.find r.cur i with
    | some st, some p => match p.contribs with
      | none => .next s
      | some cs => .next (if fault = 1 ∨ fault = 2 then s.arrayFault i fault x st else ((s.event 0x40 ((x.arrays[st.aux]?).getD 0 / 32) 1).passOut k i x r st p cs).colAdvance k)
    | _, _ => .next s

/-! ### Placements that met R26 -/

/-- A collective packet's bytes are placed: its map unit counts, and it is acknowledged. -/
def State.metColData (s : State) (k uid i u : Nat) (p : Packet) : State :=
  let s := s.ackTo p.src p.msgId [p.psn] p.ts p.cm
  match s.runOfUid k uid with
  | none => s
  | some (x, _) =>
    let toRecv := match x.body.steps[i]? with
      | some st => st.op == 7 || (st.op == 2 && st.dstSpace == 1)
      | none => false
    (s.modRun k (fun r => { r with
      met := Tbl.put r.met i (Tbl.get [] r.met i ++ [u]), bytes := if toRecv then r.bytes + p.plen else r.bytes
      since := Tbl.del r.since i })).colAdvance k

/-- A step's own write is placed. `n` its bytes. -/
def State.metColWrite (s : State) (k uid i : Nat) (us : List Nat) (n : Nat) : State :=
  match s.runOfUid k uid with
  | none => s
  | some (x, _) =>
    let toRecv := match x.body.steps[i]? with
      | some st => st.op == 6 || st.op == 7 || st.dstSpace == 1
      | none => false
    (s.modRun k (fun r => { r with
      written := Tbl.put r.written i (Tbl.get [] r.written i ++ us), bytes := if toRecv then r.bytes + n else r.bytes
      since := Tbl.del r.since i })).colAdvance k

/-! ### Arriving collective packets (R349, R352) -/


/-- The form of a COL_DATA (R189, R349). -/
def colFormOk (p : Packet) : Bool :=
  onlyFields p.w5 [(16, 48)] && p.pshift == 12 && !p.beacon && decide (p.ckind ≤ 2) && decide (p.plen ≤ 4096)
    && (if p.ckind = 0 then p.cause == 0 && p.colOff % 4096 == 0 else p.plen == 0 && p.w6 == 0)
    && (p.ckind != 1 || (p.cause == 0 && p.colSent == 0)) && (p.ckind != 2 || (onlyFields p.w4 [(0, 28)] && p.colStep == 65535))

/-- Discard and count (R351, R352). -/
def State.colDrop (s : State) : State := s.count F.COL_COUNT_COUNT 2

/-- Whether a step is a RECV of a member (R352). -/
def PStep.recvOf (x : PStep) (m : Nat) : Bool := (x.op == 2 || x.op == 7) && x.peer == m

/-- Where the bytes of a DATA packet for a step land. -/
def State.colParts (s : State) (x : Plan) (r : Run) (st : PStep) (p : Packet) (bs : List Byte) : List (Nat × List Byte) :=
  layOut (cutExt (s.spaceExts x r (if st.op = 7 then 1 else st.dstSpace) st.dstSlot (x.body.dstRanges st)) p.colOff p.plen) bs

/-- A DATA packet whose CRC-64 alone fails: the memory it would be placed in holds undefined bytes (R27). -/
def State.colSpoil (s : State) (p : Packet) (x : Plan) : State :=
  match x.run, x.body.steps[p.colStep]? with
  | some r, some st =>
    if p.ckind = 0 ∧ p.colGen = (s.group x.group).gen ∧ p.inv = x.inv ∧ st.recvOf p.origin ∧ r.started.contains p.colStep ∧ p.w6 = r.sig
        ∧ ¬ (Tbl.get [] r.maps p.colStep).contains (p.colOff / 4096) ∧ p.colOff + p.plen ≤ Tbl.get 0 r.grants p.colStep ∧ ¬ r.ended
        ∧ ¬ st.toStream ∧ (p.enc ∨ ¬ (s.part x.part).fabricEnc) then
      s.undefine x.part (s.colParts x r st p p.pay)
    else s
  | _, _ => s

/-- The tests of R189, R190 and R352 up to the plan: its slot, the plan, and the payload in plain. -/
def State.colAdmit (s : State) (p : Packet) (ckind : Nat) (aes : Option AesHit) : State × Option (Nat × Plan × List Byte) :=
  let a := s.packetIn p Pk.COL_DATA
  if !a.1 then (a.2, none)
  else if p.ver ≠ 1 then (a.2.nakVersion p, none)
  else if !colFormOk p || p.ckind != ckind then (a.2.count F.TRN_COUNT_COUNT 7, none)
  else
    let s := a.2
    match s.planById p.planId with
    | none => (if !p.enc && p.w7 != word (p.crc p.pay) then s.count F.TRN_COUNT_COUNT 0 else s.colDrop, none)
    | some (k, x) =>
      match gcmHit aes p with
      | some h => (s.coreMiss h.core 2 x.part, none)
      | none =>
        let s := s.countOpen x.part p
        match s.openPacket x.part p with
        | .noKey => (s.colDrop, none)
        | .forged => (s.count F.TRN_COUNT_COUNT 0, none)
        | .bad => ((s.count F.TRN_COUNT_COUNT 0).colSpoil p x, none)
        | .ok plain => if (s.part x.part).fabricEnc && !p.enc then (s.colDrop, none) else (s, some (k, x, plain))

/-- A copy of a packet already placed: acknowledged and counted. (log entry 65) -/
def State.colAgain (s : State) (p : Packet) : State := (s.ackTo p.src p.msgId [p.psn] p.ts p.cm).count F.COL_COUNT_COUNT 3

/-- Whether a packet is of the invocation before the plan's latest, all of whose steps were completed (R345, R352). -/
def Plan.ended (x : Plan) (p : Packet) : Bool :=
  x.run.isSome && x.inv != 1 && p.inv == (x.inv + 2 ^ 32 - 1) % 2 ^ 32 && decide (p.colStep < x.body.steps.length)

/-- The end of R352 for a DATA packet of the invocation in progress or just ended. -/
def State.colTake (s : State) (p : Packet) (k : Nat) (x : Plan) (r : Run) (plain : List Byte) : State :=
  let i := p.colStep
  let u := p.colOff / 4096
  match x.body.steps[i]? with
  | none => s.colDrop
  | some st =>
    if !st.recvOf p.origin || !r.started.contains i then s.colDrop
    else if p.w6 ≠ r.sig then s.abortGroup x.group 1 p.origin i
    else if (Tbl.get [] r.maps i).contains u then
      (if (Tbl.get [] r.met i).contains u then s.colAgain p else s.count F.COL_COUNT_COUNT 3)
    else if Tbl.get 0 r.grants i < p.colOff + p.plen ∨ r.ended then s.colDrop
    else
      let parts := s.colParts x r st p plain
      let s := s.checkedParts parts
      if (s.partsPoison parts).isSome then s.colMemory k i
      else
        let s := s.modRun k (fun r => { r with
          maps := Tbl.put r.maps i (Tbl.get [] r.maps i ++ [u])
          sent := if st.op = 7 then Tbl.put r.sent i p.colSent else r.sent
          strm := if st.toStream then Tbl.put r.strm i (Tbl.get [] r.strm i ++ [(u, plain)]) else r.strm })
        if st.toStream ∨ p.plen = 0 then s.metColData k r.uid i u p else s.place x.part parts none (.colData k r.uid i u p)

/-- An arriving DATA packet (R352). -/
def State.colData (s : State) (p : Packet) (aes : Option AesHit) : State :=
  let a := s.colAdmit p 0 aes
  match a.2 with
  | none => a.1
  | some (k, x, plain) =>
    let s := a.1
    if p.colGen ≠ (s.group x.group).gen then s.colDrop
    else if x.ended p then s.colAgain p
    else if p.inv ≠ x.inv then s.colDrop
    else match x.run with
      | none => s.colDrop
      | some r => s.colTake p k x r plain

/-- COL_DATA (R352). `aes` a mismatch while the packet was decrypted (R463). -/
def execColData (t : Nat) (p : Packet) (aes : Option AesHit) (s : State) : Host.Outcome State Fault Refusal := .next ((s.at t).colData p aes)

/-- The own step that a READY of a member for its step r grants. -/
def PlanBody.sendFor (b : PlanBody) (member r : Nat) : Option Nat := firstIdx (fun i => match b.steps[i]? with
  | some st => (st.op == 1 || st.op == 6) && st.peer == member && st.aux == r
  | none => false) b.steps.length 0

/-- An arriving READY (R347, R352). -/
def State.colReadyIn (s : State) (p : Packet) (aes : Option AesHit) : State :=
  let a := s.colAdmit p 1 aes
  match a.2 with
  | none => a.1
  | some (k, x, _) =>
    let s := a.1
    if p.colGen ≠ (s.group x.group).gen then s.colDrop
    else if x.ended p then s.colAgain p
    else if p.inv = x.inv ∨ p.inv = (x.inv + 1) % 2 ^ 32 then
      let s := match x.body.sendFor p.origin p.colStep with
        | some i =>
          if x.readys.any (fun e => e.1 == p.inv && e.2.1 == i && decide (p.colOff ≤ e.2.2)) then s
          else
            let s := s.setPlan k { x with readys := x.readys ++ [(p.inv, i, p.colOff)] }
            if p.inv = x.inv then s.progress k i else s
        | none => s
      (s.ackTo p.src p.msgId [p.psn] p.ts p.cm).colAdvance k
    else s.colDrop

/-- COL_READY (R346). -/
def execColReady (t : Nat) (p : Packet) (aes : Option AesHit) (s : State) : Host.Outcome State Fault Refusal := .next ((s.at t).colReadyIn p aes)

/-- An arriving ABORT (R352, R360): acknowledged; one of the current generation aborts the group. -/
def State.colAbortIn (s : State) (p : Packet) (aes : Option AesHit) : State :=
  let a := s.colAdmit p 2 aes
  match a.2 with
  | none => a.1
  | some (_, x, _) =>
    let s := (a.1.count F.COL_COUNT_COUNT 7).ackTo p.src p.msgId [p.psn] p.ts p.cm
    if p.colGen = (s.group x.group).gen then s.abortGroup x.group p.cause (bits p.w4 0 12) (bits p.w4 12 16) else s

/-- COL_ABORT (R360). -/
def execColAbort (t : Nat) (p : Packet) (aes : Option AesHit) (s : State) : Host.Outcome State Fault Refusal := .next ((s.at t).colAbortIn p aes)

/-- ACK (R195, R198, R230): a message's packets are placed; the SEND of a collective may complete (R336). -/
def execAck (t : Nat) (p : Packet) (s : State) : Host.Outcome State Fault Refusal :=
  let s := s.at t
  match s.msg p.msgId with
  | none => .next (s.gotAck p)
  | some m => .next (if m.kind = MsgKind.col then ((s.gotAck p).progress m.plan m.step).colAdvance m.plan else s.gotAck p)

/-! ### Timers and the abort commands (R358, R360, R327) -/

/-- When a step of a run began to wait, and on whom. -/
def State.lagOf (s : State) (k i : Nat) : Option (Plan × Run × Nat × Nat) :=
  match s.runOf k with
  | none => none
  | some (x, r) => match x.body.steps[i]?, Tbl.find r.since i with
    | some st, some t0 => (s.waitsOn k x r i st).map (fun m => (x, r, t0, m))
    | _, _ => none

/-- LAG_LIMIT_TIMER (R358): one NOTICE for a step in an invocation. -/
def execLagLimitTimer (t k i : Nat) (s : State) : Host.Outcome State Fault Refusal :=
  let s := s.at t
  match s.lagOf k i with
  | none => .next s
  | some (x, r, t0, m) =>
    if t0 + x.body.lag * 1000 ≤ s.now ∧ ¬ r.noticed.contains i then
      let s := (s.modRun k (fun r => { r with noticed := r.noticed ++ [i] })).count F.COL_COUNT_COUNT 4
      .next (match s.getRec r.recId with
        | none => s
        | some c =>
          let e := { c.entry Ty.NOTICE 0 with
            status := Stat.LAGGING, reason := 0, node := x.body.nodes.getD m 0
            data := word (x.inv % 2 ^ 32 * 2 ^ 32 + m % 4096 * 2 ^ 20 + i % 65536 * 16) }
          s.ringPut (s.queueRing c.queue c.rq) e)
    else .next s

/-- ABORT_AFTER_TIMER (R358): the group aborts with cause POLICY. -/
def execAbortAfterTimer (t k i : Nat) (s : State) : Host.Outcome State Fault Refusal :=
  let s := s.at t
  match s.lagOf k i with
  | none => .next s
  | some (x, _, t0, m) => .next (if x.body.abort ≠ 0 ∧ t0 + x.body.abort * 1000 ≤ s.now then s.abortGroup x.group 2 m i else s)

/-- The body of GROUP_ABORT (R361, R367). (log entry 66) -/
def State.groupAbort (s : State) (r : Nat) (x : Rec) : State :=
  let g := bits x.desc.w2 0 12
  if s.groupFor x ≠ Stat.SUCCESS then s.admEnd r (s.groupFor x)
  else if (s.group g).state ≠ .active ∨ s.plansOf g = [] then s.admEnd r Stat.BAD_STATE
  else
    let s := s.abortGroup g 4 4095 65535
    s.admEnd r Stat.SUCCESS (s.group g).gen

/-- GROUP_ABORT. -/
def execGroupAbort (t r : Nat) (s : State) : Host.Outcome State Fault Refusal :=
  .next ((s.at t).admRun r Op.GROUP_ABORT (fun s x => s.groupAbort r x))

/-- Whether writes of a plan's invocations are still on their way to memory. -/
def State.colPlacing (s : State) (k : Nat) : Bool :=
  s.io.places.any (fun e => match e.2.why with
    | .colData j _ _ _ _ => j == k
    | .colWrite j _ _ _ => j == k
    | _ => false)

/-- GROUP_ABORT_END (R327, R360 step 5): every invocation has ended; the group returns to ACTIVE with each plan's INV at 0, and the
COLLECTIVEs that waited for it are checked (R366). -/
def execGroupAbortEnd (t g : Nat) (s : State) : Host.Outcome State Fault Refusal :=
  let s := s.at t
  let ks := (s.plansOf g).map (·.1)
  if (s.group g).state = .aborting ∧ ks.all (fun k => !s.colPlacing k && !((s.plan k).any (·.running))) then
    let s := s.setGroup g { s.group g with state := .active }
    let s := ks.foldl (fun s k => s.modPlan k (fun x => { x with inv := 0, run := none })) s
    .next (ks.foldl (fun s k => match s.plan k with
      | some x => x.queue.foldl (fun s c => s.colCheck k c) s
      | none => s) s)
  else .next s

end Sys2Proof.Machine
end

