-- ==== Sys2Proof/Machine/Ethernet.lean ====
section
/-!
DEFINITION. Ethernet ports (R369 to R396, spec/11_ethernet_ports.md): frames and checksums, sends, receive filters, Kilpin Transport in
UDP, priority flow control, transmit gates, link changes and the wake detector.
-/
namespace Sys2Proof.Machine

def State.setEthPort (s : State) (e : Nat) (x : EthPort) : State := { s with eth := Tbl.set EthPort.down s.eth e x }
def State.modEthPort (s : State) (e : Nat) (f : EthPort → EthPort) : State := s.setEthPort e (f (s.ethPort e))

/-- Count an ETH_COUNT event of a port (R396). -/
def State.ethCount (s : State) (e i : Nat) : State := s.count F.ETH_COUNT_COUNT e i

/-- Bytes per ns of a port (R369, R370). -/
def State.ethRate (s : State) (e : Nat) : Nat := if s.fld F.ETH_PORT_CFG_SPEED e = 1 then 50 else 100

/-- ETH_MAC entry 0 of a port. -/
def State.ownMac (s : State) (e : Nat) : Nat := s.fld F.ETH_MAC_ADDR e 0

/-! ### Frames (R371, R374) -/

def be16 (bs : List Byte) (o : Nat) : Nat := beNat (slice bs o 2)

/-- Whether a frame is tagged, its TCI, its EtherType, and the offset after it. -/
def frameTagged (bs : List Byte) : Bool := be16 bs 12 == 0x8100
def frameTci (bs : List Byte) : Nat := if frameTagged bs then be16 bs 14 else 0
def frameL3 (bs : List Byte) : Nat := if frameTagged bs then 18 else 14
def frameType (bs : List Byte) : Nat := be16 bs (frameL3 bs - 2)

/-- The frame check sequence. -/
def fcsOf (bs : List Byte) : List Byte := leBytes 4 (crc32 bs)
def fcsOk (bs : List Byte) : Bool := fcsOf (bs.take (bs.length - 4)) == bs.drop (bs.length - 4)

/-- Append the FCS, after padding to 60 bytes (R374). -/
def closeFrame (bs : List Byte) : List Byte :=
  let b := bs ++ List.replicate (60 - bs.length) 0
  b ++ fcsOf b

/-- End a frame with an inverted FCS (R392). -/
def badFcs (f : List Byte) : List Byte := f.take (f.length - 4) ++ (f.drop (f.length - 4)).map (fun b => ~~~b)

/-- Insert a tag after the source address. -/
def addTag (tci : Nat) (bs : List Byte) : List Byte := bs.take 12 ++ beBytes 2 0x8100 ++ beBytes 2 tci ++ bs.drop 12

/-- The ones' complement sum of 16-bit words, and the checksum. -/
def sum16 : List Byte → Nat
  | [] => 0
  | [a] => a.toNat * 256
  | a :: b :: t => a.toNat * 256 + b.toNat + sum16 t

def checksum (bs : List Byte) : Nat :=
  let f (n : Nat) : Nat := n % 65536 + n / 65536
  65535 - f (f (f (sum16 bs)))

/-- Replace the bytes at an offset. -/
def patch (bs : List Byte) (o : Nat) (v : List Byte) : List Byte := bs.take o ++ v ++ bs.drop (o + v.length)

/-- The Internet form of a frame without FCS that the offloads act on (R374): IP version, offset of the IP header and of the TCP or UDP
header, 6 TCP or 17 UDP (0 another), and the end of the packet. -/
structure IpForm where
  v6  : Bool
  l3  : Nat
  l4  : Nat
  pro : Nat
  top : Nat
  deriving DecidableEq, Repr

def ipForm (bs : List Byte) : Option IpForm :=
  let l3 := frameL3 bs
  let b (o : Nat) : Nat := (bs.getD o 0).toNat
  if frameType bs = 0x0800 ∧ b l3 / 16 = 4 ∧ 5 ≤ b l3 % 16 ∧ l3 + 20 ≤ bs.length then
    let pro := if be16 bs (l3 + 6) % 16384 = 0 then b (l3 + 9) else 0
    some ⟨false, l3, l3 + 4 * (b l3 % 16), if pro = 6 ∨ pro = 17 then pro else 0, min bs.length (l3 + be16 bs (l3 + 2))⟩
  else if frameType bs = 0x86DD ∧ b l3 / 16 = 6 ∧ l3 + 40 ≤ bs.length then
    let pro := b (l3 + 6)
    some ⟨true, l3, l3 + 40, if pro = 6 ∨ pro = 17 then pro else 0, min bs.length (l3 + 40 + be16 bs (l3 + 4))⟩
  else none

/-- The pseudo-header of a form. -/
def pseudo (bs : List Byte) (f : IpForm) : List Byte :=
  if f.v6 then slice bs (f.l3 + 8) 32 ++ beBytes 4 (f.top - f.l4) ++ [0, 0, 0, BitVec.ofNat 8 f.pro]
  else slice bs (f.l3 + 12) 8 ++ [0, BitVec.ofNat 8 f.pro] ++ beBytes 2 (f.top - f.l4)

/-- The offset of the TCP or UDP checksum. -/
def IpForm.sumAt (f : IpForm) : Nat := f.l4 + (if f.pro = 6 then 16 else 6)

/-- Set the IPv4 header checksum. -/
def setIp4 (bs : List Byte) (f : IpForm) : List Byte :=
  let z := patch bs (f.l3 + 10) [0, 0]
  patch z (f.l3 + 10) (beBytes 2 (checksum (slice z f.l3 (f.l4 - f.l3))))

/-- Set the TCP or UDP checksum; a UDP checksum of 0 is sent as 0xFFFF. -/
def setL4 (bs : List Byte) (f : IpForm) : List Byte :=
  let z := patch bs f.sumAt [0, 0]
  let c := checksum (pseudo z f ++ slice z f.l4 (f.top - f.l4))
  patch z f.sumAt (beBytes 2 (if f.pro = 17 ∧ c = 0 then 65535 else c))

/-- The offloads of ETH_SEND: the frame, and whether a flag could not be applied (R374). -/
def offload (ip4 l4 : Bool) (bs : List Byte) : List Byte × Bool :=
  match ipForm bs with
  | none => (bs, ip4 || l4)
  | some f =>
    let a := if ip4 && !f.v6 then setIp4 bs f else bs
    let b := if l4 && f.pro != 0 then setL4 a f else a
    (b, (ip4 && f.v6) || (l4 && f.pro == 0))

/-! ### The fields of Ethernet descriptors (R372) -/

def insTag (d : Desc) : Bool := if d.op = Op.ETH_SEND then bit d.w3 47 else bit d.w5 37
def sendTci (d : Desc) : Nat := if d.op = Op.ETH_SEND then bits d.w3 48 16 else bits d.w6 0 16
def hdrLen (d : Desc) : Nat := bits d.w5 56 8
def segL3 (d : Desc) : Nat := bits d.w5 48 8
def segL4 (d : Desc) : Nat := bits d.w5 40 8
def segV6 (d : Desc) : Bool := bit d.w5 39
def segUdp (d : Desc) : Bool := bit d.w5 38
def segMss (d : Desc) : Nat := bits d.w5 0 16

/-- Form and ranges of an Ethernet descriptor (R170, R372). -/
def ethWellFormed (d : Desc) : Bool :=
  let tag := b2n (insTag d) * 4
  onlyFields d.w0 [(32, 32), (24, 8)] && d.w7 == 0 && onlyFields d.w4 [(0, 32)] &&
  (if d.op = Op.ETH_SEND then
     onlyFields d.w3 [(45, 19)] && d.w5 == 0 && d.w6 == 0 && decide (14 ≤ d.len) && decide (d.len + tag ≤ 9212)
   else if d.op = Op.ETH_RECV then d.w3 == 0 && d.w5 == 0 && d.w6 == 0 && decide (64 ≤ d.len) && decide (d.len ≤ 9216)
   else if d.op = Op.ETH_SEGMENT then
     onlyFields d.w5 [(37, 27), (0, 16)] && onlyFields d.w6 [(0, 16)] && decide (1 ≤ d.len) && decide (d.len ≤ 4194304)
       && (segL3 d == 14 || segL3 d == 18) && decide (segL3 d + (if segV6 d then 40 else 20) ≤ segL4 d)
       && decide (segL4 d + (if segUdp d then 8 else 20) ≤ hdrLen d) && decide (64 ≤ segMss d) && decide (hdrLen d + segMss d + tag ≤ 9212)
   else false)

/-- Segment k of n of an ETH_SEGMENT, without tag and FCS (R377). -/
def segment (d : Desc) (hdr pay : List Byte) (k n : Nat) : List Byte :=
  let seg := slice pay (k * segMss d) (segMss d)
  let l3 := segL3 d
  let l4 := segL4 d
  let b := hdr
  let b := if segV6 d then patch b (l3 + 4) (beBytes 2 (hdrLen d - l3 - 40 + seg.length))
    else patch (patch b (l3 + 2) (beBytes 2 (hdrLen d - l3 + seg.length))) (l3 + 4) (beBytes 2 (be16 b (l3 + 4) + k))
  let b := if segUdp d then patch b (l4 + 4) (beBytes 2 (hdrLen d - l4 + seg.length))
    else
      let b := patch b (l4 + 4) (beBytes 4 (beNat (slice hdr (l4 + 4) 4) + k * segMss d))
      let fl := (b.getD (l4 + 13) 0).toNat
      let fl := if k + 1 = n then fl else fl - fl % 2 - fl / 8 % 2 * 8
      let fl := if k = 0 then fl else fl - fl / 128 % 2 * 128
      patch b (l4 + 13) [BitVec.ofNat 8 fl]
  let f : IpForm := ⟨segV6 d, l3, l4, if segUdp d then 17 else 6, hdrLen d + seg.length⟩
  let b := if segV6 d then b else setIp4 b f
  setL4 (b ++ seg) f

/-- The frames of a descriptor, without FCS, and whether an offload was not applied. -/
def framesOf (d : Desc) (bs : List Byte) : List (List Byte) × Bool :=
  let tag (b : List Byte) : List Byte := if insTag d then addTag (sendTci d) b else b
  if d.op = Op.ETH_SEND then
    let o := offload (bit d.w3 46) (bit d.w3 45) (tag bs)
    ([o.1], o.2)
  else
    let n := ceilDiv d.len (segMss d)
    ((List.range n).map (fun k => tag (segment d (bs.take (hdrLen d)) (bs.drop (hdrLen d)) k n)), false)

/-! ### Sending (R375, R376, R385) -/

/-- The committed filter entries of a partition on a port. -/
def State.filtersOf (s : State) (e p : Nat) : List (Nat × Word × Word) :=
  ((s.ethPort e).filters.filter (fun f => bit f.2.1 63 && bits f.2.1 56 6 == p)).map (fun f => (f.1, f.2.1, f.2.2))

/-- Whether partition p may send a frame on port e (R375). -/
def State.maySend (s : State) (e p : Nat) (frame : List Byte) : Bool :=
  p == 0 ||
  ((List.range 64).any (fun m => s.flag F.ETH_MAC_VALID e m && s.fld F.ETH_MAC_OWNER e m == p && s.fld F.ETH_MAC_ADDR e m == beNat (slice frame 6 6))
    && (s.filtersOf e p).any (fun f =>
      if frameTagged frame then bits f.2.1 46 2 == 2 && bits f.2.1 34 12 == frameTci frame % 4096 else bits f.2.1 46 2 ≤ 1))

/-- The priority of a frame (R385). -/
def State.prioOf (s : State) (e : Nat) (frame : List Byte) : Nat :=
  if frameTagged frame then frameTci frame / 8192 else s.fld F.ETH_PORT_CFG_DEFAULT_PCP e

/-- Put a frame on a port's output list of a scheduler queue; lists are kept by priority (R385). -/
def State.queueFrame (s : State) (e q : Nat) (k : SwPkt) : State :=
  let o := s.out (128 + e)
  let i := q * 16 + k.vc
  s.setOut (128 + e) { o with lists := Tbl.set [] o.lists i (Tbl.get [] o.lists i ++ [k]) }

/-- Frame i of a send, closed, as it waits at its port. -/
def State.ethPkt (s : State) (e r i : Nat) (x : Rec) (b : List Byte) : SwPkt :=
  let f := closeFrame b
  { SwPkt.ofPacket Packet.zero 0 s.now (f.length + s.fld F.SCH_ETH_OVERHEAD_OVERHEAD) with
    frame := f, vc := s.prioOf e f, recId := some r, part := x.part, queue := some (s.qp x.queue).schQueue, psn := i }

/-- The bytes of a send have come (R374 to R377): its frames are queued, or it is refused. -/
def State.gotEthFrame (s : State) (r : Nat) (g : Got) : State :=
  match s.getRec r with
  | none => s
  | some x =>
    let q := s.qp x.queue
    let e := q.ethPort.getD 0
    match g with
    | .bad st d => s.finish r Ty.DONE st 0 (word d)
    | .bytes bs =>
      let fs := framesOf x.desc bs
      if !(fs.1.head?.all (s.maySend e x.part)) then (s.ethCount e 6).finish r Ty.DONE Stat.PERMISSION_DENIED 0
      else if !(s.ethPort e).up then s.finish r Ty.DONE Stat.DEST_UNREACHABLE 0
      else
        let s := if fs.2 then s.ethCount e 8 else s
        let s := s.putRec r { x with left := fs.1.length, started := true }
        (List.zipIdx fs.1).foldl (fun s b => s.queueFrame e q.schQueue (s.ethPkt e r b.2 x b.1)) s

/-- Take the frames of a descriptor out of a port's lists. -/
def State.dropFrames (s : State) (e r : Nat) : State :=
  s.setOut (128 + e) { s.out (128 + e) with
    lists := Tbl.map (fun _ l => l.filter (fun y => y.recId != some r)) (s.out (128 + e)).lists }

/-- The source has been read again for frame i, whose check failed: it is sent once more, ahead of the frames that wait (R392). -/
def State.gotEthAgain (s : State) (r i : Nat) (g : Got) : State :=
  match s.getRec r with
  | none => s
  | some x =>
    let q := s.qp x.queue
    let e := q.ethPort.getD 0
    match g with
    | .bad st d => (s.dropFrames e r).finish r Ty.DONE st 0 (word d)
    | .bytes bs =>
      if !(s.ethPort e).up then s.finish r Ty.DONE Stat.DEST_UNREACHABLE 0
      else match (framesOf x.desc bs).1[i]? with
        | none => s
        | some b =>
          let k := s.ethPkt e r i x b
          let o := s.out (128 + e)
          let l := q.schQueue * 16 + k.vc
          s.setOut (128 + e) { o with lists := Tbl.set [] o.lists l (k :: Tbl.get [] o.lists l) }

/-- Read the source of frame i again. -/
def State.ethAgain (s : State) (r i : Nat) (x : Rec) : State :=
  let g := s.gather x.part x.src (.ethAgain r i)
  match g.2 with
  | some b => g.1.gotEthAgain r i b
  | none => g.1

/-- Read a send's source. -/
def State.ethSend (s : State) (r : Nat) (x : Rec) : State :=
  let g := (s.putRec r { x with phase := .running }).gather x.part x.src (.ethFrame r)
  match g.2 with
  | some b => g.1.gotEthFrame r b
  | none => g.1

/-- ETH_SEND (R374). -/
def execEthSend (t r : Nat) (s : State) : Host.Outcome State Fault Refusal :=
  let s := s.at t
  match s.recReady r Op.ETH_SEND with
  | some x => .next (s.ethSend r x)
  | none => .next s

/-- ETH_SEGMENT (R377). -/
def execEthSegment (t r : Nat) (s : State) : Host.Outcome State Fault Refusal :=
  let s := s.at t
  match s.recReady r Op.ETH_SEGMENT with
  | some x => .next (s.ethSend r x)
  | none => .next s

/-- A PFC frame: the times of the priorities it names. -/
def State.pfcFrame (s : State) (e : Nat) (ts : List (Nat × Nat)) : List Byte :=
  closeFrame (beBytes 6 0x0180C2000001 ++ beBytes 6 (s.ownMac e) ++ beBytes 2 0x8808 ++ beBytes 2 0x0101
    ++ beBytes 2 (ts.foldl (fun m x => m + 2 ^ x.1) 0) ++ (List.range 8).flatMap (fun p => beBytes 2 (((ts.find? (fun x => x.1 == p)).map (·.2)).getD 0)))

/-- Send a PFC frame, ahead of every scheduler queue, at the next frame boundary: at once unless a frame is being sent (R386). Changes that fall
due together go in one frame. -/
def State.sendPfc (s : State) (e : Nat) (ts : List (Nat × Nat)) : State :=
  let due := (s.ethPort e).pfcDue.filter (fun x => !ts.any (fun y => y.1 == x.1)) ++ ts
  if due.isEmpty then s
  else if (s.out (128 + e)).cur.isSome then s.modEthPort e (fun x => { x with pfcDue := due })
  else ((s.modEthPort e (fun x => { x with pfcDue := [] })).emit (.frame e (s.pfcFrame e due))).ethCount e 9

/-- ETH_FRAME_TX_DONE (R376, R386, R392): the frame being sent on port e has left; `bad` its CRC-64 check failed after it had begun. A PFC frame
that is due follows it. The last frame completes its descriptor; a failed frame is ended with an inverted FCS, its source is read again and it is
sent once more (`aux` lists the numbers of the frames that have failed once). -/
def execEthFrameTxDone (t e : Nat) (bad : Bool) (s : State) : Host.Outcome State Fault Refusal :=
  let s := s.at t
  let o := s.out (128 + e)
  match o.cur with
  | none => .next s
  | some k =>
    if (s.now : Rat) < o.busyTo then .next s
    else
      let s := s.setOut (128 + e) { o with cur := none }
      let s := ((s.emit (.frame e (if bad then badFcs k.frame else k.frame))).ethCount e 1).sendPfc e []
      match k.recId.bind s.getRec, k.recId with
      | some x, some r =>
        if bad then
          if !x.aux.contains k.psn then
            let x := { x with aux := k.psn :: x.aux }
            .next (((s.ethCount e 8).putRec r x).ethAgain r k.psn x)
          else .next ((s.dropFrames e r).finish r Ty.DONE Stat.MEMORY_ERROR 0)
        else
          let x := { x with left := x.left - 1 }
          let s := s.putRec r x
          .next (if x.left = 0 then
              s.finish r Ty.DONE Stat.SUCCESS (if x.desc.op = Op.ETH_SEND then x.desc.len + b2n (insTag x.desc) * 4 else x.desc.len)
            else s)
      | _, _ => .next s

/-! ### Priority flow control (R386, R387) -/

/-- The bytes of waiting frames of a priority. -/
def EthPort.heldBytes (x : EthPort) (p : Nat) : Nat := ((x.held.filter (fun f => f.prio == p)).map (fun f => f.bytes.length)).foldl (· + ·) 0

/-- The counts of a port have changed: cross XOFF and XON (R386). -/
def State.pfcCheck (s : State) (e : Nat) : State :=
  let x := s.ethPort e
  let on (p : Nat) : Bool := (s.fld F.ETH_PORT_CFG_PFC_EN e).testBit p
  let ups := (List.range 8).filter (fun p => on p && !Tbl.has x.xoff p && decide (s.fld F.ETH_PFC_THRESH_XOFF e p * 1024 < x.heldBytes p))
  let downs := (List.range 8).filter (fun p => Tbl.has x.xoff p && decide (x.heldBytes p ≤ s.fld F.ETH_PFC_THRESH_XON e p * 1024))
  let s := s.setEthPort e { x with xoff := downs.foldl Tbl.del (ups.foldl (fun t p => Tbl.put t p s.now) x.xoff) }
  s.sendPfc e (ups.map (fun p => (p, 65535)) ++ downs.map (fun p => (p, 0)))

/-- PFC_REFRESH_TIMER (R386): the XOFF frame of a held-off priority is repeated. -/
def execPfcRefreshTimer (t e p : Nat) (s : State) : Host.Outcome State Fault Refusal :=
  let s := s.at t
  let x := s.ethPort e
  match Tbl.find x.xoff p with
  | some at0 =>
    if at0 + max 1 (s.fld F.ETH_RX_CFG_PFC_REFRESH e) * 1000 ≤ s.now then
      .next ((s.setEthPort e { x with xoff := Tbl.put x.xoff p s.now }).sendPfc e [(p, 65535)])
    else .next s
  | none => .next s

/-- PFC_PAUSE_EXPIRY (R387): a priority's pause time has run out. -/
def execPfcPauseExpiry (t e p : Nat) (s : State) : Host.Outcome State Fault Refusal :=
  let s := s.at t
  let x := s.ethPort e
  match Tbl.find x.pauses p with
  | some u => .next (if u ≤ (s.now : Rat) then s.setEthPort e { x with pauses := Tbl.del x.pauses p } else s)
  | none => .next s

/-- Obey a PFC frame (R387): the time field × 512 bit times from receipt. -/
def State.obeyPfc (s : State) (e : Nat) (bs : List Byte) : State :=
  let l := frameL3 bs
  let en := be16 bs (l + 2)
  (List.range 8).foldl (fun s p =>
    if en.testBit p && (s.fld F.ETH_PORT_CFG_PFC_EN e).testBit p then
      let d : Rat := ((be16 bs (l + 4 + 2 * p) * 64 : Nat) : Rat) / (s.ethRate e : Rat)
      s.modEthPort e (fun x => { x with pauses := if d = 0 then Tbl.del x.pauses p else Tbl.put x.pauses p (s.now + d) })
    else s) s

/-- Whether a priority is paused now. -/
def State.paused (s : State) (e p : Nat) : Bool := (Tbl.find (s.ethPort e).pauses p).any (fun u => decide ((s.now : Rat) < u))

/-! ### Receiving (R378 to R382) -/

/-- The flags of a frame against a RECV of len bytes (R381): TRUNC, OVERSIZE, UNDERSIZE, CODE_ERR, FCS_ERR from bit 5 down to bit 1, and
BAD in bit 0. (log entry 77) -/
def frameFlags (bs : List Byte) (codeErr : Bool) (trunc : Bool) : Nat :=
  let f := b2n trunc * 32 + b2n (decide (9216 < bs.length)) * 16 + b2n (decide (bs.length < 64)) * 8 + b2n codeErr * 4 + b2n (!fcsOk bs) * 2
  f + b2n (f != 0)

/-- The bytes a queue pair's RECV receives of a frame (R378). -/
def delivered (q : Qp) (bs : List Byte) : List Byte :=
  let b := bs.take (bs.length - 4)
  let b := if q.flags.testBit 2 && frameTagged bs then b.take 12 ++ b.drop 16 else b
  if q.flags.testBit 1 then b ++ bs.drop (bs.length - 4) else b

/-- The checksum results of a frame (R381): checked, TCP or UDP bad, IPv4 bad. -/
def csumFlags (bs : List Byte) : Nat :=
  let b := bs.take (bs.length - 4)
  match ipForm b with
  | none => 0
  | some f =>
    let ipBad := !f.v6 && checksum (slice b f.l3 (f.l4 - f.l3)) != 0
    let l4Bad := f.pro != 0 && !(f.pro == 17 && be16 b f.sumAt == 0 && !f.v6)
      && checksum (pseudo b f ++ slice b f.l4 (f.top - f.l4)) != 0
    256 + b2n l4Bad * 128 + b2n ipBad * 64

/-- DATA of the RECEIVED entry of a frame (R382). -/
def recvData (q : Qp) (f : HeldFrame) (trunc : Bool) : Word :=
  let strip := q.flags.testBit 2 && frameTagged f.bytes
  word (frameTci f.bytes * 2 ^ 48 + b2n (frameTagged f.bytes) * 2 ^ 47 + b2n strip * 2 ^ 46 + f.filter % 256 * 2 ^ 32
    + frameType f.bytes * 2 ^ 16 + (if q.flags.testBit 0 then csumFlags f.bytes else 0) + frameFlags f.bytes f.codeErr trunc)

/-- Place a frame in a RECV's buffer (R382, R392). -/
def State.placeFrame (s : State) (f : HeldFrame) (r : Nat) (x : Rec) : State :=
  let q := s.qp f.qpn
  let b := delivered q f.bytes
  let trunc := decide (x.desc.len < b.length)
  let b := b.take x.desc.len
  let parts := layOut (cutExt x.dst 0 b.length) b
  let s := s.modQp f.qpn (fun q => { q with recvs := q.recvs.erase r })
  if f.crcBad then (s.undefine x.part parts).finish r Ty.RECEIVED Stat.MEMORY_ERROR 0
  else
    let s := s.checkedParts parts
    match s.partsPoison parts with
    | some g => s.finish r Ty.RECEIVED Stat.MEMORY_ERROR 0 (word g)
    | none =>
      (s.putRec r { x with phase := .running, data := recvData q f trunc, placed := b.length, links := linksOf x.dst }).place x.part parts none (.ethRecv r)

/-- Whether a frame would be bad for its oldest RECV, and the queue pair takes no bad frames. -/
def State.tooLong (s : State) (f : HeldFrame) (x : Rec) : Bool :=
  let q := s.qp f.qpn
  !q.flags.testBit 3 && decide (x.desc.len < (delivered q f.bytes).length)

/-- Give the waiting frames of a queue pair their RECVs, in arrival order; a truncated one that the queue pair does not take is dropped
as bad. The number bounds the frames. -/
def State.serveHeld (s : State) (e q : Nat) : Nat → State
  | 0 => s
  | n + 1 =>
    match (s.ethPort e).held.find? (fun f => f.qpn == q), (s.qp q).recvs.head? with
    | some f, some r => match s.getRec r with
      | some x =>
        let s := s.modEthPort e (fun p => { p with held := p.held.erase f })
        State.serveHeld (if s.tooLong f x then s.ethCount e 2 else s.placeFrame f r x) e q n
      | none => s
    | _, _ => s

/-- Serve a queue pair, then look at the thresholds. -/
def State.serveEth (s : State) (e q : Nat) : State := ((s.serveHeld e q ((s.ethPort e).held.length)).pfcCheck e).idleFrom (portDom e)

/-- ETH_RECV (R378): the buffer waits for a frame of its queue pair. -/
def execEthRecv (t r : Nat) (s : State) : Host.Outcome State Fault Refusal :=
  let s := s.at t
  match s.recReady r Op.ETH_RECV with
  | some x =>
    let s := (s.putRec r { x with phase := .waiting }).modQp x.queue (fun q => { q with recvs := q.recvs ++ [r] })
    .next (s.serveEth ((s.qp x.queue).ethPort.getD 0) x.queue)
  | none => .next s

/-- Whether a frame matches a filter entry's word 0 (R380). -/
def State.matchFilter (s : State) (e : Nat) (w : Word) (bs : List Byte) : Bool :=
  let mac := bits w 48 8
  bit w 63 && (mac == 0xFF || (decide (mac < 64) && s.flag F.ETH_MAC_VALID e mac && s.fld F.ETH_MAC_ADDR e mac == beNat (slice bs 0 6)))
    && (bits w 46 2 == 0 || (bits w 46 2 == 1 && !frameTagged bs) || (bits w 46 2 == 2 && frameTagged bs && frameTci bs % 4096 == bits w 34 12))
    && (bit w 33 || frameType bs == bits w 0 16)

/-- The lowest-numbered committed entry a frame matches. -/
def State.filterFor (s : State) (e : Nat) (bs : List Byte) : Option (Nat × Word × Word) :=
  (s.ethPort e).filters.find? (fun f => s.matchFilter e f.2.1 bs)

/-- Hold a classified frame (R382, R386). -/
def State.holdFrame (s : State) (e : Nat) (f : HeldFrame) : State :=
  let x := s.ethPort e
  let total := (x.held.map (fun f => f.bytes.length)).foldl (· + ·) 0
  if s.fld F.ETH_PFC_THRESH_LIMIT e f.prio * 1024 < x.heldBytes f.prio + f.bytes.length ∨ 4194304 < total + f.bytes.length then s.ethCount e 4
  else
    let s := (s.setEthPort e { x with held := x.held ++ [f] }).pfcCheck e
    let s := s.serveEth e f.qpn
    if s.fld F.ETH_RX_CFG_RX_HOLD e = 0 ∧ (s.ethPort e).held.contains f then
      ((s.modEthPort e (fun p => { p with held := p.held.erase f })).ethCount e 4).pfcCheck e
    else s

/-- A frame for a queue pair (R379 from the filters on). -/
def State.classify (s : State) (e : Nat) (f : EthFrame) : State :=
  match s.filterFor e f.bytes with
  | none => s.ethCount e 3
  | some (i, w0, w1) =>
    let n := bits w1 0 16
    let q := s.qp n
    if bit w0 62 then s.ethCount e 3
    else if q.state ≠ .active ∨ q.part ≠ bits w0 56 6 ∨ q.ethPort ≠ some e ∨ q.rq.isNone then s.ethCount e 3
    else if frameFlags f.bytes f.codeErr false % 2 = 1 ∧ ¬ q.flags.testBit 3 then s.ethCount e 2
    else
      let m := s.policed q.part (f.bytes.length + s.fld F.SCH_ETH_OVERHEAD_OVERHEAD) false
      if m.1 then m.2.ethCount e 5
      else m.2.holdFrame e ⟨f.bytes, f.codeErr, f.crcBad, s.prioOf e f.bytes, n, i, s.now⟩

/-! ### Kilpin Transport in UDP (R383) -/

/-- ETH_KT_ADDR, big-endian. -/
def State.ktAddr (s : State) : List Byte := beBytes 8 (s.reg .ETH_KT_ADDR_HI).toNat ++ beBytes 8 (s.reg .ETH_KT_ADDR_LO).toNat

/-- The priority of a KT packet (R384). -/
def State.ktPrio (s : State) (p : Packet) : Nat :=
  if p.cls = Cls.RSP ∨ p.cls = Cls.MGT then s.fld F.ETH_KT_CFG_PCP_RSP else s.fld F.ETH_KT_CFG_PCP_REQ

/-- The frame of a KT packet (R383). -/
def State.ktFrame (s : State) (e : Nat) (p : Packet) : List Byte :=
  let m := s.mapEntry p.dst
  let kt := p.bytes
  let n := 8 + kt.length
  let dst := beBytes 16 m.ipv6
  let udp0 := beBytes 2 (0xC000 + p.msgId % 2 ^ 14) ++ beBytes 2 (s.fld F.ETH_KT_CFG_UDP_PORT) ++ beBytes 2 n
  let ck := checksum (s.ktAddr ++ dst ++ beBytes 4 n ++ [0, 0, 0, 17] ++ udp0 ++ [0, 0] ++ kt)
  let tag := if s.flag F.ETH_KT_CFG_TAG then beBytes 2 0x8100 ++ beBytes 2 (s.ktPrio p * 8192 + s.fld F.ETH_KT_CFG_VID) else []
  closeFrame (beBytes 6 m.mac ++ beBytes 6 (s.ownMac e) ++ tag ++ beBytes 2 0x86DD
    ++ beBytes 4 (6 * 2 ^ 28 + (s.fld F.ETH_KT_CFG_DSCP * 4 + 2) * 2 ^ 20 + p.msgId % 2 ^ 20) ++ beBytes 2 n
    ++ [17, BitVec.ofNat 8 (max 1 (s.fld F.ETH_KT_CFG_HOPLIMIT))] ++ s.ktAddr ++ dst ++ udp0 ++ beBytes 2 (if ck = 0 then 65535 else ck) ++ kt)

/-- Whether a received frame is taken as KT. -/
def State.isKt (s : State) (e : Nat) (bs : List Byte) : Bool :=
  let l := frameL3 bs
  beNat (slice bs 0 6) == s.ownMac e && frameType bs == 0x86DD && (bs.getD l 0).toNat / 16 == 6 && (bs.getD (l + 6) 0).toNat == 17
    && slice bs (l + 24) 16 == s.ktAddr && be16 bs (l + 42) == s.fld F.ETH_KT_CFG_UDP_PORT

/-- A received packet's HOPS and AGE (R192); none when it is past its lifetime. -/
def aged (p : Packet) (hops ns : Nat) : Option Packet :=
  let h := p.hops + hops
  let a := p.age + ceilDiv ns 40
  if 64 < h ∨ 1760 < a then none else some { p with w0 := setBits (setBits p.w0 43 7 h) 32 11 a }

/-- A KT frame: checked, and its packet sent over its port die's bridge to the transport engine (R23, R383). -/
def State.ktReceived (s : State) (e : Nat) (f : EthFrame) : State :=
  let bs := f.bytes
  let l := frameL3 bs
  let n := be16 bs (l + 4)
  let kt := slice bs (l + 48) (n - 8)
  let ck := checksum (slice bs (l + 8) 32 ++ beBytes 4 n ++ [0, 0, 0, 17] ++ slice bs (l + 40) n)
  let p := Packet.ofBytes kt
  if !fcsOk bs || f.codeErr || n != be16 bs (l + 44) || bs.length != l + 44 + n || kt.length != p.len || ck != 0 then s.ethCount e 7
  else
    if (aged p 1 0).isNone then s.count F.TRN_COUNT_COUNT 2
    else
      let p := if (bs.getD (l + 1) 0).toNat / 16 % 4 = 3 then { p with w0 := setBits p.w0 50 1 1 } else p
      s.enqueue (bridgeBack e) { SwPkt.ofPacket p 0 s.now p.len with
        input := 140 + e, inVc := 2 * p.cls, vc := 2 * p.cls, escape := true, eject := true, rel := s.now }

/-- An arriving frame (R379). -/
def State.ethFrameIn (s : State) (e : Nat) (f : EthFrame) : State :=
  if !(s.ethPort e).up || (s.dom (portDom e)).state != .on then s
  else
    let s := (s.ethCount e 0).bwRx (128 + e) (f.bytes.length + s.fld F.SCH_ETH_OVERHEAD_OVERHEAD)
    if f.bytes.length < 18 ∨ f.ended then s.ethCount e 2
    else if frameType f.bytes = 0x8808 then
      if be16 f.bytes (frameL3 f.bytes) = 0x0101 then (if fcsOk f.bytes then s.obeyPfc e f.bytes else s) else s.ethCount e 7
    else if s.isKt e f.bytes then s.ktReceived e f
    else s.classify e f

/-- ETH_FRAME_RECEIVED (R379). -/
def execEthFrameReceived (t e : Nat) (f : EthFrame) (s : State) : Host.Outcome State Fault Refusal := .next ((s.at t).ethFrameIn e f)

/-- RX_HOLD_EXPIRY (R382): a frame that found no RECV within RX_HOLD is dropped. -/
def execRxHoldExpiry (t e : Nat) (s : State) : Host.Outcome State Fault Refusal :=
  let s := s.at t
  let x := s.ethPort e
  match x.held with
  | [] => .next s
  | f :: fs =>
    if f.at0 + s.fld F.ETH_RX_CFG_RX_HOLD e * 1000 ≤ s.now then
      .next ((((s.setEthPort e { x with held := fs }).ethCount e 4).pfcCheck e).idleFrom (portDom e))
    else .next s

/-- A queue pair leaves ACTIVE: the frames waiting for it are dropped (R382). -/
def State.dropHeld (s : State) (q : Nat) : State :=
  match (s.qp q).ethPort with
  | none => s
  | some e =>
    let x := s.ethPort e
    let n := (x.held.filter (fun f => f.qpn == q)).length
    (((s.setEthPort e { x with held := x.held.filter (fun f => f.qpn != q) }).count F.ETH_COUNT_COUNT e 4 n).pfcCheck e).idleFrom (portDom e)

/-- QP_DESTROY (R147): frames that wait for the queue pair are dropped as it leaves ACTIVE. -/
def execQpDestroy (t r : Nat) (s : State) : Host.Outcome State Fault Refusal :=
  .next ((s.at t).admRun r Op.QP_DESTROY (fun s x =>
    let n := bits x.desc.w2 0 16
    let s := s.qpDestroy r x
    if (s.qp n).state = .destroying then s.dropHeld n else s))

/-- ETH_FILTER_COMMIT (R379): a write to word 1 of entry f makes the whole entry take effect. -/
def State.filterCommit (s : State) (e f : Nat) (w : Word) : State :=
  let s := s.writeReg .ETH_FILTER_W1 e f w
  s.modEthPort e (fun x => { x with filters := Tbl.put x.filters f (s.reg .ETH_FILTER_W0 e f, s.reg .ETH_FILTER_W1 e f) })

def execEthFilterCommit (t e f : Nat) (w : Word) (s : State) : Host.Outcome State Fault Refusal :=
  let s := s.at t
  .next (s.ifServing (fun s => if e < s.nEth ∧ f < 256 then s.filterCommit e f w else s))

/-! ### The timer and the transmit gates (R389 to R391) -/

/-- ETH_TIMER (R389). -/
def State.ethTimer (s : State) (e : Nat) : Nat :=
  let x := s.ethPort e
  (s.now - x.timerAt + x.timerOff) % 2 ^ 64

/-- The entries of the gate control list, as (offset in the cycle, gate bits); an entry at or past the cycle's end is not used. -/
def State.gateList (s : State) (e : Nat) : List (Nat × Nat) :=
  let n := min 256 (max 1 (s.fld F.ETH_GATE_CTRL_LEN e))
  let go (acc : Nat × List (Nat × Nat)) (i : Nat) : Nat × List (Nat × Nat) :=
    (acc.1 + max 32 (s.fld F.ETH_GCL_W1_INTERVAL e i), acc.2 ++ [(acc.1, s.fld F.ETH_GCL_W0_GATES e i)])
  (((List.range n).foldl go (0, [])).2).filter (fun x => decide (x.1 < max 1000 (s.fld F.ETH_GATE_CYCLE_CYCLE e)))

def State.gateCycle (s : State) (e : Nat) : Nat := max 1000 (s.fld F.ETH_GATE_CYCLE_CYCLE e)

/-- The gate bits at a place of the cycle. -/
def gatesAt (l : List (Nat × Nat)) (pos : Nat) : Nat := (((l.filter (fun x => decide (x.1 ≤ pos))).getLast?).map (·.2)).getD 0

/-- From a place of the cycle, the ns for which queue q stays open; none: for ever. -/
def openLen (l : List (Nat × Nat)) (cycle q pos : Nat) : Option Nat :=
  if !(gatesAt l pos).testBit q then some 0
  else match l.find? (fun x => decide (pos < x.1) && !x.2.testBit q) with
    | some x => some (x.1 - pos)
    | none => (l.find? (fun x => !x.2.testBit q)).map (fun x => cycle - pos + x.1)

/-- The ns for which queue q's gate stays open from now; none: for ever (R390, R391). -/
def State.gateOpen (s : State) (e q : Nat) : Option Nat :=
  let x := s.ethPort e
  let stop := (s.fld F.ETH_GATE_STOP_GATES e).testBit q
  if s.flag F.ETH_GATE_CTRL_STOPPED e then (if stop then none else some 0)
  else
    let now := s.ethTimer e
    let l := s.gateList e
    let c := s.gateCycle e
    if now < x.start then
      (if !x.gates.testBit q then some 0 else (openLen l c q 0).map (fun n => x.start - now + n))
    else
      let pos := (now - x.start) % c
      let n := if x.gates.testBit q then openLen l c q pos else some 0
      match x.stopAt with
      | none => n
      | some u => match n with
        | some n => if now + n < u then some n else if stop then (if x.gates.testBit q then none else some n) else some (min n (u - now))
        | none => if stop then none else some (u - now)

/-- Whether a frame of a counted length may start on queue q of port e: the gate stays open to its end and its priority is not paused. -/
def State.ethMaySend (s : State) (e q prio len : Nat) : Bool :=
  (s.ethPort e).up && !s.paused e prio && (match s.gateOpen e q with
    | none => true
    | some n => decide (0 < n) && decide (len ≤ n * s.ethRate e))

/-- RUN is written 0 (R391 step 1): the gates stop at the end of the current cycle. (log entry 78) -/
def State.gateStop (s : State) (e : Nat) (w : Word) : State :=
  let stopped := s.flag F.ETH_GATE_CTRL_STOPPED e
  let len := if stopped then bits w 0 9 else s.fld F.ETH_GATE_CTRL_LEN e
  let s := (s.setFld F.ETH_GATE_CTRL_RUN 0 e).setFld F.ETH_GATE_CTRL_LEN len e
  if stopped then s
  else
    let now := s.ethTimer e
    let x := s.ethPort e
    let c := s.gateCycle e
    s.setEthPort e { x with stopAt := some (if now < x.start then x.start else x.start + ((now - x.start) / c + 1) * c) }

/-- GATE_STOP_TAKES_HOLD (R391): at the cycle's end the gates take ETH_GATE_STOP and STOPPED sets. -/
def execGateStopTakesHold (t e : Nat) (s : State) : Host.Outcome State Fault Refusal :=
  let s := s.at t
  let x := s.ethPort e
  match x.stopAt with
  | some u =>
    if u ≤ s.ethTimer e then
      .next ((s.setEthPort e { x with stopAt := none, gates := s.fld F.ETH_GATE_STOP_GATES e }).setFld F.ETH_GATE_CTRL_STOPPED 1 e)
    else .next s
  | none => .next s

/-- The longest unbroken open stretch of queue q in the repeating cycle; none: always open. -/
def longestOpen (l : List (Nat × Nat)) (cycle q : Nat) : Option Nat :=
  (l.map (fun x => openLen l cycle q x.1)).foldl (fun m n => match m, n with
    | some a, some b => some (max a b)
    | _, _ => none) (some 0)

/-- RUN is written 1 (R391 step 3): the schedule is checked and starts at the earliest cycle start at least 1 µs ahead. -/
def State.gateRestart (s : State) (e : Nat) (w : Word) : State :=
  if !s.flag F.ETH_GATE_CTRL_STOPPED e then
    -- a stop that has not taken hold yet is taken back
    (s.setFld F.ETH_GATE_CTRL_RUN 1 e).modEthPort e (fun x => { x with stopAt := none })
  else
    let s := s.setFld F.ETH_GATE_CTRL_LEN (bits w 0 9) e
    let l := s.gateList e
    let c := s.gateCycle e
    let ok := (List.range 64).all (fun q => match longestOpen l c q with
      | none => true
      | some n => n == 0 || decide (9236 ≤ n * s.ethRate e))
    if !ok then s.setFld F.ETH_GATE_CTRL_ERROR 1 e
    else
      let base := (s.reg .ETH_GATE_BASE e).toNat
      let from_ := s.ethTimer e + 1000
      let start := if from_ ≤ base then base else base + ceilDiv (from_ - base) c * c
      (((s.setFld F.ETH_GATE_CTRL_RUN 1 e).setFld F.ETH_GATE_CTRL_ERROR 0 e).setFld F.ETH_GATE_CTRL_STOPPED 0 e).modEthPort e
        (fun x => { x with start := start, stopAt := none, gates := s.fld F.ETH_GATE_STOP_GATES e })

/-- GATE_ENTRY_START (R390): an entry's start time has come; its gates open. -/
def execGateEntryStart (t e : Nat) (s : State) : Host.Outcome State Fault Refusal :=
  let s := s.at t
  let x := s.ethPort e
  let now := s.ethTimer e
  if s.flag F.ETH_GATE_CTRL_STOPPED e ∨ now < x.start then .next s
  else .next (s.setEthPort e { x with gates := gatesAt (s.gateList e) ((now - x.start) % s.gateCycle e) })

/-- A write to ETH_TIMER_ADJ (R389): an offset is added to the timer while STOPPED. -/
def State.timerAdj (s : State) (e : Nat) (w : Word) : State :=
  if s.flag F.ETH_GATE_CTRL_STOPPED e then s.modEthPort e (fun x => { x with timerOff := (x.timerOff + w.toNat) % 2 ^ 64 }) else s

/-! ### Link changes (R370, R393) -/

/-- UP falls (R393). (log entry 79) -/
def State.ethDown (s : State) (e : Nat) : State :=
  let x := s.ethPort e
  if !x.up then s.setEthPort e { x with training := false }
  else
    let s := s.countSat F.ETH_PORT_STATUS_LINK_DOWNS e
    let s := s.setEthPort e { x with up := false, training := false, pauses := [], xoff := [], pfcDue := [] }
    let o := s.out (128 + e)
    let ks := (o.lists.flatMap (·.2)) ++ o.cur.toList
    let s := s.setOut (128 + e) { o with lists := [], cur := none, busyTo := s.now }
    let s := ((ks.filterMap (·.recId)).eraseDups).foldl (fun s r => s.finish r Ty.DONE Stat.DEST_UNREACHABLE 0) s
    let s := s.faultL 0 0x02 e (s.fld F.ETH_PORT_STATUS_LINK_DOWNS e) 0
    -- copies of messages that were discarded count as lost: their timers run (R196)
    ks.foldl (fun s k => if k.msg.isSome && k.frame == [] then s.leftPort k else s) s

/-- ETH_PORT_ENABLE (R370): a write to ETH_PORT_CFG; SPEED and IFACE change only while ENABLE is 0, and a reserved SPEED changes neither. A write
that would set 400 Gb/s with IFACE 1 is ignored whole. In lamp out the ports stay disabled (R447; DEDUCED, log entry 145). -/
def State.ethPortCfg (s : State) (e : Nat) (w : Word) : State :=
  let old := s.reg .ETH_PORT_CFG e
  let was := bit old 31
  let w := if s.start.lampOut then setBits w 31 1 0 else w
  let w := if was then setBits (setBits w 2 1 (bits old 2 1)) 0 2 (bits old 0 2) else w
  let w := if 2 ≤ bits w 0 2 then setBits (setBits w 2 1 (bits old 2 1)) 0 2 (bits old 0 2) else w
  if bits w 0 2 = 1 ∧ bit w 2 then s else
  let s := (s.writeReg .ETH_PORT_CFG e 0 w).pfcCheck e
  if !was && bit w 31 then s.modEthPort e (fun x => { x with training := true })
  else if was && !bit w 31 then (s.idleFrom (portDom e)).ethDown e else s

def execEthPortEnable (t e : Nat) (w : Word) (s : State) : Host.Outcome State Fault Refusal :=
  let s := s.at t
  .next (s.ifServing (fun s => if e < s.nEth then s.ethPortCfg e w else s))

/-- The wake detector of port 0 matches a source (R394, R395): the status is set and port die 0 is powered. -/
def State.ethWake (s : State) (src : Nat) : State :=
  let s := s.setReg .ETH_WAKE_STATUS 0 0 (word (2 ^ 31 + src))
  (s.wakeSet.foldl (fun s d => s.wakeWith d 4) s).wakeWith (portDom 0) 4

/-- A change of port 0's link state while the detector is armed (R395, source LINK). -/
def State.ethLinkWake (s : State) (e : Nat) : State :=
  if e = 0 ∧ s.flag F.ETH_WAKE_CFG_ENABLE ∧ s.flag F.ETH_WAKE_CFG_LINK ∧ (s.dom (portDom 0)).state ≠ .on then s.ethWake 32 else s

/-- ETH_LINK_UP (R370): link training ends. -/
def execEthLinkUp (t e : Nat) (s : State) : Host.Outcome State Fault Refusal :=
  let s := s.at t
  let x := s.ethPort e
  .next (if x.training then (s.setEthPort e { x with up := true, training := false, localFault := false, remoteFault := false }).ethLinkWake e else s)

/-- ETH_LINK_DOWN (R393): UP falls. `far` tells a fault the partner signals from a lost signal; the port trains again while it is
enabled. -/
def execEthLinkDown (t e : Nat) (far : Bool) (s : State) : Host.Outcome State Fault Refusal :=
  let s := s.at t
  if !(s.ethPort e).up then .next s
  else
    let s := s.ethDown e
    .next ((s.modEthPort e (fun x => { x with
      localFault := !far, remoteFault := far, training := s.flag F.ETH_PORT_CFG_ENABLE e })).ethLinkWake e)

/-! ### Wake on port 0 (R394, R395) -/

/-- MAGIC: six 0xFF bytes and 16 copies of ETH_MAC entry 0 within the first 512 B after the EtherType. -/
def State.magic (s : State) (bs : List Byte) : Bool :=
  let b := (bs.drop (frameL3 bs)).take 512
  let m := List.replicate 6 (0xFF : Byte) ++ (List.replicate 16 (beBytes 6 (s.ownMac 0))).flatten
  (List.range (b.length - 101)).any (fun i => slice b i 102 == m)

/-- Byte i of a wake pattern's registers: the pattern from 0, its mask from 128. -/
def State.wakeByte (s : State) (k i : Nat) : Nat := bits (s.reg .ETH_WAKE_PAT k (i / 8)) (i % 8 * 8) 8

/-- Pattern k matches a frame in every byte below 128 whose mask bit is set. -/
def State.pattern (s : State) (k : Nat) (bs : List Byte) : Bool :=
  (List.range 128).all (fun i => !(s.wakeByte k (128 + i / 8)).testBit (i % 8) || (bs[i]?).any (fun b => b.toNat == s.wakeByte k i))

/-- The sources a frame matches, in the layout of ETH_WAKE_CFG [5:0]. -/
def State.wakeSources (s : State) (bs : List Byte) : Nat :=
  if !fcsOk bs then 0
  else
    b2n (s.flag F.ETH_WAKE_CFG_MAGIC && s.magic bs) * 16
      + ((List.range 4).map (fun k => b2n ((s.fld F.ETH_WAKE_CFG_PATTERN).testBit k && s.pattern k bs) * 2 ^ k)).foldl (· + ·) 0

/-- ETH_WAKE_MATCH (R395): a frame that reaches the armed detector; a match wakes port die 0. The frame is dropped. -/
def execEthWakeMatch (t : Nat) (f : EthFrame) (s : State) : Host.Outcome State Fault Refusal :=
  let s := s.at t
  let src := s.wakeSources f.bytes
  .next (if s.flag F.ETH_WAKE_CFG_ENABLE ∧ (s.dom (portDom 0)).state ≠ .on ∧ src ≠ 0 then s.ethWake src else s)

end Sys2Proof.Machine
end

