-- ==== Sys2Proof/Machine/Fabric.lean ====
section
/-!
DEFINITION. The switch and its outputs (R222 to R229, R242 to R251, R281 to R290, R350, R351) and the fabric links (R253 to R276), of
spec/07_congestion_admission_and_scheduling.md and spec/08_fabric_links_and_routing.md.
-/
namespace Sys2Proof.Machine

/-! ### Routing (R277 to R284, R351) -/

/-- A port in its bundle (R278). -/
def State.inBundle (s : State) (d dir p : Nat) : Bool :=
  (s.port p).state == .up && s.portDim p == d && s.portDir p == dir && s.flag F.FAB_PORT_CFG_ROUTE p

def State.bundle (s : State) (d dir : Nat) : List Nat := (List.range s.nPorts).filter (s.inBundle d dir)

/-- Flits waiting on an output. -/
def State.flitsAt (s : State) (o : Nat) : Nat := (((s.out o).lists.flatMap (·.2)).map (fun k => k.pkt.flits)).foldl (· + ·) 0

/-- A candidate output with its virtual channel, and whether it belongs to the escape hop (R281). -/
structure Cand where
  o      : Nat
  vc     : Nat
  escape : Bool
  deriving DecidableEq, Repr

/-- The candidates of a packet (R281). -/
def State.candidates (s : State) (p : Packet) : List Cand :=
  let ds := s.openDims p.dst
  ds.flatMap (fun d => (s.bundle d (s.dirEntry d (s.coord d p.dst))).map (fun o => ⟨o, s.hopVc p.cls d p.dst, ds.head? == some d⟩))

/-- Choose among candidates (R282): the fewest flits waiting, then the rotation of the input. -/
def State.choose (s : State) (input : Nat) (cs : List Cand) : Option Cand :=
  let least := ((cs.map (fun c => s.flitsAt c.o)).min?).getD 0
  let cs := cs.filter (fun c => s.flitsAt c.o == least)
  let r := Tbl.get 0 s.sw.rot input
  (cs.find? (fun c => decide (r ≤ c.o))).orElse (fun _ => cs.head?)

/-- The Lantern die of an input and of an output; a port die belongs to the one it is attached to (R17). -/
def inputDie (i : Nat) : Nat := if i < 128 then portDie i else if i = 130 then 1 else if i = 131 then 0 else if i < 130 then i - 128 else i / 2 % 2
def outputDie (o : Nat) : Nat :=
  if o < 128 then portDie o else if o < 136 then (o - 128) / 4 else if o < 144 then (o - 136) / 2 % 2 else o - 144

/-- The bridge-4 output that leaves a die, and the input a bridge's output feeds. -/
def bridgeFrom (die : Nat) : Nat := 144 + die
def bridgeInput (o : Nat) : Nat := if o < 144 then o - 4 else o - 14

/-- Send a packet of a die toward output o: over bridge 4 first when the output is on the other die, and over its port die's bridge to an
Ethernet port (R22, R23). (log entry 121) -/
def State.toward (s : State) (die : Nat) (k : SwPkt) (o vc : Nat) (escape : Bool) : State :=
  let k := { k with out := some o, vc := vc, escape := escape }
  let next := if 128 ≤ o ∧ o < 136 then bridgeTo (o - 128) else o
  s.enqueue (if s.half ∨ outputDie o = die then next else bridgeFrom die) k

/-- Discard a packet inside the switch: its credit is freed, and a copy of a message counts as departed, so that its timer runs
(R196, R284). -/
def State.discard (s : State) (k : SwPkt) : State := (s.freeIn k).leftPort k

/-- A packet leaves the fabric here (R284): to the transport half of its source's die. -/
def State.ejectHere (s : State) (k : SwPkt) : State :=
  match aged k.pkt 1 (s.now - k.at0 + k.delta) with
  | none => (s.discard k).count F.TRN_COUNT_COUNT 2
  | some p => (s.freeIn k).setSw { (s.freeIn k).sw with ejected := (s.freeIn k).sw.ejected ++ [(k.at0, p)] }

/-- Remove the k-th packet of an input list. -/
def State.takeIn (s : State) (i k : Nat) : State := s.setInq i ((s.inqOf i).eraseIdx k)

/-- The port in state MGT_ONLY through which a copy's message goes to whatever is behind it (R264). -/
def State.doorOf (s : State) (k : SwPkt) : Option Nat :=
  ((k.msg.bind s.msg).filter (fun m => decide (65536 ≤ m.node))).map (fun m => m.node - 65536)

/-- The plan slot of a collective packet and the link and bridge outputs of its route here, where the plan is loaded and names the route. -/
def State.colRoute (s : State) (k : SwPkt) : Option (Nat × (Nat × Nat)) :=
  match k.plan, k.route with
  | some n, some r => some (n, r)
  | _, _ => (s.planById k.pkt.planId).bind (fun e => (routeOf e.2.body (bits k.pkt.w3 8 12)).map (fun r => (e.1, r)))

/-- The virtual channel of a collective packet toward an output of its route (R280, R283). -/
def State.colVc (s : State) (p : Packet) (o : Nat) : Nat := if o < 128 then s.hopVc Cls.COL (s.portDim o) p.dst else 2 * Cls.COL + 1

/-- A packet that leaves the fabric here goes to the transport half of its source's die, over bridge 4 if need be; a collective packet goes by
its plan's bridges only (R222, R284, R333). -/
def State.toTransport (s : State) (die : Nat) (k : SwPkt) : State :=
  if s.half || s.dieOf k.pkt.src == die || k.pkt.type == Pk.COL_DATA then s.ejectHere k
  else s.enqueue (bridgeFrom die) { k with eject := true, vc := k.inVc, escape := true }

/-- A packet to a peer over Ethernet: to the port its message took while that is UP, else to the one of R384; from the port die's bridge to
the port itself, whose lists are by priority (R384, R385). -/
def State.toEthernet (s : State) (i : Nat) (k : SwPkt) : State :=
  let p := k.pkt
  if 132 ≤ i ∧ i < 136 then
    match k.out with
    | some o => if (s.ethPort (o - 128)).up then s.enqueue o { k with vc := s.ktPrio p, escape := false } else s.discard k
    | none => s.discard k
  else
    let own := ((k.msg.bind s.msg).bind (·.ethPort)).filter (fun e => (s.ethPort e).up)
    match own.orElse (fun _ => s.ktPort p.msgId) with
    | none => (s.discard k).count F.SWT_COUNT_COUNT 0
    | some e => s.toward (inputDie i) k (128 + e) (2 * p.cls) true

/-- A collective packet follows its plan's route (R351, R352): across BRIDGE first if one is named, then on LINK or, at the route's end, into the
collective engine; elsewhere one without a plan or route is discarded. (log entry 55) -/
def State.routeCol (s : State) (i : Nat) (k : SwPkt) (own : Bool) : State :=
  match s.colRoute k with
  | none => if own then s.toTransport (inputDie i) k else (s.discard k).colDrop
  | some (n, r) =>
    let k := { k with plan := some n, route := some r }
    if i < 130 ∧ r.2 < 255 then
      s.enqueue r.2 { k with out := if own then none else some r.1, eject := own, vc := s.colVc k.pkt (if own then r.2 else r.1), escape := true }
    else if own then s.toTransport (inputDie i) k
    else if r.1 = 255 then (s.discard k).colDrop
    else s.enqueue r.1 { k with out := some r.1, vc := s.colVc k.pkt r.1, escape := true }

/-- What routing a packet answers: it waits, or the state with the packet moved on. -/
def State.route (s : State) (i : Nat) (k : SwPkt) : Option State :=
  let p := k.pkt
  let own := s.node == some p.dst || k.eject
  let die := inputDie i
  match s.doorOf k with
  | some n => some (if (s.port n).state = .mgtOnly then s.toward die k n (2 * Cls.MGT) true else s.discard k)
  | none =>
  if p.type = Pk.COL_DATA then some (s.routeCol i k own)
  else if own then some (s.toTransport die k)
  else if s.overEth p.dst then some (s.toEthernet i k)
  else if !s.hasRoute p.dst then some ((s.discard k).count F.SWT_COUNT_COUNT 0)
  else
    let ok (c : Cand) : Bool := !s.barred c.o k && (s.poolFor c.o c.vc p.flits c.escape).isSome
    -- over bridge 4 the output has been chosen: it stays while it is a candidate
    let all := s.candidates p
    let kept := all.filter (fun c => (i == 130 || i == 131) && k.out == some c.o)
    match s.choose i ((if kept.isEmpty then all else kept).filter ok) with
    | none => none
    | some c =>
      let s := s.setSw { s.sw with rot := Tbl.set 0 s.sw.rot i (c.o + 1) }
      some (s.toward die k c.o c.vc c.escape)

/-- The copies of a message are built as they enter the switch: its timestamp is the local time, and AGE starts (R184, R192). (log entry 55) -/
def State.buildCopy (s : State) (k : SwPkt) (id : Nat) (m : Msg) : SwPkt :=
  { k with pkt := s.buildPacket id m k.psn k.pkt.pay, at0 := s.now, at1 := s.now, built := true }

/-- Draw a paced copy from its flight entry's rate and its partition's shaper (R194, R230, R248). -/
def State.drawRate (s : State) (k : SwPkt) (m : Msg) : State :=
  if !k.paced then s
  else
    let n := s.charge m k.psn
    let s := match Tbl.find s.tr.flights m.node with
      | none => s
      | some f =>
        let next : Rat := max f.next (s.now : Rat) + (n : Rat) / f.rate
        s.setFlights (Tbl.put s.tr.flights m.node { f with next := next })
    let p := m.part
    if s.overEth m.node then
      s.setSw { s.sw with ethShape := drawBucket s.sw.ethShape p (s.fld F.SCH_PART_ETH_SHAPE_RATE p) (s.fld F.SCH_PART_ETH_SHAPE_BURST p * 1024) s.now k.len }
    else
      s.setSw { s.sw with shape := drawBucket s.sw.shape p (s.fld F.SCH_PART_SHAPE_RATE p) (s.fld F.SCH_PART_SHAPE_BURST p * 1024) s.now k.len }

/-- Whether a copy may enter the switch now: its message is not waiting out a NAK BUSY (R199), and its flight entry's rate is not used up
(R230). -/
def State.mayInject (s : State) (k : SwPkt) (m : Msg) : Bool :=
  (m.busy.isNone || m.busyPsn == some k.psn) &&
  (!k.paced || (match Tbl.find s.tr.flights m.node with
    | none => true
    | some f => decide (f.next ≤ (s.now : Rat))))

/-- The domains an ejected packet needs (R482). -/
def State.ejectDoms (s : State) (k : SwPkt) : List Nat := if s.node = some k.pkt.dst ∧ s.doorOf k = none then [commonDom (s.dieOf k.pkt.src)] else []

/-- Whether an earlier first copy of a copy's message waits in the same list: first copies are sent in PSN order (R183). -/
def State.behindFirst (s : State) (i : Nat) (x : SwPkt) : Bool :=
  x.first && !x.built && (s.inqOf i).any (fun y => y.first && y.msg == x.msg && decide (y.psn < x.psn))

/-- The k-th packet of input list i is routed; a transit packet only when it heads its virtual channel's list. A copy whose message may send
no more is not sent (R197); one that has been built already is only routed again (R267). -/
def State.arrive (s : State) (i k : Nat) : State :=
  match (s.inqOf i)[k]? with
  | none => s
  | some x =>
    if !(i == 128 || i == 129) && ((s.inqOf i).take k).any (fun y => y.inVc == x.inVc) then s
    else if !s.ready (s.ejectDoms x) then s.hold (s.ejectDoms x) (.switchIn i)
    else
      match x.msg with
      | some id =>
        if i = 128 ∨ i = 129 then
          match s.msg id with
          | none => s.takeIn i k
          | some m =>
            if s.tooLate m then s.takeIn i k
            else if x.built then (s.route i x).elim s (fun s' => s'.takeIn i k)
            else if s.behindFirst i x || !s.mayInject x m then s
            else
              let x := s.buildCopy x id m
              match s.route i x with
              | some s' => ((s'.drawRate x m).countSeal x.pkt).takeIn i k
              | none => s
        else (s.route i x).elim s (fun s' => s'.takeIn i k)
      | none => (s.route i x).elim s (fun s' => s'.takeIn i k)

/-- SWITCH_PACKET_ARRIVAL (R281 to R284, R351): a packet at the head of an input list is routed to an output or leaves the fabric here. -/
def execSwitchPacketArrival (t i k : Nat) (s : State) : Host.Outcome State Fault Refusal := .next ((s.at t).arrive i k)

/-- AGE_LIMIT_DISCARD (R192, R284): a waiting packet past its lifetime is discarded; `place` below 256 an input list, else output
place − 256 and its list `key`. -/
def execAgeLimitDiscard (t place key k : Nat) (s : State) : Host.Outcome State Fault Refusal :=
  let s := s.at t
  let l := if place < 256 then s.inqOf place else Tbl.get [] (s.out (place - 256)).lists key
  match l[k]? with
  | none => .next s
  | some x =>
    if x.frame == [] && (aged x.pkt (b2n x.dimIn.isSome) (s.now - x.at0 + x.delta)).isNone then
      let s := if place < 256 then s.takeIn place k
        else
          let o := s.out (place - 256)
          s.setOut (place - 256) { o with lists := Tbl.set [] o.lists key (l.eraseIdx k) }
      .next ((s.discard x).count F.TRN_COUNT_COUNT 2)
    else .next s

/-! ### The calendar (R274, R275, R350) -/

/-! ### Choosing the next packet of an output (R225 to R227) -/

/-- Whether a head is eligible (R225). -/
def State.eligible (s : State) (o q : Nat) (k : SwPkt) : Bool :=
  let n := s.lenAt o k
  s.portTakes o k && !s.barred o k && (s.poolFor o k.vc k.pkt.flits k.escape).isSome
    && s.slotsFor o n (if 64 ≤ q then q - 63 else 0)
    && (if 128 ≤ o ∧ o < 136 then s.ethMaySend (o - 128) q k.vc n && (k.frame == [] || s.ethShapeOk k.part) else true)
    && (if 1 ≤ q ∧ q ≤ 3 then s.capRate o q != 0 && decide ((n : Rat) ≤ s.capLevel o q) else true)

/-- The eligible heads of an output: queue, list key, packet. A collective plan offers every packet it holds (R350). -/
def State.heads (s : State) (o : Nat) : List (Nat × Nat × SwPkt) :=
  ((s.out o).lists.flatMap (fun e =>
    (if 1024 ≤ e.1 then e.2 else e.2.take 1).map (fun k => (e.1 / 16, e.1, k)))).filter (fun h => s.eligible o h.1 h.2.2)

/-- The oldest of some heads. -/
def oldest (l : List (Nat × Nat × SwPkt)) : Option (Nat × Nat × SwPkt) :=
  l.foldl (fun (m : Option (Nat × Nat × SwPkt)) h => match m with
    | none => some h
    | some g => if h.2.2.at1 < g.2.2.at1 then some h else m) none

/-- The quantum of a queue of the weighted group (R226). -/
def State.quantum (s : State) (o q : Nat) : Nat := max 1 (bits (s.reg .SCH_WEIGHTS o (q / 8)) (8 * (q % 8)) 8) * 256

/-- Deficit round robin over the weighted group (R226): the queue whose turn it is goes on while its deficit lasts; otherwise each
turn adds a quantum until the deficit covers the head. Answers the head, with the deficits after it has been taken. (log entry 56) -/
def State.weighted (s : State) (o : Nat) (hs : List (Nat × Nat × SwPkt)) : Option ((Nat × Nat × SwPkt) × Tbl Nat) :=
  let x := s.out o
  let cyc (q : Nat) : Nat := (q + 60 - (x.turn + 1) % 60) % 60
  let qs := ((List.range' 4 60).filter (fun q => hs.any (fun h => h.1 == q)))
  let visits (h : Nat × Nat × SwPkt) : Nat :=
    let d := Tbl.get 0 x.deficit h.1
    let n := s.lenAt o h.2.2
    let v := ceilDiv (n - d) (s.quantum o h.1)
    if h.1 = x.turn then v else max 1 v
  let es := qs.filterMap (fun q => oldest (hs.filter (fun h => h.1 == q)))
  let key (h : Nat × Nat × SwPkt) : Nat := if visits h = 0 then 0 else visits h * 64 + cyc h.1 + 1
  let best := es.foldl (fun (m : Option (Nat × Nat × SwPkt)) h => match m with
    | none => some h
    | some g => if key h < key g then some h else m) none
  best.map (fun b =>
    let after (h : Nat × Nat × SwPkt) : Nat :=
      let turns : Nat := if key b = 0 then 0 else if cyc h.1 ≤ cyc b.1 then visits b else visits b - 1
      Tbl.get 0 x.deficit h.1 + turns * s.quantum o h.1 - (if h.1 = b.1 then s.lenAt o h.2.2 else 0)
    (b, es.foldl (fun t h => Tbl.set 0 t h.1 (after h)) x.deficit))

/-- The next packet of an output (R226, R350): in a plan's slots, READY and ABORT before DATA, oldest first. -/
def State.nextHead (s : State) (o : Nat) : Option ((Nat × Nat × SwPkt) × Tbl Nat) :=
  let hs := s.heads o
  let d := (s.out o).deficit
  let col := hs.filter (fun h => decide (64 ≤ h.1))
  let strict (q : Nat) : Option ((Nat × Nat × SwPkt) × Tbl Nat) := (oldest (hs.filter (fun h => h.1 == q))).map (fun h => (h, d))
  (((oldest (col.filter (fun h => h.2.2.pkt.ckind != 0))).orElse (fun _ => oldest col)).map (fun h => (h, d))).orElse fun _ =>
  (strict 0).orElse fun _ => (strict 1).orElse fun _ => (strict 2).orElse fun _ => (strict 3).orElse fun _ =>
  s.weighted o (hs.filter (fun h => decide (4 ≤ h.1) && decide (h.1 < 64)))

/-! ### Sending (R192, R229, R241 to R244, R263, R383) -/

/-- Whether a packet that waited for some ns is marked (R229); between the limits the choice is free. -/
def State.marks (s : State) (o q wait : Nat) : Bool × State :=
  let lo := s.fld F.SCH_MARK_MARK_MIN o * 10
  let hi := s.fld F.SCH_MARK_MARK_MAX o * 10
  if q < 2 ∨ 64 ≤ q ∨ wait < lo then (false, s)
  else if hi ≤ lo ∨ hi < wait then (true, s)
  else if wait = lo then (false, s)
  else
    let x := s.pick 2
    (x.1 == 1 || wait == hi, x.2)

/-- A Beacon residence above 600 ns (R244). -/
def State.beaconLate (s : State) (o res : Nat) : State :=
  if res ≤ 600 then s
  else
    let s := ((s.setFld F.SCH_BEACON_LATE_VALID 1).setFld F.SCH_BEACON_LATE_OUTPUT o).count F.SCH_BEACON_LATE_COUNT
    let x := s.out o
    if x.lateAt.all (fun t => decide (t + 1000000 ≤ s.now)) then (s.setOut o { x with lateAt := some s.now }).faultL 4 0x40 o res 0 else s

/-- Bytes per ns of an output, Ethernet SPEED included. -/
def State.rateOf (s : State) (o : Nat) : Nat := if 128 ≤ o ∧ o < 136 then s.ethRate (o - 128) else outRate o

/-- Whether the hop of a head is one outside the escape hop. -/
def SwPkt.adaptive (k : SwPkt) : Bool := !k.escape && !k.eject && k.pkt.type != Pk.COL_DATA

/-- Charge the credit of a packet to its output, and count the hop. -/
def State.chargeOut (s : State) (o : Nat) (k : SwPkt) (res : Bool) : State :=
  if 128 ≤ o ∧ o < 136 then s
  else
    let s := s.modPort o (fun x => { x with sent := bump x.sent (2 * k.vc + b2n res) k.pkt.flits })
    if o < 128 then
      let s := if res then s.count F.SWT_COUNT_COUNT 1 else s
      if k.adaptive then s.count F.SWT_COUNT_COUNT 2 else s
    else s

/-- A packet's flits go out on a fabric port (R259, R261, R263): ATTR marks the poisoned ones, a payload flit the buffer's ECC condemns among
them; a header it condemns goes in a codeword that its FCRC condemns. -/
def State.sendPacket (s : State) (o : Nat) (marks : List Nat) (res : Bool) (p : Packet) (ecc : Nat) (start : Rat) : State :=
  let hit := ecc == 1 && decide (1 < p.flits)
  let m := if hit then s.pick (p.flits - 1) else (0, s)
  let marks := if hit then marks ++ [m.1 + 1] else marks
  let s := m.2.txPut o start (packetSlots p marks res (ecc == 2))
  if ecc = 2 then s.emit (.badCodeword o) else s.emit (.packet o { p with poison := p.poison || hit } res)

/-- A KT packet leaves in a frame (R383). One that fails the check of the buffer ECC after it has begun is ended with an inverted FCS and counted;
its source is read again and it is sent once more, and a second failure ends its descriptor (R392). (log entry 144) -/
def State.sendKt (s : State) (e : Nat) (k : SwPkt) (p : Packet) (bad : Bool) : State :=
  let f := s.ktFrame e p
  let s := (s.emit (.frame e (if bad then badFcs f else f))).ethCount e 1
  if !bad then s.leftPort k
  else match k.msg with
    | none => if k.again then s else (s.ethCount e 8).enqueue (128 + e) { k with again := true }
    | some id => match s.msg id with
      | none => s
      | some m =>
        if m.unfit.contains k.psn then s.endMsg id Stat.MEMORY_ERROR
        else ((s.ethCount e 8).putMsg id { m with unfit := k.psn :: m.unfit }).resend id k.psn

/-- What a started packet does: it crosses a bridge into the input list at its far end, leaves on its port, or leaves in a frame. `ecc` is
what the check of the buffer ECC finds while it is sent (R263): 1 a payload flit, 2 the header flit, either of which fails a frame (R392);
`start` the moment it starts. -/
def State.depart (s : State) (o : Nat) (k : SwPkt) (res : Bool) (p : Packet) (ecc : Nat) (start : Rat) : State :=
  if 136 ≤ o then
    let i := bridgeInput o
    let s := s.freeIn k
    s.setInq i (s.inqOf i ++ [{ k with input := i, inVc := k.vc, inRes := res }])
  else
    let s := s.freeIn k
    if 128 ≤ o then s.sendKt (o - 128) k p (ecc == 1 || ecc == 2)
    else
      let s := s.sendPacket o k.marks res p ecc start
      let s := if p.beacon then s.beaconLate o (s.now - k.rel) else s
      s.leftPort k

/-- Start head h of output o. -/
def State.startPacket (s : State) (o : Nat) (h : Nat × Nat × SwPkt) (deficit : Tbl Nat) (aes : Option AesHit) (ecc : Nat) : State :=
  let q := h.1
  let k := h.2.2
  let n := s.lenAt o k
  let res := (s.poolFor o k.vc k.pkt.flits k.escape).getD false
  let x := s.out o
  let start := (s.startMoment o n (if 64 ≤ q then q - 63 else 0)).getD s.now
  let rest := (Tbl.get [] x.lists h.2.1).erase k
  let lists := Tbl.set [] x.lists h.2.1 rest
  -- a queue left empty keeps no deficit
  let deficit := if lists.any (fun e => e.1 / 16 == q) then deficit else Tbl.set 0 deficit q 0
  let caps := if 1 ≤ q ∧ q ≤ 3 then drawBucket x.caps q (s.capRate o q) 16384 s.now n else x.caps
  let s := s.setOut o { x with lists := lists, deficit := deficit, caps := caps, turn := if 4 ≤ q ∧ q < 64 then q else x.turn }
  match aes.filter (fun _ => k.pkt.enc), k.msg with
  | some a, some id => ((s.freeIn k).coreMiss a.core 1 k.part).endMsg id Stat.CIPHER_FAULT
  | _, _ =>
    let m := s.marks o q (s.now - k.at1)
    let s := if m.1 then m.2.event 0x22 o 1 else m.2
    let s := s.setOut o { s.out o with busyTo := start + (n : Rat) / (s.rateOf o : Rat), cur := some k }
    let s := (s.event 0x20 o (ceilDiv n 64)).bwTx o n
    if k.frame != [] then
      s.setSw { s.sw with ethShape := drawBucket s.sw.ethShape k.part (s.fld F.SCH_PART_ETH_SHAPE_RATE k.part) (s.fld F.SCH_PART_ETH_SHAPE_BURST k.part * 1024) s.now n }
    else
      let s := if 128 ≤ o ∧ o < 136 then s.setOut o { s.out o with cur := none } else s
      let pkt := if m.1 then { k.pkt with w0 := setBits k.pkt.w0 50 1 1 } else k.pkt
      if 136 ≤ o then (s.chargeOut o k res).depart o { k with pkt := pkt } res pkt ecc start
      else
        match aged pkt (b2n k.dimIn.isSome) (s.now - k.at0 + k.delta) with
        | none => ((s.setOut o { s.out o with busyTo := x.busyTo, cur := none }).discard k).count F.TRN_COUNT_COUNT 2
        | some p => (s.chargeOut o k res).depart o k res p ecc start

/-- OUTPUT_PACKET_START (R203, R225 to R229, R244, R248, R350, R383): an output that can start a packet sends the next eligible head. -/
def execOutputPacketStart (t o : Nat) (aes : Option AesHit) (ecc : Nat) (s : State) : Host.Outcome State Fault Refusal :=
  let s := (s.at t).purgeLate
  let x := s.out o
  if (s.now : Rat) + 1 ≤ x.busyTo ∨ (128 ≤ o ∧ o < 136 ∧ x.cur.isSome) then .next s
  else match s.nextHead o with
    | none => .next s
    | some (h, d) => .next (s.startPacket o h d aes ecc)

end Sys2Proof.Machine
end

