-- ==== Sys2Proof/Machine/Training.lean ====
section
/-!
DEFINITION. Fabric links: codewords, credits and frames (R256 to R276), training (R264 to R269), failed ports (R285), the stops of the
route tables (R288 to R290), and the settings and samples of the scheduler (R221, R234, R242, R251).
-/
namespace Sys2Proof.Machine

/-! ### States of a port (R264, R267, R285) -/

/-- STATE of FAB_PORT_STATUS. -/
def PortState.code : PortState → Nat
  | .disabled => 0 | .detect => 1 | .align => 2 | .negotiate => 3 | .measure => 4 | .sync => 5 | .up => 6 | .mgtOnly => 7 | .failed => 8

/-- Whether an optical engine is ON (R254, R264). -/
def Engine.none : Engine := ⟨false, 0, 0, false⟩
def State.engine (s : State) (e : Nat) : Engine := Tbl.get Engine.none s.sw.engines e
def State.setEngine (s : State) (e : Nat) (x : Engine) : State := s.setSw { s.sw with engines := Tbl.set Engine.none s.sw.engines e x }
def State.engineOn (s : State) (p : Nat) : Bool := (s.dom (engineDom (p / 4))).state == .on && !(s.engine (p / 4)).failed

/-- FAB_ENGINE_STATUS of an engine (R291): STATE 2 FAILED, 1 ON, 0 OFF; while it is ON its sensors read what they read. (log entry 124) -/
def State.engineWord (s : State) (e : Nat) : Word :=
  let x := s.engine e
  let on := !x.failed && (s.dom (engineDom e)).state == .on
  let temp := if on then Config.engineTemp e s.now else x.temp
  let laser := if on && !x.laserLow then Config.laserPower e s.now else x.laser
  word (temp % 256 * 2 ^ 24 + laser % 65536 * 2 ^ 8 + b2n x.laserLow * 4 + (if x.failed then 2 else if on then 1 else 0))

/-- Put a packet that waited on an output back at its input, to be routed again (R267). -/
def State.reroute (s : State) (k : SwPkt) : State :=
  let k := { k with out := none, eject := false }
  s.setInq k.input (k :: s.inqOf k.input)

/-- The waiting packets of an output, but collective ones, are routed again as if they had just arrived; answers how many. -/
def State.rerouteAll (s : State) (o : Nat) : Nat × State :=
  let x := s.out o
  let ks := (x.lists.filter (fun e => decide (e.1 < 1024))).flatMap (·.2)
  let s := s.setOut o { x with lists := x.lists.filter (fun e => decide (1024 ≤ e.1)), deficit := [] }
  (ks.length, ks.reverse.foldl State.reroute s)

/-- The idle timers of a port's engine and quadrant start again (R480, R481). -/
def State.portIdles (s : State) (p : Nat) : State := (s.idleFrom (engineDom (p / 4))).idleFrom (quadDom (p / 16))

/-- A port leaves UP or MGT_ONLY for another state (R261, R267, R285): the packet being sent is cut short, waiting packets are routed
again, the input's partial packet is discarded, and a fault record is written. -/
def State.leaveUp (s : State) (p : Nat) (tgt : PortState) : State :=
  let s := s.portIdles p
  let x := s.port p
  if !x.carries then s.setPort p { x with state := tgt }
  else
    let wasUp := x.state == .up
    let s := s.txFlush p false
    let s := s.modPort p (fun x => { x with
      state := tgt, rxHead := none, rxLeft := 0, rxBytes := [], rxPoison := [], parseLost := false, downAt := some s.now, tx := [] })
    let o := s.out p
    let cut := decide ((s.now : Rat) < o.busyTo) && o.cur.isSome
    let s := s.setOut p { o with cur := none, busyTo := if cut then (s.now : Rat) else o.busyTo }
    let s := if cut then (s.emit (.cut p)).count F.SWT_COUNT_COUNT 4 else s
    let y := s.rerouteAll p
    let s := y.2.count F.SWT_COUNT_COUNT 3 0 y.1
    if wasUp then s.faultL 1 0x10 p tgt.code (if x.peerValid then x.peerNode else 0) else s

/-- A port fails (R264): REASON and a fault record. -/
def State.failPort (s : State) (p reason : Nat) : State :=
  ((s.leaveUp p .failed).modPort p (fun x => { x with reason := reason })).faultL 1 0x11 p reason 0

/-- A retrain (R267): back to DETECT, or FAILED past RETRAIN_LIMIT in one second. -/
def State.retrain (s : State) (p : Nat) : State :=
  let x := s.port p
  let h := (x.history.filter (fun t => decide (s.now < t + 1000000000))) ++ [s.now]
  let s := s.setPort p { x with retrains := satAdd x.retrains 1 8, history := h, ueTimes := [] }
  if max 1 (s.fld F.FAB_LINK_CFG_RETRAIN_LIMIT) < h.length then s.failPort p 5
  else (s.leaveUp p .detect).modPort p (fun x => { x with reason := 0 })

/-! ### Credit flits (R260, R262, R271) -/

/-- A CREDIT flit has come (R271): the flits the far end has freed; counters are modulo 2^20. -/
def State.creditIn (s : State) (p : Nat) (cs : List Nat) : State :=
  let x := s.port p
  if x.carries then
    s.setPort p { x with ret := (List.range 20).foldl (fun r i =>
      bump r i ((cs.getD i 0 % 2 ^ 20 + 2 ^ 20 - Tbl.get 0 r i % 2 ^ 20) % 2 ^ 20)) x.ret }
  else s

/-- CREDIT. -/
def execCredit (t p : Nat) (cs : List Nat) (s : State) : Host.Outcome State Fault Refusal := .next ((s.at t).creditIn p cs)

/-- An AUDIT flit has come (R262): flits sent and neither accepted nor on their way were lost; they count as freed. -/
def State.auditIn (s : State) (p : Nat) (cs : List Nat) : State :=
  let x := s.port p
  let d (i : Nat) : Nat := (cs.getD i 0 % 2 ^ 20 + 2 ^ 20 - Tbl.get 0 x.rx i % 2 ^ 20) % 2 ^ 20
  let n := ((List.range 20).map d).foldl (· + ·) 0
  if !x.carries || n == 0 then s
  else
    (s.setPort p { x with
      rx := (List.range 20).foldl (fun r i => bump r i (d i)) x.rx
      freed := (List.range 20).foldl (fun r i => bump r i (d i)) x.freed
      lostFlits := satAdd x.lostFlits n 32 }).sendCredit p

/-- AUDIT. -/
def execAudit (t p : Nat) (cs : List Nat) (s : State) : Host.Outcome State Fault Refusal := .next ((s.at t).auditIn p cs)

/-- CREDIT_FLIT_TIMER (R260): 16 codewords, 51.2 ns, after the previous CREDIT flit. -/
def execCreditFlitTimer (t p : Nat) (s : State) : Host.Outcome State Fault Refusal :=
  let s := s.at t
  let x := s.port p
  .next (if x.carries && decide (256 ≤ 5 * (s.now - x.creditAt)) then s.sendCredit p else s)

/-- FRAME_BOUNDARY (R260, R275, R341): a frame of output o ends; a port sends AUDIT; the waiting calendar changes take effect, and
loads that waited for nothing else complete. -/
def execFrameBoundary (t o : Nat) (s : State) : Host.Outcome State Fault Refusal :=
  let s := s.at t
  let s := if o < 128 && (s.port o).carries then s.sendFlit o (ctlFlit 2 (ctrBytes (s.port o).sent)) else s
  let x := s.out o
  if x.calNext.isEmpty then .next s
  else
    let s := s.setOut o { x with cal := x.calAfter, calNext := [] }
    .next (s.col.plans.foldl (fun s e => s.planReady e.1 e.2) s)

/-- A HEALTH flit has come (R260, R269): the far end's codeword counts, in version 1.1. -/
def State.healthIn (s : State) (p c u : Nat) : State :=
  let x := s.port p
  if x.carries && x.version == 0x11 then s.setPort p { x with peerCorrected := c % 2 ^ 32, peerUncorrectable := u % 2 ^ 32 } else s

/-- HEALTH. -/
def execHealth (t p c u : Nat) (s : State) : Host.Outcome State Fault Refusal := .next ((s.at t).healthIn p c u)

/-- HEALTH_FLIT_TIMER (R260): once a millisecond in version 1.1. -/
def execHealthFlitTimer (t p : Nat) (s : State) : Host.Outcome State Fault Refusal :=
  let s := s.at t
  let x := s.port p
  .next (if x.carries && x.version == 0x11 && decide (x.healthAt + 1000000 ≤ s.now) then
      (s.setPort p { x with healthAt := s.now }).sendFlit p (ctlFlit 9 (leBytes 4 x.corrected ++ leBytes 4 x.uncorrectable))
    else s)

/-! ### Training (R264 to R270, R274) -/

/-- FAB_CAPS.VERSIONS by stepping (R269, R291). -/
def State.fabVersions (s : State) : Nat := if s.chip.stepping = 0xB0 then 3 else 1

/-- A TRAIN flit (R265). -/
def State.sendTrain (s : State) (p : Nat) (frameStart : Bool) : State :=
  let x := s.port p
  let node := match s.node with
    | some n => 2 ^ 15 + n
    | none => 0
  let b : List Byte := leBytes 2 s.fabVersions ++ leBytes 1 x.version ++ leBytes 2 node ++ leBytes 1 p
    ++ leBytes 1 (s.portDim p + 8 * s.fld F.FAB_PORT_CFG_DIR p)
  s.sendFlit p (b ++ [8] ++ leBytes 2 (s.fld F.FAB_LINK_CFG_RESERVE) ++ [BitVec.ofNat 8 (b2n frameStart)] ++ List.replicate 53 0)

/-- An ECHO flit (R260). (log entry 52) -/
def State.sendEcho (s : State) (p : Nat) : State := s.sendFlit p (ctlFlit 3 (leBytes 6 (s.now % 2 ^ 48)))

/-- The counts of a link begin anew (R270, R274): its credits, and slot 0 of frame 0 in the codeword that follows. -/
def State.startLink (s : State) (p : Nat) : State :=
  let s := (s.txFlush p true).modPort p (fun x => { x with
    sent := [], ret := [], rx := [], freed := [], creditAt := s.now, healthAt := s.now, ueTimes := []
    ownReserve := max 66 (s.fld F.FAB_LINK_CFG_RESERVE) })
  s.setOut p { s.out p with frame0 := (s.now : Rat) + 16 / 5, cal := (s.out p).calAfter, calNext := [] }

/-- NEGOTIATE begins. -/
def State.negotiate (s : State) (p : Nat) : State :=
  ((s.leaveUp p .negotiate).modPort p (fun x => { x with version := 0, frameSeen := false, echoes := 0, minDelay := none })).sendTrain p false

/-- The link of port p has come UP: a member forgets the verdict on it (R425). (log entry 112) -/
def State.linkHeals (s : State) (p : Nat) : State :=
  let own := s.node.getD 0
  let x := s.port p
  let id := if own < x.peerNode then (own, p) else (x.peerNode, x.peerPort)
  { s with kpr := { s.kpr with susp := s.kpr.susp.filter (fun y => !(y.kind == 2 && (y.node, y.port) == id)) } }

/-- SYNC is over once both ends have sent FRAME_START (R274). -/
def State.trySync (s : State) (p : Nat) : State :=
  let x := s.port p
  if x.state == .sync && x.frameSeen then (s.setPort p { x with state := .up, reason := 0, downAt := none }).linkHeals p else s

/-- What the peer's TRAIN says of itself. -/
structure Peer where
  versions : Nat
  valid    : Bool
  node     : Nat
  port     : Nat
  dim      : Nat
  dir      : Nat
  reserve  : Nat
  deriving DecidableEq, Repr

/-- The identity check of R266: none, or the REASON. -/
def State.identityBad (s : State) (p : Nat) (q : Peer) : Option Nat :=
  match s.node with
  | none => some 2
  | some n =>
    if !q.valid then some 2
    else if q.node = n then some 3
    else
      let d := s.portDim p
      let dir := s.fld F.FAB_PORT_CFG_DIR p
      if q.dim ≠ d ∨ q.dir = dir then some 4
      else if 5 < d then none
      else
        let k := s.ringSize d
        let want := if dir = 0 then (s.coord d n + 1) % k else (s.coord d n + k - 1) % k
        if s.coord d q.node = want then none else some 4

/-- NEGOTIATE with the peer's TRAIN (R265, R266). -/
def State.negotiated (s : State) (p : Nat) (q : Peer) : State :=
  let both := Nat.land s.fabVersions q.versions
  let s := s.modPort p (fun x => { x with
    peerValid := q.valid, peerNode := if q.valid then q.node else 0, peerPort := q.port, peerReserve := q.reserve })
  if both % 4 = 0 then s.failPort p 1
  else
    let v := if both.testBit 1 then 0x11 else 0x10
    let s := s.modPort p (fun x => { x with version := v })
    match s.identityBad p q with
    | some r => ((s.startLink p).modPort p (fun x => { x with state := .mgtOnly, reason := r, downAt := none })).sendTrain p false
    | none => ((s.modPort p (fun x => { x with state := .measure, reason := 0, echoes := 0, minDelay := none })).sendTrain p false).sendEcho p

/-- A TRAIN flit has come (R264 to R266, R270, R274). -/
def State.trainIn (s : State) (p : Nat) (q : Peer) (frameStart : Bool) : State :=
  let x := s.port p
  if x.state = .negotiate then s.negotiated p q
  else if x.state = .mgtOnly then
    if x.peerValid ≠ q.valid ∨ (q.valid ∧ x.peerNode ≠ q.node) ∨ x.peerPort ≠ q.port ∨ (s.identityBad p q) ≠ some x.reason then
      (s.negotiate p).negotiated p q
    else s
  else if frameStart ∧ (x.state = .measure ∨ x.state = .sync) then (s.setPort p { x with frameSeen := true, rxSlot := 0 }).trySync p
  else s

/-- TRAIN. -/
def execTrain (t p versions : Nat) (valid : Bool) (node port dim dir reserve : Nat) (frameStart : Bool) (s : State) :
    Host.Outcome State Fault Refusal := .next ((s.at t).trainIn p ⟨versions, valid, node, port, dim, dir, reserve⟩ frameStart)

/-- What a TRAIN flit's bytes say (R265). -/
def Peer.ofFlit (b : List Byte) : Peer :=
  let n (o k : Nat) : Nat := leNat (slice b o k)
  ⟨n 0 2, n 3 2 / 2 ^ 15 == 1, n 3 2 % 2 ^ 14, n 5 1, n 6 1 % 8, n 6 1 / 8 % 2, n 8 2⟩

/-- An ECHO flit has come (R260): answered at once; the hold time is 0. -/
def State.echoIn (s : State) (p time : Nat) : State :=
  let st := (s.port p).state
  if st = .measure ∨ st = .sync ∨ st = .negotiate then s.sendFlit p (ctlFlit 4 (leBytes 6 (time % 2 ^ 48) ++ [0, 0] ++ leBytes 6 0)) else s

/-- ECHO. -/
def execEcho (t p time : Nat) (s : State) : Host.Outcome State Fault Refusal := .next ((s.at t).echoIn p time)

/-- An ECHO_RSP flit has come (R268): one sample of the delay; after 64, δ is the smallest, rounded up, and SYNC sends FRAME_START, with slot 0 of
frame 0 in the codeword that follows (R274). -/
def State.echoRspIn (s : State) (p echoed hold : Nat) : State :=
  let x := s.port p
  if x.state ≠ .measure then s
  else
    let d : Rat := (((s.now + 2 ^ 48 - echoed) % 2 ^ 48 - hold : Nat) : Rat) / 2
    let m := match x.minDelay with
      | none => d
      | some a => min a d
    let n := x.echoes + 1
    if n < 64 then (s.setPort p { x with echoes := n, minDelay := some m }).sendEcho p
    else
      let s := s.setPort p { x with echoes := n, minDelay := some m, delay := m.ceil.toNat, state := .sync }
      ((s.sendTrain p true).startLink p).trySync p

/-- ECHO_RSP. -/
def execEchoRsp (t p echoed hold : Nat) (s : State) : Host.Outcome State Fault Refusal := .next ((s.at t).echoRspIn p echoed hold)

/-- What a link-control flit does (R260); IDLE and reserved TYPEs nothing. -/
def State.ctlIn (s : State) (p : Nat) (b : List Byte) : State :=
  let n (o k : Nat) : Nat := leNat (slice b o k)
  match (b.getD 7 0).toNat with
  | 1 => s.creditIn p (flitCounters b)
  | 2 => s.auditIn p (flitCounters b)
  | 3 => s.echoIn p (n 8 6)
  | 4 => s.echoRspIn p (n 8 6) (n 16 6)
  | 8 => s.trainIn p (Peer.ofFlit b) ((n 10 1).testBit 0)
  | 9 => s.healthIn p (n 8 4) (n 12 4)
  | _ => s

/-! ### Receiving codewords (R257 to R263, R274) -/

/-- The virtual channel a packet was sent on by the far end of port p (R280). -/
def State.rxVc (s : State) (p : Nat) (k : Packet) : Nat :=
  let d := s.portDim p
  if 5 < d ∨ (s.port p).state ≠ .up then 2 * k.cls + 1
  else
    let dir := 3 - s.portDir p
    let n := s.ringSize d
    let x := if s.portDir p = 1 then (s.ownCoord d + 1) % n else (s.ownCoord d + n - 1) % n
    2 * k.cls + datelineBit x (s.coord d k.dst) dir n (if dir = 1 then s.fld F.SWT_TOPO_DL_PLUS d else s.fld F.SWT_TOPO_DL_MINUS d)

/-- A whole packet is in port p's input buffer (R192, R261, R264): into its input list, or to the Lamp room on an MGT_ONLY port; one past
its lifetime is discarded. -/
def State.rxDone (s : State) (p : Nat) : State :=
  let x := s.port p
  match x.rxHead with
  | none => s
  | some (h, res) =>
    let m := 64 * ceilDiv h.plen 64
    let k := { h with pay := x.rxBytes.take h.plen, trailer := if h.enc then slice x.rxBytes m 64 else [], poison := !x.rxPoison.isEmpty }
    let s := (s.setPort p { x with rxHead := none, rxBytes := [], rxPoison := [] }).bwRx p k.len
    let y := { SwPkt.ofPacket k 0 s.now k.len with
      input := p, inVc := s.rxVc p k, inRes := res, at0 := x.rxAt, rel := x.rxAt, delta := x.delay, dimIn := some (s.portDim p), marks := x.rxPoison }
    match aged k 1 x.delay with
    | none => (s.freeIn y).count F.TRN_COUNT_COUNT 2
    | some k' =>
      if x.state = .mgtOnly then
        if k.cls = Cls.MGT then
          let s := (s.freeIn y).count F.SWT_COUNT_COUNT 5
          s.setSw { s.sw with ejected := s.sw.ejected ++ [(2 ^ 63 + p, k')] }
        else s.freeIn y
      else s.setInq p (s.inqOf p ++ [y])

/-- Count a flit accepted into the buffer (R262), and finish the packet with its last one. -/
def State.rxFlit (s : State) (p : Nat) (bytes : List Byte) (poison : Bool) : State :=
  let x := s.port p
  match x.rxHead with
  | none => s
  | some (h, res) =>
    let i := 2 * s.rxVc p h + b2n res
    let s := s.setPort p { x with
      rx := bump x.rx i 1, rxLeft := x.rxLeft - 1, rxBytes := x.rxBytes ++ bytes
      rxPoison := if poison then x.rxPoison ++ [h.flits - x.rxLeft] else x.rxPoison }
    if x.rxLeft ≤ 1 then s.rxDone p else s

/-- One slot of a good codeword (R259): a flit of the packet in progress, a link-control flit, or, on a port that carries packets, a header.
(log entry 53) -/
def State.rxSlot (s : State) (p : Nat) (attr : Bool) (bytes : List Byte) : State :=
  let x := s.port p
  if x.rxHead.isSome then s.rxFlit p bytes attr
  else if (bytes.getD 7 0).toNat / 16 = 0 then s.ctlIn p bytes
  else if !x.carries then s
  else
    let h := Packet.ofBytes bytes
    let h := { h with pay := [], trailer := [] }
    let s := s.setPort p { x with rxHead := some (h, attr), rxLeft := h.flits, rxBytes := [], rxPoison := [], rxAt := s.now }
    s.rxFlit p [] false

/-- The slots of a good codeword from slot i on. -/
def State.rxSlots (s : State) (p ctl : Nat) : Nat → List (List Byte) → State
  | _, [] => s
  | i, b :: bs => State.rxSlots (s.rxSlot p (ctl.testBit (6 + i)) b) p ctl (i + 1) bs

/-- An uncorrectable codeword (R261): the flits of a known packet are kept and marked; the rest is discarded, and the parse position is
lost with it. -/
def State.rxBad (s : State) (p : Nat) (c : Codeword) : State :=
  let x := s.port p
  let n := if x.rxHead.isSome then min 10 x.rxLeft else 0
  let s := ((List.range n).map (fun i => c.slots.getD i (List.replicate 64 0))).foldl (fun s b => s.rxFlit p b true) s
  if n < 10 then s.modPort p (fun x => { x with parseLost := true }) else s

/-- Whether a port looks at codewords: from ALIGN on (R264). -/
def PortState.listens : PortState → Bool
  | .disabled | .detect | .failed => false
  | .align | .negotiate | .measure | .sync | .up | .mgtOnly => true

/-- CODEWORD_RECEIVED (R257 to R263): judged and counted from ALIGN on, its slot number kept (R274), and its flits taken from NEGOTIATE on. -/
def State.codeword (s : State) (p : Nat) (c : Codeword) : State :=
  let x := s.port p
  let slot := (x.rxSlot + 1) % 1024
  if !x.state.listens then s
  else if cwBad c then
    let ts := if x.carries then (x.ueTimes.filter (fun t => decide (s.now < t + 1000000))) ++ [s.now] else x.ueTimes
    let s := (s.setPort p { x with rxSlot := slot, uncorrectable := satAdd x.uncorrectable 1 32, ueTimes := ts }).event 0x23 p 1
    if x.carries then s.rxBad p c else s
  else
    let s := s.setPort p { x with rxSlot := slot, corrected := if c.corrected then satAdd x.corrected 1 32 else x.corrected }
    let first := bitsN c.ctl 16 4
    if x.state = .align then s
    else if x.parseLost then
      if first < 10 then
        (s.modPort p (fun x => { x with parseLost := false })).rxSlots p c.ctl first (c.slots.drop first)
      else s
    else s.rxSlots p c.ctl 0 c.slots

def execCodewordReceived (t p : Nat) (c : Codeword) (s : State) : Host.Outcome State Fault Refusal :=
  let s := s.at t
  .next (if p < s.nPorts then s.codeword p c else s)

/-- FAB_LANE_LOCK (R264): the light of a port whose engine is ON. -/
def execFabLaneLock (t p : Nat) (s : State) : Host.Outcome State Fault Refusal :=
  let s := s.at t
  .next (if (s.port p).state = .detect ∧ s.engineOn p then s.modPort p (fun x => { x with state := .align }) else s)

/-- FAB_ALIGN_DONE (R264). -/
def execFabAlignDone (t p : Nat) (s : State) : Host.Outcome State Fault Refusal :=
  let s := s.at t
  .next (if (s.port p).state = .align then s.negotiate p else s)

/-- FAB_LOCK_LOST (R267): an UP or MGT_ONLY port retrains; one that trains starts over. -/
def execFabLockLost (t p : Nat) (s : State) : Host.Outcome State Fault Refusal :=
  let s := s.at t
  match (s.port p).state with
  | .up => .next (s.retrain p)
  | .mgtOnly => .next (s.retrain p)
  | .disabled => .next s
  | .failed => .next s
  | _ => .next ((s.portIdles p).modPort p (fun x => { x with state := .detect }))

/-- UE_LIMIT_REACHED (R267). -/
def execUeLimitReached (t p : Nat) (s : State) : Host.Outcome State Fault Refusal :=
  let s := s.at t
  let x := s.port p
  let n := (x.ueTimes.filter (fun u => decide (s.now < u + 1000000))).length
  .next (if x.state = .up ∧ max 1 (s.fld F.FAB_LINK_CFG_UE_LIMIT) ≤ n then s.retrain p else s)

/-- The four ports of an engine go dark (R254, R264). -/
def State.engineDark (s : State) (e : Nat) : State :=
  (List.range' (4 * e) 4).foldl (fun s p =>
    if (s.port p).state = .disabled ∨ (s.port p).state = .failed then s else s.failPort p 6) s

/-- An engine goes OFF (R264): its ports are DISABLED; a FAILED one stays so until RETRAIN is written. -/
def State.engineOff (s : State) (e : Nat) : State :=
  (List.range' (4 * e) 4).foldl (fun s p => if (s.port p).state = .failed then s else s.leaveUp p .disabled) s

/-- An engine fails (R254, R533): it stays so until the next start. -/
def State.engineFail (s : State) (e : Nat) : State :=
  if (s.engine e).failed then s
  else
    let s := s.setEngine e { s.engine e with failed := true }
    let s := s.setDom (engineDom e) { s.dom (engineDom e) with state := .failed, idleAt := none }
    (s.faultL 1 0x12 e (s.engineWord e).toNat 0).engineDark e

/-- LASER_LOST (R254): loss of the laser input, or a fault in a die of the engine. -/
def execLaserLost (t e : Nat) (fault : Bool) (s : State) : Host.Outcome State Fault Refusal :=
  let s := s.at t
  if s.nEngines ≤ e then .next s
  else if fault then .next (s.engineFail e)
  else
    let s := s.setEngine e { s.engine e with laserLow := true, laser := Config.laserPower e s.now }
    .next ((s.faultL 1 0x12 e (s.engineWord e).toNat 0).engineDark e)

/-- ENABLE takes a port from DISABLED to DETECT when its engine is ON (R264). -/
def State.tryDetect (s : State) (p : Nat) : State :=
  if (s.port p).state = .disabled ∧ s.flag F.FAB_PORT_CFG_ENABLE p ∧ s.engineOn p then
    s.modPort p (fun x => { x with state := .detect, reason := 0 })
  else s

/-- A write to FAB_PORT_CFG (R264, R267, R288, R290): ROUTE needs STOP_ALL, DIM and DIR the stops of both dimensions (or STOP_ALL), and
are ignored otherwise; a port whose DIM or DIR changes retrains. -/
def State.fabPortCfg (s : State) (p : Nat) (w : Word) : State :=
  let old := s.reg .FAB_PORT_CFG p
  let oldDim := bits old 8 3
  let newDim := bits w 8 3
  let free (d : Nat) : Bool := 5 < d || s.dimStopped d || s.allStopped
  let dimOk := free oldDim && free newDim && newDim != 6
  let w := if dimOk then w else setBits (setBits w 8 3 oldDim) 7 1 (bits old 7 1)
  let w := if s.allStopped then w else setBits w 30 1 (bits old 30 1)
  let moved := bits w 7 4 != bits old 7 4
  let s := s.writeReg .FAB_PORT_CFG p 0 w
  let was := bit old 31
  if was && !bit w 31 then s.leaveUp p .disabled
  else if !was && bit w 31 then
    if s.engineOn p then s.tryDetect p
    else if s.stage = 6 ∨ s.stage = 7 then (s.wakeWith (engineDom (p / 4)) 6).wakeWith (quadDom (p / 16)) 6 else s
  else if bit w 29 || (moved && (s.port p).state == .up) then
    match (s.port p).state with
    | .disabled => s
    | .failed =>
      -- a port leaves FAILED once its laser is back (log entry 124)
      let on := s.engineOn p
      let s := s.modPort p (fun x => { x with state := if on then .detect else .disabled, reason := 0, history := [] })
      if on then s.setEngine (p / 4) { s.engine (p / 4) with laserLow := false } else s
    | .up => s.retrain p
    | .mgtOnly => s.retrain p
    | _ => (s.portIdles p).modPort p (fun x => { x with state := .detect })
  else if moved && (s.port p).state == .mgtOnly then s.negotiate p
  else s

/-! ### Route stops (R288) -/

/-- A write to SWT_ROUTE_CTRL: STOP and STOP_ALL; packets that waited behind a stop now lifted are routed under the tables as they
stand. (log entry 54) -/
def State.routeStop (s : State) (w : Word) : State :=
  let was := s.fld F.SWT_ROUTE_CTRL_STOP
  let wasAll := s.flag F.SWT_ROUTE_CTRL_STOP_ALL
  let s := s.writeReg .SWT_ROUTE_CTRL 0 0 w
  let lifted (p : Nat) : Bool :=
    (wasAll && !bit w 31) || (was.testBit (s.portDim p) && !(bits w 0 6).testBit (s.portDim p))
  ((List.range s.nPorts).filter lifted).foldl (fun s p => (s.rerouteAll p).2) s

/-- WAITING of SWT_DRAIN_STATUS (R288): packets held whose next hop is in dimension d. -/
def State.drainCount (s : State) (d : Nat) : Nat :=
  let next (k : SwPkt) : Bool := match k.out with
    | some o => o < 128 && s.portDim o == d
    | none => k.frame == [] && s.node != some k.pkt.dst && (s.openDims k.pkt.dst).contains d
  ((s.sw.inq.flatMap (·.2) ++ s.sw.outs.flatMap (fun e => e.2.lists.flatMap (·.2))).filter next).length

/-! ### Settings of the scheduler and the transport (R221, R234, R242) -/

/-- SCH_BEACON_INJ_WRITE (R234): ignored below the reserved rate. -/
def State.beaconInj (s : State) (w : Word) : State :=
  if bits w 32 32 < s.beaconTotal then s
  else
    let s := s.setSw { s.sw with inj := ⟨s.injLevel, s.now⟩ }
    s.writeReg .SCH_BEACON_INJ 0 0 w

def execSchBeaconInjWrite (t : Nat) (w : Word) (s : State) : Host.Outcome State Fault Refusal := .next ((s.at t).ifServing (fun s => s.beaconInj w))

/-- SCH_BEACON_PORT_WRITE (R242): ignored when it would leave the allowance of output j invalid. -/
def State.beaconPort (s : State) (j : Nat) (w : Word) : State :=
  let burst := bits w 32 16 * 64
  let rate := bits w 0 32
  let cal := (s.out j).calAfter
  if 128 ≤ j ∧ j < 136 then (if burst = 0 ∧ rate = 0 then s.writeReg .SCH_BEACON_PORT j 0 w else s)
  else if s.allowanceOk j burst rate (fun k => Tbl.get 0 cal k == 0) then s.writeReg .SCH_BEACON_PORT j 0 w
  else s

def execSchBeaconPortWrite (t j : Nat) (w : Word) (s : State) : Host.Outcome State Fault Refusal :=
  let s := s.at t
  .next (s.ifServing (fun s => if s.outFitted j then s.beaconPort j w else s))

/-- H ≥ 2 × (70.4 µs + NETDELAY) + 100 µs, in ns (R221). -/
def horizonOk (h netdelay : Nat) : Bool := decide (2 * (70400 + netdelay * 1000) + 100000 ≤ h)

/-- TRN_RETRY_HORIZON_WRITE (R221, R234). -/
def State.horizonWrite (s : State) (w : Word) : State :=
  let h := min (max (bits w 0 11) 400) 2000 * 1000
  let fits := s.qm.qps.all (fun e => e.2.state == .free || !e.2.beacon || horizonFits e.2.burst e.2.rate h)
  if horizonOk h (s.fld F.TRN_ETH_NETDELAY_NETDELAY) && fits then s.writeReg .TRN_RETRY_HORIZON 0 0 w else s

def execTrnRetryHorizonWrite (t : Nat) (w : Word) (s : State) : Host.Outcome State Fault Refusal := .next ((s.at t).ifServing (fun s => s.horizonWrite w))

/-- TRN_ETH_NETDELAY_WRITE (R221). A value of 501 to 1,023 µs acts as it is, where the horizon allows it. (log entry 142) -/
def State.netdelayWrite (s : State) (w : Word) : State :=
  if horizonOk s.horizon (bits w 0 10) then s.writeReg .TRN_ETH_NETDELAY 0 0 w else s

def execTrnEthNetdelayWrite (t : Nat) (w : Word) (s : State) : Host.Outcome State Fault Refusal := .next ((s.at t).ifServing (fun s => s.netdelayWrite w))

/-! ### Depth and delay samples (R251) -/

def QSample.none : QSample := ⟨0, 0, 0, 0⟩

/-- Sample one queue of an output. -/
def Output.sample (x : Output) (len : SwPkt → Nat) (now q : Nat) : QSample :=
  let ks := (x.lists.filter (fun e => e.1 / 16 == q)).flatMap (·.2)
  let depth := min 65535 (ceilDiv ((ks.map len).foldl (· + ·) 0) 64)
  let delay := min 65535 (((ks.map (fun k => now - k.at1)).foldl max 0) / 10)
  let o := Tbl.get QSample.none x.samples q
  ⟨depth, delay, max o.maxDepth depth, max o.maxDelay delay⟩

/-- SCH_SAMPLE_PERIOD (R251): every queue of every output is sampled. -/
def execSchSamplePeriod (t : Nat) (s : State) : Host.Outcome State Fault Refusal :=
  let s := s.at t
  if s.now < s.sw.sampleAt + max 100 (s.fld F.SCH_SAMPLE_CFG_PERIOD) then .next s
  else
    let one (o : Nat) (x : Output) : Output :=
      { x with samples := (List.range 64).foldl (fun t q => Tbl.set QSample.none t q (x.sample (s.lenAt o) s.now q)) x.samples }
    .next (s.sw.outs.foldl (fun s e => s.setOut e.1 (one e.1 e.2)) (s.setSw { s.sw with sampleAt := s.now }))

/-- SCH_SAMPLE_SEL_WRITE (R251): captures one queue's samples; CLEAR resets the maxima after the capture. -/
def State.sampleSel (s : State) (w : Word) : State :=
  let o := bits w 8 8
  let q := bits w 0 6
  let s := s.writeReg .SCH_SAMPLE_SEL 0 0 w
  let x := s.out o
  let v := Tbl.get QSample.none x.samples q
  let s := s.setReg .SCH_SAMPLE_DATA 0 0 (word (v.maxDelay * 2 ^ 48 + v.delay * 2 ^ 32 + v.maxDepth * 2 ^ 16 + v.depth))
  if bit w 31 then s.setOut o { x with samples := Tbl.set QSample.none x.samples q { v with maxDepth := 0, maxDelay := 0 } } else s

def execSchSampleSelWrite (t : Nat) (w : Word) (s : State) : Host.Outcome State Fault Refusal := .next ((s.at t).ifServing (fun s => s.sampleSel w))

end Sys2Proof.Machine
end

