-- ==== Sys2Proof/Machine/Partitions.lean ====
section
/-!
DEFINITION. Partitions (R397 to R408, R430, R431, R540, spec/12_partitions_and_keepers.md): quota records, creation, quota changes, reset and
teardown, and the end of a scrubbing.
-/
namespace Sys2Proof.Machine

/-! ### Quota records (R398, R399) -/

/-- A partition with a record, to read the record's fields by name. -/
def Part.ofQuota (q : Desc) : Part := { Part.none with quota := q }

/-- DATA that names a field: its word and lowest bit (R399). -/
def fieldData (w lo : Nat) : Nat := w * 256 + lo

/-- The first field of a record that is out of range, in the order of the table (R399). (log entry 75) -/
def State.recordBad (s : State) (q : Desc) : Option Nat :=
  let x := Part.ofQuota q
  let above (w lo v m : Nat) : List (Bool × Nat) := [(decide (m < v), fieldData w lo)]
  let ports := 2 ^ s.nAcc
  ((above 0 32 x.qps (s.sized 65536) ++ above 0 0 x.rings (s.sized 65536) ++ above 1 32 x.regions (s.sized 524288)
    ++ [(x.pagesWanted == 0 || decide (s.sized 1048576 < x.pagesWanted), fieldData 1 0)]
    ++ above 2 32 x.blocks (s.sized 1310720) ++ above 3 48 x.groups (s.sized 4096) ++ above 3 32 x.plans (s.sized 16384)
    ++ above 3 16 x.arrays (s.sized 512) ++ above 3 0 x.calSlots 1024
    ++ [(bits q.w4 0 2 != 0, fieldData 4 0), (decide (ports ≤ x.accAllow), fieldData 5 48), (decide (ports ≤ x.expose), fieldData 5 32),
        (bits q.w5 5 27 != 0, fieldData 5 5), (bit q.w5 0, fieldData 5 0), (q.w6 != 0, fieldData 6 0), (q.w7 != 0, fieldData 7 0),
        (decide (130557 < x.qps + x.rings), fieldData 0 32)]).find? (·.1)).map (·.2)

/-- The summed fields, with where they stand and their totals. -/
def State.summed (s : State) : List ((Part → Nat) × Nat × Nat) :=
  [(Part.qps, fieldData 0 32, s.sized 65536), (Part.rings, fieldData 0 0, s.sized 65536), (Part.regions, fieldData 1 32, s.sized 524288),
   (Part.groups, fieldData 3 48, s.sized 4096), (Part.plans, fieldData 3 32, s.sized 16384), (Part.arrays, fieldData 3 16, s.sized 512),
   (Part.calSlots, fieldData 3 0, 1024)]

/-- The first summed field that a record of partition p breaks (R399). -/
def State.sumBad (s : State) (p : Nat) (q : Desc) : Option Nat :=
  let others := (s.parts.filter (fun e => e.1 != p && e.2.state != .free)).map (·.2)
  (s.summed.find? (fun f => decide (f.2.2 < (others.map f.1).foldl (· + ·) 0 + f.1 (Part.ofQuota q)))).map (·.2.1)

/-! ### Table pages (R400, R540) -/

/-- Blocks of one copy of a pool of some pages. -/
def poolBlocks (pages : Nat) : Nat := ceilDiv pages 512

/-- Reserve the blocks k from a up to b of a partition's table-page pool, two copies of each. -/
def State.takePool (s : State) (p a b : Nat) : Option State :=
  if b ≤ a then some s else s.takeMirror (List.range s.nStacks) (b - a) (fun k copy => .tablePool p (a + k) copy)

/-- Release the blocks of a pool from number a on. -/
def State.dropPool (s : State) (p a : Nat) : State :=
  s.releaseUses (fun u => match u with
    | .tablePool q k _ => q == p && decide (a ≤ k)
    | _ => false)

def State.tableOf (s : State) (p : Nat) : Tbl TEntry := Tbl.get [] s.xl.tables p
def State.setTables (s : State) (t : Tbl (Tbl TEntry)) : State := { s with xl := { s.xl with tables := t } }

/-! ### PART_CREATE and PART_QUOTA (R402, R403) -/

/-- A refusal by NO_RESOURCE or QUOTA_IN_USE is counted. -/
def State.quotaRefused (s : State) (r status data : Nat) : State := (s.count F.PRT_COUNT_COUNT 3).admEnd r status data

/-- The record of a PART_CREATE has come. -/
def State.partCreate (s : State) (r : Nat) (x : Rec) (q : Desc) : State :=
  let p := x.desc.part
  let y := s.part p
  if y.state ≠ .free then s.admEnd r Stat.BAD_STATE
  else match s.recordBad q with
  | some d => s.admEnd r Stat.BAD_RECORD d
  | none => match s.sumBad p q with
    | some d => s.quotaRefused r Stat.NO_RESOURCE d
    | none =>
      let n := (Part.ofQuota q).pagesWanted
      match s.takePool p 0 (poolBlocks n) with
      | none => s.admEnd r Stat.NO_GALLERY_SPACE
      | some s =>
        (s.setPart p { state := .active, gen := (y.gen + 1) % 65536, quota := q, halted := false, pages := n, faults := 0, cmds := [] }).admEnd r Stat.SUCCESS

/-- Slots of any one output that a partition's plans reserve, the most (R398, R430). -/
def State.calHeld (s : State) (p : Nat) : Nat :=
  ((((s.plansHeld p).flatMap (fun e => e.2.body.links.map (·.output))).eraseDups).map (fun o => (s.slotsOn o (fun x => x.part == p)).length)).foldl max 0
def State.arraysHeld (s : State) (p : Nat) : Nat := ((s.plansHeld p).map (fun e => e.2.arrays.length)).foldl (· + ·) 0

/-- Whether a new record would take away what a partition holds (R403). -/
def State.inUse (s : State) (p : Nat) (q : Desc) : Bool :=
  let x := Part.ofQuota q
  let t := s.tableOf p
  let locals := t.filter (fun e => e.2.type == 2)
  decide (x.qps < s.qpsHeld p) || decide (x.rings < s.ringsHeld p) || decide (x.regions < s.regionsHeld p)
    || decide (x.blocks < s.blocksHeld p) || decide (x.beaconRate < s.beaconUsed p) || decide (x.groups < s.groupsHeld p)
    || decide (x.plans < (s.plansHeld p).length) || decide (x.arrays < s.arraysHeld p) || decide (x.calSlots < s.calHeld p)
    || t.any (fun e => e.2.type == 1 && decide (x.pagesWanted ≤ e.2.page))
    || locals.any (fun e => match winOf e.2.target with
      | 0 => !x.accAllow.testBit (bitsN e.2.target 44 4)
      | 1 => !x.galleryAllow
      | 2 => !x.hostAllow
      | _ => false)

/-- The entries of a partition's table in its first n pages. -/
def State.keptPages (s : State) (p n : Nat) : Tbl TEntry := (s.tableOf p).filter (fun e => decide (e.1 / 256 < n))

/-- The record of a PART_QUOTA has come: stop, change and restart in one step (R403, R540). -/
def State.partQuota (s : State) (r : Nat) (x : Rec) (q : Desc) : State :=
  let p := x.desc.part
  match s.recordBad q with
  | some d => s.admEnd r Stat.BAD_RECORD d
  | none => match s.sumBad p q with
    | some d => s.quotaRefused r Stat.NO_RESOURCE d
    | none =>
      if s.inUse p q then s.quotaRefused r Stat.QUOTA_IN_USE 0
      else
        let n := (Part.ofQuota q).pagesWanted
        let old := poolBlocks (s.part p).pages
        match s.takePool p old (poolBlocks n) with
        | none => s.admEnd r Stat.NO_GALLERY_SPACE
        | some s => (((s.dropPool p (poolBlocks n)).setTables (Tbl.set [] s.xl.tables p (s.keptPages p n))).modPart p
            (fun y => { y with quota := q, pages := n })).admEnd r Stat.SUCCESS

/-- The 64 B of a record have come, or the read failed. -/
def State.gotQuota (s : State) (r : Nat) (x : Rec) (g : Got) : State :=
  match g with
  | .bad st d => s.admEnd r st d
  | .bytes b => if x.desc.op = Op.PART_CREATE then s.partCreate r x (Desc.ofBytes b) else s.partQuota r x (Desc.ofBytes b)

/-- PART_CREATE (R402): the record is read from its host address. -/
def execPartCreate (t r : Nat) (s : State) : Host.Outcome State Fault Refusal :=
  .next ((s.at t).admRun r Op.PART_CREATE (fun s x =>
    if (s.part x.desc.part).state ≠ .free then s.admEnd r Stat.BAD_STATE
    else (s.admWait r).readHost x.desc.w2.toNat 64 (.admin r)))

/-- PART_QUOTA (R403). -/
def execPartQuota (t r : Nat) (s : State) : Host.Outcome State Fault Refusal :=
  .next ((s.at t).admRun r Op.PART_QUOTA (fun s x => (s.admWait r).readHost x.desc.w2.toNat 64 (.admin r)))

/-- What a partition holds, in a record's layout (R430). -/
def State.holdings (s : State) (p : Nat) : List Byte :=
  let x := s.part p
  wordBytes (word (s.qpsHeld p * 2 ^ 32 + s.ringsHeld p)) ++ wordBytes (word (s.regionsHeld p * 2 ^ 32 + x.pages)) ++
  wordBytes (word (s.blocksHeld p * 2 ^ 32 + s.beaconUsed p)) ++
  wordBytes (word (s.groupsHeld p * 2 ^ 48 + (s.plansHeld p).length * 2 ^ 32 + s.arraysHeld p * 2 ^ 16 + s.calHeld p)) ++
  wordBytes x.quota.w4 ++ wordBytes x.quota.w5 ++ wordBytes 0 ++ wordBytes 0

def descBytes (d : Desc) : List Byte :=
  wordBytes d.w0 ++ wordBytes d.w1 ++ wordBytes d.w2 ++ wordBytes d.w3 ++ wordBytes d.w4 ++ wordBytes d.w5 ++ wordBytes d.w6 ++ wordBytes d.w7

/-- PART_QUERY (R430). -/
def execPartQuery (t r : Nat) (s : State) : Host.Outcome State Fault Refusal :=
  .next ((s.at t).admRun r Op.PART_QUERY (fun s x =>
    (s.writeHost x.desc.w7.toNat (descBytes (s.part x.desc.part).quota ++ s.holdings x.desc.part)).admEnd r Stat.SUCCESS))

/-! ### Discarding placements (R71, R134, R207, R406) -/

/-- Discard a placement that has not met R26: its bit is cleared, and its region counts one packet fewer. -/
def State.dropPlace (s : State) (id : Nat) (x : Placement) : State :=
  let s := { s with io := { s.io with places := Tbl.del s.io.places id } }
  let s := match x.why with
    | .packet key psn _ _ => s.uncountPacket key psn
    | _ => s
  match x.region with
  | some i => s.setRegion i { s.region i with busy := (s.region i).busy - 1 }
  | none => s

def State.dropPlaces (s : State) (p : Placement → Bool) : State :=
  (s.io.places.filter (fun e => p e.2)).foldl (fun s e => s.dropPlace e.1 e.2) s

/-- Drop what serves accepted requests to regions, where a test of the region's index holds: the gathering operations, and the requests that
wait. -/
def State.dropServes (s : State) (p : Nat → Bool) : State :=
  { s with
    waiting := s.waiting.filter (fun e => match e.2 with
      | .accepted _ _ _ idx => !p idx
      | _ => true)
    io := { s.io with builds := s.io.builds.filter (fun e => match e.2.why with
    | .readRsp req _ => !p (keyIdx req.key)
    | .atomicRemote req => !p (keyIdx req.key)
    | _ => true) } }

/-! ### Partition reset (R406) -/

/-- The regions a partition owns in a state. -/
def State.regionsIn (s : State) (p : Nat) (st : RgnState) : List Nat :=
  (s.xl.rgn.filter (fun e => e.2.owner == p && e.2.state == st)).map (·.1)

/-- The descriptors of a partition's own queues: those of the device admin queue are not (R404). -/
def State.recsOfPart (s : State) (p : Nat) : List (Nat × Rec) :=
  s.qm.recs.filter (fun e => e.2.part == p && decide (e.2.queue < devQueue))

/-- Step 4: the messages, copies and frames of a partition end. What had begun ends through its entry, which the new generation discards
and counts (R404); what had not begun leaves silently. -/
def State.endOutbound (s : State) (p : Nat) : State :=
  let s := ((s.tr.msgs.filter (fun e => e.2.part == p && e.2.kind != MsgKind.col && e.2.kind != MsgKind.mgt)).map (·.1)).foldl State.dropMsg s
  let s := s.dropPlaces (fun x => x.part == p && (match x.why with
    | .copy _ => true
    | .readRsp _ _ => true
    | _ => false))
  -- frames not begun leave the outputs, so that a frame in progress is finished
  let mine (k : SwPkt) : Bool := !(k.frame != [] && k.part == p)
  let cut (o : Nat) (x : Output) : Output :=
    if 128 ≤ o ∧ o < 136 then
      let lists := (Tbl.map (fun _ l => l.filter mine) x.lists).filter (fun e => e.2 != [])
      { x with lists := lists }
    else x
  let s := s.setSw { s.sw with outs := Tbl.map cut s.sw.outs }
  let kept (e : List Nat × Work) : Bool := match e.2 with
    | .record r => !(s.getRec r).any (fun x => x.part == p && decide (x.queue < devQueue))
    | _ => true
  let s := { s with waiting := s.waiting.filter kept }
  (s.recsOfPart p).foldl (fun s e =>
    if e.2.phase == .accepted || (e.2.phase == .running && !e.2.started) || e.2.rq then s.retire e.1 { e.2 with status := Stat.FLUSHED } 0
    else s.endWith e.1 Stat.FLUSHED) s

/-- Steps 1 to 4 of R406, `to` the state entered. A group's ABORTs leave here; its plans and area go when the reads are done, so
that the ABORTs still find their slots (log entry 74). -/
def State.partStop (s : State) (p : Nat) (tgt : PartState) : State :=
  let s := s.modPart p (fun x => { x with state := tgt, gen := (x.gen + 1) % 65536 })
  let s := (s.count F.PRT_STATE_RESETS p).count F.PRT_COUNT_COUNT 1
  let closing := s.regionsIn p .closing
  let s := s.dropPlaces (fun x => x.region.any closing.contains)
  let s := (s.dropServes closing.contains)
  let s := closing.foldl State.abortRegion s
  let s := (s.regionsIn p .open).foldl (fun s i => s.beginClosing i none) s
  let s := ((s.col.groups.filter (fun e => e.2.state == .active && e.2.part == p)).map (·.1)).foldl (fun s g => s.abortGroup g 7 4095 65535) s
  s.endOutbound p

/-- Reads a link still owes on behalf of a partition (R406 step 5): none of them the device admin queue's. -/
def State.readsOf (s : State) (p : Nat) : Bool :=
  s.io.reads.any (fun e => e.2.loc.fn == p && (match e.2.why with
    | .fetch q _ => q != devQueue
    | .piece b _ => (Tbl.find s.io.builds b).all (fun x => match x.why with
      | .admin r => (s.getRec r).all (fun y => decide (y.queue < devQueue))
      | _ => true)))

/-- Begin a reset, or join the one in progress (R409). (log entry 74) -/
def State.partReset (s : State) (p : Nat) (cmd : Option Nat) : State :=
  match (s.part p).state with
  | .active => (s.partStop p .resetting).modPart p (fun x => { x with cmds := cmd.toList })
  | .resetting => s.modPart p (fun x => { x with cmds := x.cmds ++ cmd.toList })
  | _ => match cmd with
    | some r => s.admEnd r Stat.BAD_STATE
    | none => s

/-- PART_RESET (R406). -/
def execPartReset (t r : Nat) (s : State) : Host.Outcome State Fault Refusal :=
  .next ((s.at t).admRun r Op.PART_RESET (fun s x => (s.admWait r).partReset x.desc.part (some r)))

/-- The configuration space of function f of link l returns to its reset values (R118, R405): its MSI-X vectors are masked and hold nothing; the
PF's also holds the VFs enabled, the completion timeout and ECRC (log entry 127). -/
def State.resetFunction (s : State) (l f : Nat) : State :=
  s.modLink l (fun x =>
    let x := { x with vecs := x.vecs.filter (fun e => e.1 / 2048 != f) }
    if f = 0 then { x with numVfs := 0, timeout := Link.down.timeout, ecrc := false } else x)

/-- FLR of function f of link l (R405): its configuration space is reset; of a host-link VF it also requests a partition reset. -/
def execFlr (t l f : Nat) (s : State) : Host.Outcome State Fault Refusal :=
  let s := (s.at t).resetFunction l f
  .next (if l = 0 ∧ 1 ≤ f ∧ f < 64 ∧ ((s.part f).state = .active ∨ (s.part f).state = .resetting) then
      (s.count F.PRT_COUNT_COUNT 2).partReset f none
    else s)

/-- Step 3's rest: a partition's plans are unloaded and its groups freed. -/
def State.dropGroups (s : State) (p : Nat) : State :=
  let gs := (s.col.groups.filter (fun e => e.2.state != .free && e.2.part == p)).map (·.1)
  gs.foldl (fun s g =>
    let s := (s.plansOf g).foldl (fun s e =>
      (e.2.loader.toList ++ e.2.unloaders).foldl (fun s r => s.admEnd r Stat.BAD_STATE) (s.dropPlan e.1 e.2)) s
    s.freeGroup g) s

/-- Keys a partition reset loses (R469). -/
def State.dropKeys (s : State) (p : Nat) : State :=
  { s with sec := { s.sec with
    keks := Tbl.del s.sec.keks p, tx := Tbl.del s.sec.tx p
    tkeys := s.sec.tkeys.filter (fun e => e.1 / 16 != p), xts := s.sec.xts.filter (fun e => e.1 / 64 != p) } }

/-- Step 6 (R406, R496): queue pairs, rings, the partition admin queue and the fault queue are FREE. -/
def State.freeObjects (s : State) (p : Nat) : State :=
  let qs := (s.qm.qps.filter (fun e => e.2.state != .free && e.2.part == p)).map (·.1)
  let s := qs.foldl (fun s q => ((((s.dropHeld q).unbindRds q).recsOf q).foldl (fun s e => s.retire e.1 { e.2 with status := Stat.FLUSHED } 0) ((s.dropHeld q).unbindRds q)).freeQp q) s
  let rs := (s.qm.rings.filter (fun e => decide (e.1 < 65536) && e.2.state != .free && e.2.part == p)).map (·.1)
  let s := rs.foldl (fun s r => s.setRing r Ring.none) s
  let s := ((s.setAdmq p AdmQ.none).dropFetches (admQueue p)).setRing (admQueue p) Ring.none
  let s := (s.recsOf (admQueue p)).foldl (fun s e => s.delRec e.1) s
  let s := ((s.setReg .QMG_PADM_SQ_BASE p 0 0).setReg .QMG_PADM_CQ_BASE p 0 0).setReg .QMG_PADM_CFG p 0 (RegName.reset .QMG_PADM_CFG p 0)
  (s.setFaultq p FaultQ.none).dropKeys p

/-- Steps 5 to 7: the regions close, objects are freed, and the registers return to their reset values. -/
def State.partClear (s : State) (p : Nat) : State :=
  let mine := s.regionsIn p .closing
  let s := s.dropPlaces (fun x => x.part == p || x.region.any mine.contains)
  let s := s.dropServes mine.contains
  let s := mine.foldl State.lossRegion s
  let s := ((s.dropGroups p).freeObjects p).ownedCounters p false
  s.modPart p (fun x => { x with faults := 0, halted := false })

/-! ### Teardown (R408) -/

/-- The Gallery blocks a partition still owns. -/
def State.ownBlocks (s : State) (p : Nat) : List Nat := (s.pool.gmap.filter (fun e => e.2.alloc && e.2.owner == p)).map (·.1)

/-- Step 2: the partition's Gallery blocks that no command frees already go to FREEING and are scrubbed. -/
def State.freeGalleries (s : State) (p : Nat) : State :=
  ((s.ownBlocks p).filter (fun i => (s.gblk i).state != .freeing)).foldl (fun s i =>
    let s := s.setFreeing i 1
    { s with pool := { s.pool with freeing := Tbl.put s.pool.freeing i ⟨none, p, i, 1, true⟩ } }) s

/-- Reset values of a partition's own registers (R408 step 5). -/
def State.resetPartRegs (s : State) (p : Nat) : State :=
  ([.SCH_PART_SHAPE, .SCH_PART_ETH_SHAPE, .SCH_PART_POLICE, .XLT_HOST_BASE] : List RegName).foldl (fun s r => s.setReg r p 0 (r.reset p 0)) s

/-- Steps 3 to 5: pool, Ethernet entries and registers go, and the number is FREE; its generation is kept (R404). -/
def State.partGone (s : State) (p : Nat) : State :=
  let s := (s.dropPool p 0).setTables (Tbl.set [] s.xl.tables p [])
  let s := (List.range 8).foldl (fun s e =>
    let s := (List.range 64).foldl (fun s m => if s.flag F.ETH_MAC_VALID e m && s.fld F.ETH_MAC_OWNER e m == p then s.setFld F.ETH_MAC_VALID 0 e m else s) s
    let fs := (s.filtersOf e p).map (·.1)
    let s := fs.foldl (fun s f => s.setFld F.ETH_FILTER_W0_VALID 0 e f) s
    s.modEthPort e (fun x => { x with filters := fs.foldl Tbl.del x.filters })) s
  let s := (s.resetPartRegs p).ownedCounters p true
  let s := s.setSw { s.sw with shape := Tbl.del s.sw.shape p, ethShape := Tbl.del s.sw.ethShape p, police := Tbl.del s.sw.police p }
  let x := s.part p
  (s.setPart p { Part.none with gen := x.gen }) |> (fun s => x.cmds.foldl (fun s r => s.admEnd r Stat.SUCCESS) s)

/-- A teardown whose blocks are all free ends. -/
def State.tryGone (s : State) (p : Nat) : State :=
  if (s.part p).state = .destroying ∧ s.ownBlocks p = [] ∧ !(s.pool.freeing.any (fun e => e.2.part == p)) then s.partGone p else s

/-- PART_RESET_READS_DONE (R406 steps 5 to 8, R408): the partition's link reads have all returned or timed out. -/
def State.readsDone (s : State) (p : Nat) : State :=
  let x := s.part p
  if s.readsOf p then s
  else match x.state with
    | .resetting =>
      let s := (s.partClear p).modPart p (fun x => { x with state := .active, cmds := [] })
      x.cmds.foldl (fun s r => s.admEnd r Stat.SUCCESS (s.part p).gen) s
    | .destroying => if s.pool.freeing.any (fun e => e.2.part == p && e.2.recId.isNone && decide (e.2.first < areaKey 0)) then s
      else ((s.partClear p).freeGalleries p).tryGone p
    | _ => s

def execPartResetReadsDone (t p : Nat) (s : State) : Host.Outcome State Fault Refusal := .next ((s.at t).readsDone p)

/-- PART_DESTROY (R408). -/
def execPartDestroy (t r : Nat) (s : State) : Host.Outcome State Fault Refusal :=
  .next ((s.at t).admRun r Op.PART_DESTROY (fun s x =>
    let p := x.desc.part
    if p = 0 ∨ (s.part p).state ≠ .active then s.admEnd r Stat.BAD_STATE
    else ((s.admWait r).partStop p .destroying).modPart p (fun x => { x with cmds := [r] })))

/-- BLOCK_SCRUB_DONE (R90, R408): the run that begins at `first` is scrubbed. -/
def execBlockScrubDone (t first : Nat) (s : State) : Host.Outcome State Fault Refusal :=
  let s := s.at t
  match Tbl.find s.pool.freeing first with
  | none => .next s
  | some f => .next ((s.scrubDone first).tryGone f.part)

end Sys2Proof.Machine
end

