-- ==== Sys2Proof/Machine/Loss.lean ====
section
/-!
DEFINITION. The host link and the accelerator ports as links (R112, R118, R127, R132 to R137, spec/04_host_and_accelerator_ports.md):
link-up and reset, the loss of a link, re-attaching, and direct loads and stores of Gallery memory.
-/
namespace Sys2Proof.Machine

/-! ### What lies behind a link -/

/-- Whether an extent of this adapter lies behind a link. -/
def Extent.behind (l : Nat) (e : Extent) : Bool := e.node.isNone && e.link == some l

/-- Whether a record holds an extent behind a link (R134 step 4). -/
def Rec.behind (l : Nat) (x : Rec) : Bool := (x.src ++ x.dst ++ x.xtra).any (Extent.behind l)

/-- The OPEN and CLOSING regions whose memory lies behind a link (R134 step 2). -/
def State.regionsBehind (s : State) (l : Nat) : List Nat :=
  (s.xl.rgn.filter (fun e => (e.2.state == .open || e.2.state == .closing) && linkOf e.2.base == some l)).map (·.1)

/-- Queue pairs that have a ring behind a link. -/
def Qp.behind (l : Nat) (q : Qp) : Bool :=
  q.state != .free && (q.sq.loc.link == l || q.rq.any (fun d => d.loc.link == l))

/-- The partitions a loss affects (R134 step 6). -/
def State.affected (s : State) (l : Nat) : List Nat :=
  ((s.regionsBehind l).map (fun i => (s.region i).owner)
    ++ (s.qm.qps.filter (fun e => e.2.behind l)).map (fun e => e.2.part)
    ++ (s.qm.rings.filter (fun e => e.2.state != .free && e.2.loc.link == l)).map (fun e => e.2.part)
    ++ (s.faultqs.filter (fun e => e.1 != 64 && e.2.state == .active && e.2.loc.link == l)).map (·.1)
    ++ (s.qm.recs.filter (fun e => e.2.behind l)).map (fun e => e.2.part)).eraseDups

/-! ### The steps of R134 -/

/-- The gathering operations that lost a read on the link: their pieces will not come. -/
def State.buildsOn (s : State) (l : Nat) : List (Nat × Build) :=
  s.io.builds.filter (fun b => s.io.reads.any (fun r => r.2.loc.link == l && (match r.2.why with
    | .piece k _ => k == b.1
    | .fetch _ _ => false)))

/-- Step 1: requests stop; the reads and unacknowledged writes of the link are discarded. -/
def State.lossReads (s : State) (l : Nat) : State :=
  { s with io := { s.io with reads := s.io.reads.filter (fun r => r.2.loc.link != l) } }

/-- Step 2: regions behind the link close at once, what was accepted for them is discarded. -/
def State.lossRegions (s : State) (l : Nat) : State :=
  let rs := s.regionsBehind l
  let s := (s.dropPlaces (fun x => x.links.contains l || x.region.any rs.contains)).dropServes rs.contains
  rs.foldl State.lossRegion s

/-- A queue's descriptors end with FLUSHED, recorded and not written; an admin command that has begun runs on, and its completion goes
nowhere. -/
def State.lossRecs (s : State) (q : Nat) : State :=
  (s.recsOf q).foldl (fun s e =>
    if isAdm q && e.2.phase != .accepted then s.modRec e.1 (fun x => { x with source := if x.source = 0 then 3 else x.source })
    else (e.2.msgs.foldl State.dropMsg s).endSilent e.1 Stat.FLUSHED) s

/-- Step 3 for the queue pairs: fetching stops, and one that is ACTIVE or in ERROR goes to HOST_LOST with its descriptors FLUSHED; R145 lets no
other state change. (log entry 118) -/
def State.lossQp (s : State) (n : Nat) : State :=
  let s := s.dropFetches n
  if (s.qp n).state = .active ∨ (s.qp n).state = .error then
    (((s.dropHeld n).unbindRds n).modQp n (fun q => { q with state := .hostLost })).lossRecs n
  else s

/-- Step 3 for a completion ring: nothing more is written to it, and what was due for it is discarded (R169). -/
def State.lossRing (s : State) (r : Nat) : State :=
  let gone := s.io.builds.filter (fun b => match b.2.why with
    | .entry k _ => k == r
    | _ => false)
  let s := gone.foldl (fun s b => s.delBuild b.1) s
  let x := s.ring r
  (s.setRing r { x with state := .hostLost, held := [], lost := satAdd x.lost (x.held.length + gone.length) 20 }).reap

/-- Step 3: queue pairs, rings, admin queues and fault queues whose memory lies behind the link. -/
def State.lossQueues (s : State) (l : Nat) : State :=
  let s := ((s.qm.rings.filter (fun e => e.2.state != .free && e.2.loc.link == l)).map (·.1)).foldl State.lossRing s
  let s := ((s.qm.qps.filter (fun e => e.2.behind l)).map (·.1)).foldl State.lossQp s
  let s := ((s.qm.admqs.filter (fun e => e.2.state != .free && e.2.state != .fault && e.2.sq.loc.link == l)).map (·.1)).foldl (fun s a =>
    ((s.setAdmq a { s.admq a with state := .hostLost }).dropFetches (65536 + a)).lossRecs (65536 + a)) s
  ((s.faultqs.filter (fun e => e.1 != 64 && e.2.state == .active && e.2.loc.link == l)).map (·.1)).foldl (fun s p =>
    s.setFaultq p { s.faultq p with state := .hostLost }) s

/-- A descriptor of a queue that stays ends with HOST_LOST (step 4): its messages, copies and reads are given up. -/
def State.lossRec (s : State) (r : Nat) : State :=
  match s.getRec r with
  | none => s
  | some _ =>
    let s := s.giveUp r
    let s := s.dropPlaces (fun p => match p.why with
      | .copy k => k == r
      | .ethRecv k => k == r
      | _ => false)
    let keep (b : Build) : Bool := match b.why with
      | .copy k _ => k != r
      | .atomicLocal k => k != r
      | .ethFrame k => k != r
      | .ethAgain k _ => k != r
      | .colCounts k => k != r
      | _ => true
    let s := { s with
      io := { s.io with builds := s.io.builds.filter (fun b => keep b.2) }
      tr := { s.tr with rds := Tbl.map (fun _ e => if e.recv = some r then { e with recv := none } else e) s.tr.rds } }
    s.endWith r Stat.HOST_LOST

/-- The group whose running invocation a record is. -/
def State.runningFor (s : State) (r : Nat) : Option (Nat × Plan) :=
  s.col.plans.find? (fun e => match e.2.run with
    | some u => u.recId == r && !u.ended
    | none => false)

/-- Steps 4 and 5: descriptors and admin commands that touch the link end with HOST_LOST; a collective in progress aborts its group
(R135, R359). (log entry 36) -/
def State.lossOthers (s : State) (l : Nat) (builds : List (Nat × Build)) : State :=
  let rs := (s.qm.recs.filter (fun e => e.2.behind l && !isAdm e.2.queue)).map (·.1)
  let s := rs.foldl (fun s r => match s.runningFor r with
    | some (_, x) => s.abortGroup x.group 5 x.body.self 65535
    | none => s.lossRec r) s
  let adm := (s.qm.recs.filter (fun e => isAdm e.2.queue && e.2.behind l && e.2.phase == .accepted)).map (·.1)
  let s := adm.foldl (fun s r => s.admEnd r Stat.HOST_LOST) s
  builds.foldl (fun s b =>
    if !Tbl.has s.io.builds b.1 then s
    else
      let s := s.delBuild b.1
      match b.2.why with
      | .admin r => s.admEnd r Stat.HOST_LOST
      | .entry r e => (s.entryReady b.1 r (if e.status = Stat.SUCCESS then { e with status := Stat.HOST_LOST } else e)).reap
      | _ => s) s

/-- A loss of link l (R134); `cause` 0 link down, 1 stall, 2 DETACH. -/
def State.linkLoss (s : State) (l cause : Nat) : State :=
  let ps := s.affected l
  let builds := s.buildsOn l
  let s := (s.modLink l (fun x => { x with lost := true, losses := (x.losses + 1) % 2 ^ 32, fails := 0 })).lossReads l
  let s := ((s.lossRegions l).lossQueues l).lossOthers l builds
  let n := (s.link l).losses
  (ps.foldl (fun s p => s.faultP p 0 0x01 l n cause (some l)) s).faultL 0 0x01 l n cause

/-- The link's data link layer is down, and the configuration space of its functions is reset (R118). -/
def State.linkDown (s : State) (l : Nat) : State :=
  (s.idleFrom (linkDom l)).modLink l (fun x => { x with
    up := false, mode := 0, width := 0, rate := 0, numVfs := 0, atomicOk := false, l1 := false, timeout := Link.down.timeout, ecrc := false, vecs := [] })

/-- LINK_DLL_DOWN (R132): the data link of link l (0 the host link, 1 + n accelerator port n) goes down. -/
def execLinkDllDown (t l : Nat) (s : State) : Host.Outcome State Fault Refusal :=
  let s := s.at t
  .next (if (s.link l).up then ((s.linkDown l).modLink l (fun x => { x with training := true })).linkLoss l 0 else s)

/-- A stalled link is declared lost and disabled (R133). -/
def State.stallLoss (s : State) (l : Nat) : State :=
  ((s.linkDown l).modLink l (fun x => { x with disabled := true, training := false })).linkLoss l 1

/-- A link's stall limit in ns: values below 100 µs act as 100 (R138). -/
def State.stallLimit (s : State) (l : Nat) : Nat :=
  max 100 (if l = 0 then s.fld F.HST_STALL_LIMIT_LIMIT else s.fld F.ACC_STALL_LIMIT_LIMIT (l - 1)) * 1000

/-- Whether posted writes wait on a link: those of a placement do until it is accepted; where none waits, others that have left may, whose
acceptance no command reports. (log entry 126) -/
def State.putWaiting (s : State) (l : Nat) : Bool := s.putsOn l || s.egress.any (fun e => e.posted == some l)

/-- LINK_STALL (R133): the stall limit of a link that is up has passed with posted writes waiting and none accepted. -/
def execLinkStall (t l : Nat) (s : State) : Host.Outcome State Fault Refusal :=
  let s := s.at t
  .next (if (s.link l).up && s.putWaiting l && decide ((s.link l).acceptAt + s.stallLimit l ≤ s.now) then s.stallLoss l else s)

/-- HST_DETACH (R132): 1 is written to HST_CTRL.DETACH. On a link that is lost already, or never came up, it is a loss like any other.
(log entry 137) -/
def execHstDetach (t : Nat) (s : State) : Host.Outcome State Fault Refusal := .next ((s.at t).ifServing (fun s => s.linkLoss 0 2))

/-- ACC_DETACH (R132): 1 is written to ACC_PORT_CFG.DETACH of port n. (log entry 137) -/
def execAccDetach (t n : Nat) (s : State) : Host.Outcome State Fault Refusal :=
  let s := s.at t
  .next (s.ifServing (fun s => if n < s.nAcc then s.linkLoss (1 + n) 2 else s))

/-! ### Coming back (R112, R118, R136, R137) -/

/-- The device admin queue's rings as its registers name them (R178, R136). -/
def State.admRings (s : State) : State :=
  let sq := DRing.at ⟨0, 0, (s.reg .QMG_ADM_SQ_BASE).toNat⟩ none (clampLog2 (s.fld F.QMG_ADM_CFG_SQ_LOG2))
  let cq := Ring.at 0 ⟨0, 0, (s.reg .QMG_ADM_CQ_BASE).toNat⟩ none (clampLog2 (s.fld F.QMG_ADM_CFG_CQ_LOG2))
    (s.fld F.QMG_ADM_CFG_VECTOR) (s.flag F.QMG_ADM_CFG_SPLIT) 0
  (s.setAdmq 64 ⟨.active, sq⟩).setRing devQueue cq

/-- 1 is written to HST_CTRL.ATTACH (R136 step 2): LOST clears, and the device admin queue leaves HOST_LOST with its new rings. -/
def State.hstAttach (s : State) : State :=
  if (s.link 0).lost then
    let s := s.modLink 0 (fun x => { x with lost := false })
    if (s.admq 64).state = .hostLost then s.admRings else s
  else s

/-- HST_ATTACH (R136, R137). -/
def execHstAttach (t : Nat) (s : State) : Host.Outcome State Fault Refusal := .next ((s.at t).ifServing State.hstAttach)

/-- 1 is written to ACC_PORT_CFG.ATTACH. -/
def State.accAttach (s : State) (n : Nat) : State := s.modLink (1 + n) (fun x => { x with lost := false })

/-- ACC_ATTACH (R137). -/
def execAccAttach (t n : Nat) (s : State) : Host.Outcome State Fault Refusal :=
  let s := s.at t
  .next (s.ifServing (fun s => if n < s.nAcc then s.accAttach n else s))

/-- 1 is written to an ENABLE (R133): a link disabled by a stall trains again. -/
def State.linkEnable (s : State) (l : Nat) : State :=
  if (s.link l).disabled then s.modLink l (fun x => { x with disabled := false, training := true }) else s

/-- HST_ENABLE (R133). -/
def execHstEnable (t : Nat) (s : State) : Host.Outcome State Fault Refusal := .next ((s.at t).ifServing (fun s => s.linkEnable 0))

/-- ACC_ENABLE (R133). -/
def execAccEnable (t n : Nat) (s : State) : Host.Outcome State Fault Refusal :=
  let s := s.at t
  .next (s.ifServing (fun s => if n < s.nAcc then s.linkEnable (1 + n) else s))

/-- Whether a link exists on the variant. -/
def State.linkFitted (s : State) (l : Nat) : Bool := decide (l ≤ s.nAcc)

/-- The port die of a link wakes, with its common logic (R479, R486); `src` 2 the host link, 3 an accelerator link. -/
def State.wakeLink (s : State) (l : Nat) : State :=
  let src := if l = 0 then 2 else 3
  (s.wakeDom (linkDom l) src).wakeDom (commonDom (if l = 0 then 0 else accDie (l - 1))) src

/-- PERST_ASSERT (R118, R132): PERST# or a hot reset of link l resets its PHY, controller and configuration space. -/
def execPerstAssert (t l : Nat) (s : State) : Host.Outcome State Fault Refusal :=
  let s := s.at t
  if !s.linkFitted l then .next s
  else
    let up := (s.link l).up
    let s := (s.linkDown l).modLink l (fun x => { x with perst := true, training := false })
    .next (if up then s.linkLoss l 0 else s)

/-- PERST_DEASSERT (R486): the port die wakes, and a link that is not disabled trains; before discovery has completed the pin only shows
its level, and the link trains when the start lets it leave reset (R15, R437). -/
def execPerstDeassert (t l : Nat) (s : State) : Host.Outcome State Fault Refusal :=
  let s := s.at t
  if !s.linkFitted l then .next s
  else if s.chip.variant = 0 then .next (s.modLink l (fun x => { x with perst := false }))
  else .next ((s.wakeLink l).modLink l (fun x => { x with perst := false, training := !x.disabled && !x.up }))

/-- PCIE_LINK_UP (R111, R112, R131, R138): link training ends with a mode, width and rate; and what the far side writes to the
configuration space: the VFs it enables, its AtomicOp completer, the completion timeout in ns, ECRC. CXL is settled on only where the
link offers it. (log entry 127) -/
def execPcieLinkUp (t l mode width rate vfs : Nat) (cfg : LinkSet) (s : State) : Host.Outcome State Fault Refusal :=
  let s := s.at t
  let x := s.link l
  let cxl := if l = 0 then s.flag F.HST_CTRL_CXL_EN else s.flag F.ACC_PORT_CFG_CXL_EN (l - 1)
  .next (if s.linkFitted l && (x.training || x.up) && !x.perst && !x.disabled && (s.dom (linkDom l)).state == .on && widthOk l width then
      s.modLink l (fun x => { x with
        up := true, training := false, mode := if mode = 2 && cxl then 2 else 1, width := min width 15, rate := rate % 16, numVfs := min vfs 63
        atomicOk := cfg.atomicOk, l1 := false, timeout := min (max cfg.timeout 50000) 50000000, ecrc := cfg.ecrc })
    else s)

/-! ### Direct loads and stores (R91, R127) -/

/-- Whether a direct access on port n reaches a Gallery address: ENABLE, CXL mode, the partition's block in state GALLERY, the page SHARED
with the port in its mask. -/
def State.directOk (s : State) (n a : Nat) : Bool :=
  let b := s.biasOf (a / 4096)
  s.flag F.ACC_MEM_CFG_ENABLE n && (s.link (1 + n)).mode == 2 && s.galleryOk (s.fld F.ACC_MEM_CFG_PART n) a && b.shared && b.mask.testBit n

/-- A direct load of a line: every other port of the share mask is snooped first; a poisoned line answers poison. -/
def State.directLoad (s : State) (n a : Nat) : State :=
  let l := a / 64 * 64
  let s := ((s.land.useLines (2 ^ 48 + l) 64).snoopLine l n).checked (2 ^ 48 + l) 64
  s.emit (.cxlData (1 + n) (if s.linePoisoned l then none else some (s.gRead l 64)))

/-- A direct store within a line; one over part of a poisoned line is discarded (R102). -/
def State.directStore (s : State) (a : Nat) (bs : List Byte) : State :=
  let s := s.land.checkedParts [(2 ^ 48 + a, bs)]
  if (s.partPoison a bs.length).isSome then s else s.gWrite a bs

/-- A direct access of port n at a Gallery address: a load of its line (no bytes), or a store within it; refused and counted where R127 does not
let it through. It waits for its stack and for the migration of its block (R103, R107). -/
def State.direct (s : State) (n a : Nat) (store : Option (List Byte)) : State :=
  let ds := s.needsOf (2 ^ 48 + a) 1
  if s.directOk n a && decide (a % 64 + (store.getD []).length ≤ 64) then
    if !s.ready ds then s.hold ds (.direct n a store)
    else match store with
      | none => s.directLoad n a
      | some bs => s.directStore a bs
  else match store with
    | none => (s.modLink (1 + n) (fun x => { x with refLoads := satAdd x.refLoads 1 32 })).emit (.cxlData (1 + n) none)
    | some _ => s.modLink (1 + n) (fun x => { x with refStores := satAdd x.refStores 1 32 })

/-- CXL_MEM_ACCESS (R127): an accelerator behind port n loads the line at address `a` of its range (no bytes), or stores bytes within
it. -/
def execCxlMemAccess (t n a : Nat) (store : Option (List Byte)) (s : State) : Host.Outcome State Fault Refusal :=
  .next ((s.at t).direct n a store)

end Sys2Proof.Machine
end

