-- ==== Sys2Proof/Machine/Power.lean ====
section
/-!
DEFINITION. Power domains, clocks, heat and failed units (R478 to R489, R501, R503, R526 to R533), the loss of a stack (R109), and the
fault-queue commands (R499, R504, spec/14_power_resets_and_faults.md).
-/
namespace Sys2Proof.Machine

/-! ### Idle domains (R107, R323, R362, R480) -/

/-- A fabric port that keeps its engine and quadrant from idling: UP, MGT_ONLY or past DETECT. -/
def State.portBusy (s : State) (p : Nat) : Bool :=
  match (s.port p).state with
  | .disabled => false
  | .detect => false
  | .failed => false
  | _ => true

/-- The domains the running invocations keep ON (R362). -/
def State.runDoms (s : State) : List Nat :=
  s.col.plans.flatMap (fun e => match e.2.run with
    | some r => if r.ended then [] else s.colDoms e.1 e.2 (r.src ++ r.dst) ++ e.2.body.links.flatMap (fun l => outDoms l.output)
    | none => [])

/-- Whether a die's common logic is idle (R480): no accepted descriptor, flight entry, recent-delivery entry, running invocation or admin
command in progress, and no other domain of the die ON (R479). -/
def State.commonIdle (s : State) (die : Nat) : Bool :=
  !s.qm.recs.any (fun e => isAdm e.2.queue || s.dieOf e.2.queue == die) && !s.tr.flights.any (fun e => s.dieOf e.1 == die)
    && !s.tr.rds.any (fun e => s.dieOf e.2.src == die) && !s.col.plans.any (fun e => e.2.running && s.dieOf e.1 == die)
    && !(List.range 84).any (fun d => d != commonDom die && domDie d == die && (s.dom d).state == .on)

/-- The PCIe links of a port die (R17). -/
def State.dieLinks (n : Nat) : List Nat := [1 + 2 * n, 2 + 2 * n] ++ (if n = 0 then [0] else [])

/-- Whether a port die is idle: its PCIe links in L1 or down, its Ethernet port off (or port 0 under ETH_WAKE_CFG, R394), no TLP
waiting, its receive buffer empty. -/
def State.portDieIdle (s : State) (n : Nat) : Bool :=
  (State.dieLinks n).all (fun l => ((s.link l).l1 || !(s.link l).up) && !s.io.reads.any (fun r => r.2.loc.link == l)
      && !s.io.places.any (fun x => x.2.links.contains l))
    && (!s.flag F.ETH_PORT_CFG_ENABLE n || (n == 0 && s.flag F.ETH_WAKE_CFG_ENABLE))
    && (s.ethPort n).held.isEmpty

/-- Whether a domain is idle (R480). -/
def State.idle (s : State) (d : Nat) : Bool :=
  !s.runDoms.contains d && !s.waiting.any (fun w => w.1.contains d) &&
  (if d < 16 then !s.groupBusy d
   else if d < 24 then
     let q := d - 16
     (List.range' (16 * q) 16).all (fun p => !s.portBusy p && (s.inqOf p).isEmpty && (s.out p).lists.isEmpty)
       && (q % 4 != 0 || s.commonIdle (q / 4))
   else if d < 44 then
     !s.io.places.any (fun x => !x.2.landed && x.2.parts.any (fun y => (s.physOf y.1 y.2.length).any (fun b => b / 65536 == d - 24)))
   else if d < 76 then (List.range' (4 * (d - 44)) 4).all (fun p => !s.portBusy p)
   else s.portDieIdle (d - 76))

/-- Whether OFF is permitted (R480). -/
def State.offOk (s : State) (d : Nat) : Bool :=
  if d < 16 then true
  else if d < 24 then (s.dieStacks ((d - 16) / 4)).all (fun k =>
    (s.stack k).state == .lost || (s.stack k).state == .absent || (s.dom (stackDom k)).state == .on || (s.dom (stackDom k)).state == .retain)
  else if d < 44 then !s.pool.blks.any (fun e => e.1 / 65536 == d - 24 && e.2.state != .free && e.2.state != .lost)
  else if d < 76 then true
  else (State.dieLinks (d - 76)).all (fun l => !(s.link l).up)

/-- IDLE_TICKS of the 32.768 kHz clock have passed since the timer started (R481); 0 acts as 1. -/
def State.idleOver (s : State) (d : Nat) : Bool :=
  match (s.dom d).idleAt with
  | none => false
  | some a => decide (max 1 (s.dom d).ticks * 1000000000 ≤ (s.now - a) * 32768)

/-- The Ethernet timer and the controllers of a port die that goes OFF lose their state (R389, R478). -/
def State.dieDark (s : State) (n : Nat) : State := s.modEthPort n (fun x => { x with timerAt := s.now, timerOff := 0 })

/-- A LIGHT_ANSWER to a member (R413): epoch, HEARS_OTHER, DORMANT, the map version held. -/
def State.lightAnswer (s : State) (tgt : Nat) (hears dormant : Bool) : State :=
  s.keeperMsg tgt 0x02 (wordBytes (word (s.nv.epoch % 2 ^ 16 * 2 ^ 48 + b2n hears * 2 ^ 47 + b2n dormant * 2 ^ 46 + s.kpr.version % 2 ^ 32)))

/-- Before its last optical engine leaves ON, a worker announces to its members that it is dormant (R417). -/
def State.goDormant (s : State) (d : Nat) : State :=
  if 44 ≤ d ∧ d < 76 ∧ (List.range s.nEngines).all (fun e => engineDom e == d || (s.dom (engineDom e)).state != .on) ∧ s.kpr.role = .worker then
    let ms := ((s.kpr.active.toList ++ s.kpr.other.toList).eraseDups).filter (fun n => s.node != some n)
    if ms.isEmpty then s else ms.foldl (fun s n => s.lightAnswer n true true) { s with kpr := { s.kpr with dormant := true } }
  else s

/-- A domain leaves ON, or RETAIN for OFF; the common logic of its die may become idle with it (R479). -/
def State.sleepDom (s : State) (d : Nat) (tgt : DomState) : State :=
  let s := s.goDormant d
  let s := (s.setDom d { s.timed d (s.dom d) with state := tgt, fromOff := tgt == .off }).idleFrom (commonDom (domDie d))
  if tgt != .off then s
  else if 76 ≤ d ∧ d < 84 then s.dieDark (d - 76)
  else if 44 ≤ d ∧ d < 76 then s.engineOff (d - 44) else s

/-- IDLE_TIMER_EXPIRY (R481): an idle domain enters RETAIN or OFF as CEILING allows. (log entry 81) -/
def execIdleTimerExpiry (t d : Nat) (s : State) : Host.Outcome State Fault Refusal :=
  let s := s.at t
  let c := (s.dom d).ceil
  .next (if s.domFitted d && (s.dom d).state == .on && !s.flag F.PWR_DOMAIN_HOLD d && (c == 1 || c == 2) && s.idle d && s.idleOver d then
      s.sleepDom d (if c = 2 && s.offOk d then .off else .retain)
    else s)

/-- RETAIN_TO_OFF (R481): a further IDLE_TICKS idle, and OFF has become permitted. -/
def execRetainToOff (t d : Nat) (s : State) : Host.Outcome State Fault Refusal :=
  let s := s.at t
  .next (if s.domFitted d && (s.dom d).state == .retain && !s.flag F.PWR_DOMAIN_HOLD d && (s.dom d).ceil == 2 && s.idle d
      && s.offOk d && s.idleOver d then s.sleepDom d .off
    else s)

/-! ### Waking (R479, R486) -/

/-- RTC_ALARM (R486, R505): the RTC's count equals AT. -/
def execRtcAlarm (t : Nat) (s : State) : Host.Outcome State Fault Refusal :=
  let s := s.at t
  if s.flag F.LAMP_RTC_ALARM_ENABLE && s.rtc == s.fld F.LAMP_RTC_ALARM_AT then
    let s := (s.setFld F.LAMP_RTC_ALARM_ENABLE 0).setFld F.LAMP_RTC_ALARM_FIRED 1
    let s := s.wakeSet.foldl (fun s d => s.wakeWith d 1) s
    .next (if (s.link 0).up then s.hostIrq (s.fld F.LAMP_RTC_ALARM_VECTOR) else s)
  else .next s

/-- LINK_L1_EXIT (R486): a link leaves L1 and wakes its port die. -/
def execLinkL1Exit (t l : Nat) (s : State) : Host.Outcome State Fault Refusal :=
  let s := s.at t
  .next (if s.linkFitted l && (s.link l).l1 then (s.modLink l (fun x => { x with l1 := false })).wakeLink l else s)

/-- LINK_L1_ENTRY (R480): a link that is up enters L1. -/
def execLinkL1Entry (t l : Nat) (s : State) : Host.Outcome State Fault Refusal :=
  let s := s.at t
  .next (if s.linkFitted l && (s.link l).up then (s.idleFrom (linkDom l)).modLink l (fun x => { x with l1 := true }) else s)

/-- FABRIC_LINK_WAKE (R254, R486): a training pattern reaches lane 0 of port p while its engine is not ON. -/
def execFabricLinkWake (t p : Nat) (s : State) : Host.Outcome State Fault Refusal :=
  let s := s.at t
  .next (if p < s.nPorts then (s.wakeWith (engineDom (p / 4)) 5).wakeWith (quadDom (p / 16)) 5 else s)

/-- A write to PWR_DOMAIN (R481, R506). -/
def State.holdWrite (s : State) (d : Nat) (w : Word) : State :=
  let s := s.writeReg .PWR_DOMAIN d 0 w
  if bit w 13 && s.domFitted d then s.wakeWith d 7 else s

/-- PWR_HOLD_WRITE (R481). -/
def execPwrHoldWrite (t d : Nat) (w : Word) (s : State) : Host.Outcome State Fault Refusal :=
  let s := s.at t
  .next (if d < 84 then s.holdWrite d w else s)

/-- A write to LAMP_RTC_SET (R484). -/
def State.rtcSet (s : State) (v : Nat) : State := { s with nv := { s.nv with rtc := v % 2 ^ 48, rtcAt := s.now } }

/-- LAMP_RTC_SET (R484). -/
def execLampRtcSet (t v : Nat) (s : State) : Host.Outcome State Fault Refusal := .next ((s.at t).rtcSet v)

/-! ### Out of service (R35, R485, R489) -/

/-- The fabric goes dark: every packet in the switch is discarded and every port leaves UP (R34, R492 step 1). -/
def State.fabricDark (s : State) : State :=
  let s := s.setSw { s.sw with inq := [], ejected := [], pacer := [], outs := Tbl.map (fun _ o => { o with lists := [], cur := none, deficit := [] }) s.sw.outs }
  (List.range s.nPorts).foldl (fun s p => if (s.port p).state = .disabled ∨ (s.port p).state = .failed then s else s.leaveUp p .disabled) s

/-- The PCIe links of a port die go down: a loss of each that was up (R132). -/
def State.dieLinksDown (s : State) (n : Nat) : State :=
  (State.dieLinks n).foldl (fun s l =>
    let up := (s.link l).up
    let s := (s.linkDown l).modLink l (fun x => { x with training := false })
    if up then s.linkLoss l 0 else s) s

/-- The banks of passes in progress are not kept when the array groups go OFF (R322, R323). -/
def State.banksLost (s : State) : State :=
  { s with col := { s.col with plans := Tbl.map (fun _ x => { x with run := x.run.map (fun r => { r with cur := [] }) }) s.col.plans } }

/-- Every domain but the kept and the failed goes OFF, every stack in RETAIN where the rule says so (R485, R489). (log entry 83) -/
def State.domainsOff (s : State) (keep : Nat → Bool) (retain : Bool) : State :=
  let s := s.fabricDark
  let ns := (List.range 8).filter (fun n => s.domFitted (portDom n) && !keep (portDom n))
  let s := ns.foldl (fun s n => ((s.dieLinksDown n).ethDown n).dieDark n) s
  let put (s : State) (d : Nat) : State :=
    let x := s.dom d
    if keep d || x.state == .failed || !s.domFitted d then s
    else
      let tgt : DomState := if 24 ≤ d ∧ d < 44 ∧ retain then .retain else .off
      s.setDom d { x with state := tgt, idleAt := none, fromOff := tgt == .off }
  { ((List.range 84).foldl put s).banksLost with waiting := [] }

/-- The adapter leaves service: STAGE reads OUT_OF_SERVICE. -/
def State.outOfService (s : State) (keep : Nat → Bool) (retain : Bool) : State :=
  (s.domainsOff keep retain).setFld F.LAMP_STATUS_STAGE 8

/-- A failed Lantern die is entered in the ledger, unless an entry is there (R35). -/
def State.lanternEntry (s : State) (d detail cause : Nat) : State := if s.ledgered 0x01 d then s else s.ledgerAdd 0x01 d cause detail

/-- A Lantern die has failed (R35, R503): it is in the ledger, and every fast domain is OFF but port die 0 when die 1 failed and the host
link is up. (log entry 84) -/
def State.lanternLost (s : State) (d detail cause : Nat) : State :=
  (s.lanternEntry d detail cause).outOfService (fun x => d == 1 && x == portDom 0) false

/-! ### Heat (R488, R489, R530, R532, R533) -/

/-- WARN_AT as it acts: the warning limit of every die is 95 °C (R532). -/
def State.warnAt (s : State) : Nat := min 95 (s.fld F.PWR_THERMAL_WARN_AT)

/-- The halves a die's heat slows (R488). -/
def heatHalves (die : Nat) : List Nat :=
  if die < 2 then [die] else if die < 10 then [(die - 2) / 4] else if die < 30 then [stackDie (die - 10)] else [0, 1]

/-- The trip limit of a die (R532). -/
def tripAt (die : Nat) : Nat := if die < 10 then 105 else if die < 30 then 100 else 110

/-- The hottest die as PWR_THERMAL shows it. -/
def State.hottest (s : State) (die temp : Nat) : State := (s.setFld F.PWR_THERMAL_TEMP temp).setFld F.PWR_THERMAL_DIE die

/-- THERMAL_WARN (R488): a die reaches WARN_AT, and is the hottest. -/
def execThermalWarn (t die temp : Nat) (s : State) : Host.Outcome State Fault Refusal :=
  let s := s.at t
  if die ≤ 30 ∧ s.warnAt ≤ temp then
    let s := s.hottest die temp
    let s := if s.pwr.slow.isEmpty then s.count F.PWR_COUNT_COUNT 3 else s
    let s := (s.setFld F.PWR_THERMAL_WARNING 1).faultL 7 0x70 die temp 0
    .next { s with pwr := { s.pwr with hot := (s.pwr.hot ++ [die]).eraseDups, atWarn := (s.pwr.atWarn ++ [die]).eraseDups, slow := (s.pwr.slow ++ heatHalves die).eraseDups } }
  else .next s

/-- THERMAL_WARN_CLEAR (R488): the dies in `cool` are 5 °C below WARN_AT; a half whose dies all are returns to full rate. -/
def execThermalWarnClear (t : Nat) (cool : List Nat) (s : State) : Host.Outcome State Fault Refusal :=
  let s := s.at t
  let hot := s.pwr.hot.filter (fun d => !cool.contains d)
  let slow := s.pwr.slow.filter (fun h => hot.any (fun d => (heatHalves d).contains h))
  .next ({ s with pwr := { s.pwr with hot := hot, atWarn := s.pwr.atWarn.filter (fun d => !cool.contains d), slow := slow } }.setFld F.PWR_THERMAL_WARNING (b2n (!slow.isEmpty)))

/-- THERMAL_TRIP (R489, R530): a die reaches its trip limit. -/
def execThermalTrip (t die temp : Nat) (s : State) : Host.Outcome State Fault Refusal :=
  let s := s.at t
  if die ≤ 30 ∧ tripAt die ≤ temp then
    let s := ((s.hottest die temp).outOfService (fun _ => false) true).setFld F.PWR_THERMAL_TRIPPED 1
    let s := { s with pwr := { s.pwr with hot := (s.pwr.hot ++ [die]).eraseDups, atWarn := (s.pwr.atWarn ++ [die]).eraseDups, trip := true } }
    .next (s.faultL 7 0x71 die temp 0)
  else .next s

/-- ALERT# (R530): driven low while a record of class 7 stands unread at the head of the Lamp-room queue, or WARNING is 1. -/
def State.alert (s : State) : Bool :=
  let q := s.faultq 64
  s.flag F.PWR_THERMAL_WARNING || (q.tail != q.head && (match Tbl.find q.slots (q.head % 1024) with
    | some (w :: _) => bits w 56 4 == 7
    | _ => false))

/-! ### The loss of a stack (R85, R109) -/

/-- A mirrored structure runs on: a new second copy on another stack of the die, or a record that there is none (R109 step 5). -/
def State.remirror (s : State) (k : Nat) (u : Use) : State :=
  match u.mirror with
  | none => s
  | some (kind, v) =>
    let other := (s.useBlk v).map (· / 65536)
    match s.takeInternal ((s.dieStacks (stackDie k)).filter (fun x => x != k && other != some x)) 1 (fun _ => u) with
    | some s => s
    | none => s.faultL 2 0x25 k kind 0

/-- The Galleries with a block on a stack, as (owner, first block), and how many of their blocks lie there. -/
def State.galleriesOn (s : State) (k : Nat) : List ((Nat × Nat) × Nat) :=
  let es := s.pool.gmap.filter (fun e => e.2.alloc && e.2.stack == k)
  ((es.map (fun e => (e.2.owner, e.2.first))).eraseDups).map (fun g => (g, (es.filter (fun e => (e.2.owner, e.2.first) == g)).length))

/-- The blocks of group areas on a stack: the group, and the block's number in its area. -/
def State.areasOn (s : State) (k : Nat) : List (Nat × Nat) :=
  (s.pool.blks.filter (fun e => e.1 / 65536 == k)).filterMap (fun e => match e.2.use with
    | .groupArea g i => some (g, i)
    | _ => none)

/-- The blocks of its area, by number, on which a plan's own slots lie (R334). -/
def PlanBody.slotBlocks (b : PlanBody) : List Nat :=
  b.slots.flatMap (fun x => if x.bytes = 0 then [] else List.range' (x.off / blkBytes) ((x.off + x.bytes - 1) / blkBytes - x.off / blkBytes + 1))

/-- A group that loses these blocks of its area aborts, and the plans with slots there are unloaded (R109 step 6). -/
def State.loseGroup (s : State) (g : Nat) (gone : List Nat) : State :=
  let self := (((s.plansOf g).head?).map (fun e => e.2.body.self)).getD 0
  let s := s.abortGroup g 5 self 65535
  ((s.plansOf g).filter (fun e => e.2.body.slotBlocks.any gone.contains)).foldl (fun s e => s.modPlan e.1 (fun x => { x with state := .unloading })) s

/-- A stack is lost (R109). Its FREE blocks are LOST with it (`State.blkLost`), and leave GRT_POOL. -/
def State.stackLost (s : State) (k : Nat) : State :=
  if (s.stack k).state == .absent || (s.stack k).state == .lost then s
  else
    let blks := s.pool.blks.filter (fun e => e.1 / 65536 == k)
    let before := (blks.filter (fun e => e.2.state == .lost)).length
    let gals := s.galleriesOn k
    let areas := s.areasOn k
    let s := s.setStack k { s.stack k with state := .lost }
    let s := s.setDom (stackDom k) { s.dom (stackDom k) with state := .failed, idleAt := none }
    let s := (s.pool.migr.filter (fun e => e.1 / 65536 == k || e.2.dst / 65536 == k)).foldl (fun s e => s.dropMigration e.1) s
    let s := blks.foldl (fun s e => s.setBlk e.1 ⟨.lost, if e.2.use.mirror.isSome then .none else e.2.use⟩) s
    let s := (s.pool.gmap.filter (fun e => e.2.alloc && e.2.stack == k)).foldl (fun s e =>
      if e.2.state = .freeing then s else s.setGblk e.1 { e.2 with state := .lost }) s
    let s := s.faultL 2 0x23 k (65536 - before) 0
    let s := gals.foldl (fun s g => s.faultP g.1.1 2 0x24 k (g.1.2 * blkBytes) g.2) s
    let s := blks.foldl (fun s e => s.remirror k e.2.use) s
    (areas.map (·.1)).eraseDups.foldl (fun s g => s.loseGroup g ((areas.filter (fun e => e.1 == g)).map (·.2))) s

/-! ### Failed units (R501, R503) -/

/-- An array group that cannot serve: its logical arrays are absent. -/
def State.groupLost (s : State) (g : Nat) : State :=
  { s with arr := { s.arr with amap := s.arr.amap.filter (fun e => e.1 / 32 != g) } }

/-- A port die is lost with what is behind it. -/
def State.portDieLost (s : State) (n : Nat) : State :=
  let s := s.setDom (portDom n) { s.dom (portDom n) with state := .failed, idleAt := none }
  (s.dieLinksDown n).ethDown n

/-- What the failure of a domain's unit costs (R503). -/
def State.domLost (s : State) (d : Nat) : State :=
  if d < 16 then s.groupLost d
  else if d < 24 then
    if (d - 16) % 4 = 0 then s.lanternLost ((d - 16) / 4) 0 3
    else (List.range' (16 * (d - 16)) 16).foldl (fun s p => if (s.port p).state = .disabled ∨ (s.port p).state = .failed then s else s.failPort p 6) s
  else if d < 44 then s.stackLost (d - 24)
  else if d < 76 then s.engineFail (d - 44)
  else s.portDieLost (d - 76)

/-! ### Fault queues (R496, R499, R504) -/

/-- FAULTQ_CREATE. -/
def execFaultqCreate (t r : Nat) (s : State) : Host.Outcome State Fault Refusal :=
  .next ((s.at t).admRun r Op.FAULTQ_CREATE (fun s x =>
    let d := x.desc
    let p := d.part
    let l := bits d.w3 59 5
    if (s.faultq p).state ≠ .free then s.admEnd r Stat.BAD_STATE
    else
      let a := s.xring p d.w2.toNat (2 ^ l * 32) needW
      if a.1 ≠ Stat.SUCCESS then s.admEnd r a.1 a.2.1 a.2.2.1
      else
        let db := s.pickFrom (allIdx (fun k => s.freeDoorbells p k) 130558 2) 2
        let q : FaultQ := { FaultQ.none with
          state := .active, loc := s.locOf p a.2.2.2.addr, ext := some a.2.2.2, log2 := l, vector := bits d.w3 48 11, doorbell := db.1 }
        (db.2.setFaultq p q).admEnd r Stat.SUCCESS db.1))

/-- FAULTQ_DESTROY: later records are redirected (R500); BAD_STATE where the partition holds none. (log entry 92) -/
def execFaultqDestroy (t r : Nat) (s : State) : Host.Outcome State Fault Refusal :=
  .next ((s.at t).admRun r Op.FAULTQ_DESTROY (fun s x =>
    if (s.faultq x.desc.part).state = .free then s.admEnd r Stat.BAD_STATE
    else (s.setFaultq x.desc.part FaultQ.none).admEnd r Stat.SUCCESS))

/-- LAMP_FAULT_HEAD_WRITE (R499, R500, R505). -/
def execLampFaultHeadWrite (t : Nat) (w : Word) (s : State) : Host.Outcome State Fault Refusal :=
  .next ((s.at t).faultHead 64 (bits w 0 32) (bit w 63))

end Sys2Proof.Machine
end

