-- ==== Sys2Proof/Machine/Counters.lean ====
section
/-!
DEFINITION. The counter bank's own commands and the sample buffer (R507 to R519, spec/15_counters_and_sampling.md).
-/
namespace Sys2Proof.Machine

/-! ### Wraps (R511) -/

/-- A counter's value as read: 32 bits. -/
def State.cntValue (s : State) (n : Nat) : Nat := Tbl.get 0 s.cnt.vals n % 2 ^ 32

/-- Set the overflow bit of a counter. -/
def State.cntOverflow (s : State) (n : Nat) : State :=
  if n < 64 then s.setReg .CNT_OVF_LO 0 0 (setBits (s.reg .CNT_OVF_LO) n 1 1) else s.setReg .CNT_OVF_HI 0 0 (setBits (s.reg .CNT_OVF_HI) (n - 64) 1 1)

/-- Counter n passes 0xFFFF_FFFF: the next counter of a chain counts it, or the overflow bit is set and an interrupt sent. -/
def State.cntWrap (s : State) (n : Nat) : State :=
  let v := Tbl.get 0 s.cnt.vals n
  if v < 2 ^ 32 then s
  else
    let put (s : State) (k x : Nat) : State := { s with cnt := { s.cnt with vals := Tbl.set 0 s.cnt.vals k x } }
    let s := put s n (v - 2 ^ 32)
    if n < 127 ∧ s.flag F.CNT_CTRL_CHAIN (n + 1) then
      if s.flag F.CNT_CTRL_ENABLE (n + 1) then put s (n + 1) (Tbl.get 0 s.cnt.vals (n + 1) + 1) else s
    else
      let s := s.cntOverflow n
      if s.flag F.CNT_CTRL_INT n then s.hostIrq (s.fld F.CNT_CFG_VECTOR) else s

/-- COUNTER_WRAP (R511). -/
def execCounterWrap (t n : Nat) (s : State) : Host.Outcome State Fault Refusal := .next ((s.at t).cntWrap n)

/-! ### Stopping the bank (R514) -/

/-- The stop takes hold when local time has reached AT. -/
def State.cntStop (s : State) : State :=
  if s.flag F.CNT_STOP_ARMED && decide (s.fld F.CNT_STOP_AT ≤ s.now) then (s.setFld F.CNT_STOP_ARMED 0).setFld F.CNT_STOP_STOPPED 1 else s

/-- A write to CNT_STOP. -/
def State.cntStopWrite (s : State) (w : Word) : State := (s.cntStop.writeReg .CNT_STOP 0 0 w).cntStop

/-- CNT_STOP_ARM (R514): CNT_STOP is written with ARMED = 1. -/
def execCntStopArm (t at_ : Nat) (s : State) : Host.Outcome State Fault Refusal := .next ((s.at t).ifServing (fun s => s.cntStopWrite (word (2 ^ 63 + at_ % 2 ^ 48))))

/-- CNT_STOP_REACHED (R514). -/
def execCntStopReached (t : Nat) (s : State) : Host.Outcome State Fault Refusal := .next (s.at t).cntStop

/-- CNT_RESTART (R514): 1 is written to STOPPED; the other fields keep what they hold. -/
def execCntRestart (t : Nat) (s : State) : Host.Outcome State Fault Refusal :=
  let s := (s.at t).cntStop
  .next (s.ifServing (fun s => s.cntStopWrite (setBits (s.reg .CNT_STOP) 62 1 1)))

/-! ### Values and controls (R510, R511) -/

/-- A write to CNT_VALUE: wraps that have come before it still count. (log entry 90) -/
def State.cntValueWrite (s : State) (n v : Nat) : State :=
  { s with cnt := { s.cnt with vals := Tbl.set 0 s.cnt.vals n (Tbl.get 0 s.cnt.vals n / 2 ^ 32 * 2 ^ 32 + v % 2 ^ 32) } }

/-- CNT_VALUE_WRITE (R511). -/
def execCntValueWrite (t n v : Nat) (s : State) : Host.Outcome State Fault Refusal :=
  let s := s.at t
  .next (s.ifServing (fun s => if n < 128 then s.cntValueWrite n v else s))

/-- The events of R509 that carry no partition. -/
def untagged (code : Nat) : Bool := [0x20, 0x21, 0x22, 0x23, 0x30, 0x31, 0x40, 0x41, 0x50, 0x51].contains code

/-- A write to CNT_CTRL (R510). -/
def State.cntCtrlWrite (s : State) (n : Nat) (w : Word) : State :=
  let owner := bits w 22 6
  if owner != 0 && (untagged (bits w 0 8) || bits w 8 8 != owner) then s else s.writeReg .CNT_CTRL n 0 w

/-- CNT_CTRL_WRITE (R510). -/
def execCntCtrlWrite (t n : Nat) (w : Word) (s : State) : Host.Outcome State Fault Refusal :=
  let s := s.at t
  .next (s.ifServing (fun s => if n < 128 then s.cntCtrlWrite n w else s))

/-! ### Bandwidth windows (R515) -/

/-- WINDOW as it acts: 1 to 10,000 µs. (log entry 47) -/
def State.bwWindow (s : State) : Nat := min 10000 (max 1 (s.fld F.CNT_BW_CFG_WINDOW))

/-- The indices of CNT_BW. -/
def bwIndices : Nat := 163

/-- A window ends: every CNT_BW takes its 64 B units, the remainders are carried on. -/
def State.bwEnd (s : State) : State :=
  let c := s.cnt
  let s := (List.range bwIndices).foldl (fun s j =>
    s.setReg .CNT_BW j 0 (word ((Tbl.get 0 c.rx j / 64) % 2 ^ 32 * 2 ^ 32 + (Tbl.get 0 c.tx j / 64) % 2 ^ 32))) s
  let rest (t : Tbl Nat) : Tbl Nat := (Tbl.map (fun _ n => n % 64) t).filter (fun e => e.2 != 0)
  let s := s.count F.CNT_BW_CFG_WINDOW_SEQ
  { s with cnt := { c with tx := rest c.tx, rx := rest c.rx, window := s.bwWindow, winAt := s.now } }

/-- BW_WINDOW_END (R515): local time is a multiple of the window in force. -/
def execBwWindowEnd (t : Nat) (s : State) : Host.Outcome State Fault Refusal :=
  let s := s.at t
  .next (if s.now % (s.cnt.window * 1000) = 0 ∧ s.cnt.winAt < s.now then s.bwEnd else s)

/-! ### The sample buffer (R516, R518, R519) -/

/-- CNT_SAMPLE_HEAD_WRITE (R518). -/
def execCntSampleHeadWrite (t head : Nat) (s : State) : Host.Outcome State Fault Refusal :=
  .next ((s.at t).ifServing (fun s => s.setFld F.CNT_SAMPLE_HEAD_HEAD head))

/-- SAMPLE_ALLOC (R516, R519). (log entry 91) -/
def execSampleAlloc (t r : Nat) (s : State) : Host.Outcome State Fault Refusal :=
  .next ((s.at t).admRun r Op.SAMPLE_ALLOC (fun s x =>
    let n := bits x.desc.w2 0 8
    let ks := (maskBits (bits x.desc.w3 0 20) 20).filter (fun k => decide (k < s.nStacks))
    if s.cnt.blocks ≠ 0 then s.admEnd r Stat.BAD_STATE
    else match s.takeInternal ks n (fun k => .sample k) with
    | none => s.admEnd r Stat.NO_GALLERY_SPACE
    | some s => { s with cnt := { s.cnt with blocks := n } }.admEnd r Stat.SUCCESS (n * 16384)))

/-- The sample buffer is freed and sampling ends. -/
def State.sampleFree (s : State) : State :=
  let s := (s.setFld F.CNT_SAMPLE_CFG_ENABLE 0).releaseUses (fun u => match u with
    | .sample _ => true
    | _ => false)
  { s with cnt := { s.cnt with blocks := 0 } }

/-- SAMPLE_FREE (R519). -/
def execSampleFree (t r : Nat) (s : State) : Host.Outcome State Fault Refusal :=
  .next ((s.at t).admRun r Op.SAMPLE_FREE (fun s _ => s.sampleFree.admEnd r Stat.SUCCESS))

/-- SAMPLE_READ (R519): records from a ring index on, to the RESULT area. -/
def execSampleRead (t r : Nat) (s : State) : Host.Outcome State Fault Refusal :=
  .next ((s.at t).admRun r Op.SAMPLE_READ (fun s x =>
    let n := s.cnt.blocks * 16384
    if n = 0 then s.admEnd r Stat.BAD_STATE
    else
      let at_ (i : Nat) : Nat := s.usePhys (fun k => .sample k) ((bits x.desc.w2 0 32 + i) % n * 128)
      let k := bits x.desc.w3 0 13
      let s := (List.range k).foldl (fun s i => s.checked (3 * 2 ^ 48 + at_ i) 128) s
      if (List.range k).any (fun i => (s.physPoison (at_ i) 128).isSome) then s.admEnd r Stat.MEMORY_ERROR
      else s.admResult r x ((List.range k).flatMap (fun i => s.memRead (at_ i) 128)) k))

end Sys2Proof.Machine
end

