-- ==== Sys2Proof/Machine/Regs.lean ====
section
/-!
DEFINITION. Registers as the host sees them (R9 to R12, R35): the value a read returns, and the effect of a write on every register
whose write does more than its access codes say. The register file itself is in Machine/Ops.lean.
-/
namespace Sys2Proof.Machine

/-! ### Reading (R9) -/

/-- A word made of fields. -/
def packed (fs : List (Fld × Nat)) : Word := fs.foldl (fun w f => setBits w f.1.lo f.1.width f.2) 0

/-- Replace fields of a word. -/
def repack (w : Word) (fs : List (Fld × Nat)) : Word := fs.foldl (fun w f => setBits w f.1.lo f.1.width f.2) w

/-- A register's word with its WO fields read as 0 (R9). -/
def RegName.readable (r : RegName) (w : Word) : Word :=
  r.fields.foldl (fun w f => if f.acc = .wo then setBits w f.lo f.width 0 else w) w

/-- A list of flags as a mask. -/
def maskOf (n : Nat) (p : Nat → Bool) : Nat := ((List.range n).map (fun i => b2n (p i) * 2 ^ i)).foldl (· + ·) 0

def DomState.code : DomState → Nat
  | .off => 0 | .on => 1 | .retain => 2 | .waking => 3 | .failed => 4

/-- POWER of a stack or array group: 0 OFF, 1 ON, 2 RETAIN; a domain that wakes reads what it wakes from (log entry 60). -/
def Domain.power (x : Domain) : Nat :=
  match x.state with
  | .on => 1
  | .retain => 2
  | .waking => if x.fromOff then 0 else 2
  | _ => 0

def StackState.code : StackState → Nat
  | .absent => 0 | .serving => 1 | .evacuating => 2 | .lost => 3

def PartState.code : PartState → Nat
  | .free => 0 | .active => 1 | .resetting => 2 | .destroying => 3

def KRole.code : KRole → Nat
  | .worker => 0 | .paired => 1 | .solo => 2 | .waiting => 3 | .mirror => 4

def AdmState.code : AdmState → Nat
  | .free => 0 | .active => 1 | .hostLost => 3 | .halted => 4 | .fault => 6

/-- HST_STATUS and ACC_PORT_STATUS. -/
def Link.word (x : Link) : Word :=
  packed [(F.ACC_PORT_STATUS_LOSS_COUNT, x.losses), (F.ACC_PORT_STATUS_NUM_VFS, x.numVfs), (F.ACC_PORT_STATUS_RATE, x.rate),
    (F.ACC_PORT_STATUS_WIDTH, x.width), (F.ACC_PORT_STATUS_MODE, x.mode), (F.ACC_PORT_STATUS_ATOMIC_OK, b2n x.atomicOk),
    (F.ACC_PORT_STATUS_LOST, b2n x.lost), (F.ACC_PORT_STATUS_UP, b2n x.up)]

/-- QMG_ADM_STATUS and QMG_PADM_STATUS of admin queue a (R178). -/
def State.admWord (s : State) (a : Nat) (halt : Bool) : Word :=
  let q := s.admq a
  packed [(F.QMG_ADM_STATUS_FETCH, q.sq.fetch), (F.QMG_ADM_STATUS_HALT, b2n halt), (F.QMG_ADM_STATUS_SEQ_WAIT, b2n q.sq.seqWait),
    (F.QMG_ADM_STATUS_CQ_STATE, (s.ring (65536 + a)).state.code), (F.QMG_ADM_STATUS_SQ_STATE, q.state.code)]

/-- The blocks in state FREE of a stack that is present and not lost (R84). -/
def State.freeBlocks (s : State) (k : Nat) : Nat :=
  if (s.stack k).state = .serving ∨ (s.stack k).state = .evacuating then
    65536 - (s.pool.blks.filter (fun e => e.1 / 65536 == k && e.2.state != .free)).length
  else 0

/-- CLOSED entries of a die (RGN_FREE). -/
def State.rgnFree (s : State) (die : Nat) : Nat :=
  if s.half && die == 1 then 0 else 262144 - s.rgnCount die .open - s.rgnCount die .closing - s.rgnCount die .retired

/-- The INVALIDATE_DRAIN of a partition that is in step 4 (R58). -/
def State.draining (s : State) (p : Nat) : Option Rec :=
  (s.qm.recs.find? (fun e => e.2.desc.op == Op.INVALIDATE_DRAIN && isAdm e.2.queue && e.2.desc.part == p && e.2.phase == .waiting && e.2.aux == [1])).map (·.2)

/-- The flight entries of a die that a descriptor's nodes still lack. -/
def State.lacksFlights (s : State) (x : Rec) (die : Nat) : Nat :=
  (x.remoteNodes.filter (fun n => s.dieOf n == die && !Tbl.has s.tr.flights n)).length

/-- Descriptors that wait for a flight entry of a die (R19, R193): those that lack more of them than it has free, or that lack some on it
and have yet to take what has become free. -/
def State.waitFlight (s : State) (die : Nat) : Nat :=
  let short (x : Rec) (d : Nat) : Bool := decide (flightSlots - s.flightsOnDie d < s.lacksFlights x d)
  (s.qm.recs.filter (fun e => e.2.phase == .running && !e.2.started && e.2.sends
    && (short e.2 die || (s.lacksFlights e.2 die != 0 && !short e.2 (1 - die))))).length

/-- The shown state of partition p, for PRT_STATE and PRT_SELF. -/
def Part.word (x : Part) : Word :=
  packed [(F.PRT_SELF_GEN, x.gen), (F.PRT_SELF_STATE, x.state.code), (F.PRT_SELF_HALTED, b2n x.halted),
    (F.PRT_SELF_FABRIC_ENC, b2n x.fabricEnc), (F.PRT_SELF_CNT_USER, b2n x.cntUser)]

/-- FAB_PORT_STATUS. -/
def Port.word (x : Port) : Word :=
  packed [(F.FAB_PORT_STATUS_PEER_NODE, x.peerNode), (F.FAB_PORT_STATUS_PEER_VALID, b2n x.peerValid), (F.FAB_PORT_STATUS_PEER_PORT, x.peerPort),
    (F.FAB_PORT_STATUS_DELAY, x.delay), (F.FAB_PORT_STATUS_VERSION, x.version), (F.FAB_PORT_STATUS_RETRAINS, x.retrains),
    (F.FAB_PORT_STATUS_REASON, x.reason), (F.FAB_PORT_STATUS_STATE, x.state.code)]

/-- FAB_CAL word w of output o: four slot entries. -/
def State.calWord (s : State) (o w : Nat) : Word :=
  word (((List.range 4).map (fun k =>
    let v := Tbl.get 0 (s.out o).cal (4 * w + k)
    (if v = 0 then 0 else 2 ^ 15 + (v - 1)) * 2 ^ (16 * k))).foldl (· + ·) 0)

/-- ARR_GROUP_STATUS of group g (R294). -/
def State.arrWord (s : State) (g : Nat) : Word :=
  let used := ([34 * g + 32, 34 * g + 33].filter (fun a => (List.range 32).any (fun i => s.physArray (32 * g + i) == some a))).length
  packed [(F.ARR_GROUP_STATUS_DOUBLED, maskOf 32 (fun i => s.doubled (32 * g + i))), (F.ARR_GROUP_STATUS_OUT, b2n (!s.groupServes g)),
    (F.ARR_GROUP_STATUS_FAILED, 34 - s.groupWorking g), (F.ARR_GROUP_STATUS_SPARES_USED, used), (F.ARR_GROUP_STATUS_POWER, (s.dom (arrayDom g)).power),
    (F.ARR_GROUP_STATUS_BUSY, (s.busyIn g).length),
    (F.ARR_GROUP_STATUS_ASSIGNED, ((s.col.plans.flatMap (fun e => e.2.arrays.filter (fun a => a / 32 == g))).eraseDups).length)]

/-- SEC_PART_KEYS of partition p. -/
def State.keysWord (s : State) (p : Nat) : Word :=
  packed [(F.SEC_PART_KEYS_KEK_SET, b2n (Tbl.has s.sec.keks p)), (F.SEC_PART_KEYS_TX_VALID, b2n (s.txSlot p).isSome),
    (F.SEC_PART_KEYS_TX_KEY_ID, (s.txSlot p).getD 0), (F.SEC_PART_KEYS_SLOTS, maskOf 16 (fun k => Tbl.has s.sec.tkeys (p * 16 + k))),
    (F.SEC_PART_KEYS_HANDLES, (s.sec.xts.filter (fun e => e.1 / 64 == p)).length)]

/-- What a register of the adapter reads: the value its state gives, for a register that shows state, else what the register file
holds. (log entry 109) -/
def State.shown (s : State) (r : RegName) (i j : Nat) : Word :=
  let w := s.reg r i j
  match r with
  | .LAMP_DEVICE_ID => packed [(F.LAMP_DEVICE_ID_STEPPING, s.chip.stepping), (F.LAMP_DEVICE_ID_VARIANT, s.chip.variant), (F.LAMP_DEVICE_ID_FAMILY, 0x5A51)]
  | .LAMP_POPULATION => word s.chip.pop
  | .XLT_NODE_ID => match s.node with
    | some n => packed [(F.XLT_NODE_ID_VALID, 1), (F.XLT_NODE_ID_NODE, n)]
    | none => 0
  | .XLT_PART_CFG =>
    let x := s.part i
    packed [(F.XLT_PART_CFG_PAGES, x.pages), (F.XLT_PART_CFG_ACC_ALLOW, x.accAllow), (F.XLT_PART_CFG_HOST_ALLOW, b2n x.hostAllow),
      (F.XLT_PART_CFG_GALLERY_ALLOW, b2n x.galleryAllow), (F.XLT_PART_CFG_ENABLED, b2n (x.state != .free))]
  | .XLT_DRAIN_STATUS => match s.draining i with
    | some x => packed [(F.XLT_DRAIN_STATUS_ACTIVE, 1), (F.XLT_DRAIN_STATUS_WAITING, x.cover.length)]
    | none => 0
  | .XLT_FAULT_COUNT => word (s.part i).faults
  | .RGN_INCARNATION => word (s.nv.inc % 65536)
  | .RGN_FREE => packed [(F.RGN_FREE_DIE1, s.rgnFree 1), (F.RGN_FREE_DIE0, s.rgnFree 0)]
  | .RGN_RETIRED => packed [(F.RGN_RETIRED_DIE1, s.rgnCount 1 .retired), (F.RGN_RETIRED_DIE0, s.rgnCount 0 .retired)]
  | .GRT_STACK_STATUS =>
    let x := s.stack i
    packed [(F.GRT_STACK_STATUS_CE_COUNT, x.ce), (F.GRT_STACK_STATUS_UE_COUNT, x.ue), (F.GRT_STACK_STATUS_POWER, (s.dom (stackDom i)).power),
      (F.GRT_STACK_STATUS_STATE, x.state.code)]
  | .GRT_POOL => packed [(F.GRT_POOL_FREE, ((List.range s.nStacks).map s.freeBlocks).foldl (· + ·) 0),
      (F.GRT_POOL_INTERNAL, (s.pool.blks.filter (fun e => e.2.state == .internal)).length)]
  | .HST_STATUS => repack (s.link 0).word [(F.ACC_PORT_STATUS_NUM_VFS, 0), (F.ACC_PORT_STATUS_ATOMIC_OK, 0)]
  | .HST_DROPPED => word (s.link 0).dropped
  | .ACC_PORT_STATUS => (s.link (1 + i)).word
  | .ACC_DROPPED => word (s.link (1 + i)).dropped
  | .ACC_REFUSED => packed [(F.ACC_REFUSED_STORES, (s.link (1 + i)).refStores), (F.ACC_REFUSED_LOADS, (s.link (1 + i)).refLoads)]
  | .QMG_CAPS => packed [(F.QMG_CAPS_FMT, 2), (F.QMG_CAPS_RINGS, s.nRings), (F.QMG_CAPS_QPS, s.nQps)]
  | .QMG_ADM_STATUS => s.admWord 64 s.qm.devHalt
  | .QMG_PADM_STATUS => s.admWord i (s.part i).halted
  | .QMG_PART_HALT => word (maskOf 64 (fun p => (s.part p).halted))
  | .TRN_EPOCH => word (s.nv.epoch % 65536)
  | .TRN_FLIGHT_STATUS => packed [(F.TRN_FLIGHT_STATUS_WAITING, s.waitFlight i), (F.TRN_FLIGHT_STATUS_IN_USE, s.flightsOnDie i)]
  | .TRN_RD_STATUS => packed [(F.TRN_RD_STATUS_ENTRIES, (s.rdsOf i).length), (F.TRN_RD_STATUS_BITMAPS, ((s.rdsOf i).filter (fun e => e.bitmap)).length)]
  | .TRN_RSP_POOL => packed [(F.TRN_RSP_POOL_FREE, s.freeUnits i), (F.TRN_RSP_POOL_SIZE, 0x4000)]
  | .SCH_BEACON_USE => packed [(F.SCH_BEACON_USE_RATE_USED, s.beaconTotal), (F.SCH_BEACON_USE_QUEUES, s.beaconQps 0 + (if s.half then 0 else s.beaconQps 1))]
  | .SCH_PART_BEACON => packed [(F.SCH_PART_BEACON_USED, s.beaconUsed i), (F.SCH_PART_BEACON_QUOTA, (s.part i).beaconRate)]
  | .SCH_PART_QUEUES => word ((s.part i).queues / 4 * 4)
  | .SCH_BEACON_PORT => repack w [(F.SCH_BEACON_PORT_WAIT_NS, (waitNs i (fun k => Tbl.get 0 (s.out i).cal k == 0) (bits w 32 16 * 64)).getD 0xFFFF)]
  | .FAB_CAPS => word s.fabVersions
  | .FAB_ENGINE_STATUS => s.engineWord i
  | .FAB_PORT_STATUS => (s.port i).word
  | .FAB_PORT_ERR => packed [(F.FAB_PORT_ERR_CORRECTED, (s.port i).corrected), (F.FAB_PORT_ERR_UNCORRECTABLE, (s.port i).uncorrectable)]
  | .FAB_CREDIT_STATUS => packed [(F.FAB_CREDIT_STATUS_LOST, (s.port i).lostFlits),
      (F.FAB_CREDIT_STATUS_SHARED_FREE, if (s.port i).carries then s.sharedFree i else 0)]
  | .SWT_TOPO => repack w [(F.SWT_TOPO_COORD, if s.node.isSome then s.ownCoord i else 0)]
  | .SWT_ROUTE_CTRL => repack w [(F.SWT_ROUTE_CTRL_ALL_STOPPED, b2n s.allStopped), (F.SWT_ROUTE_CTRL_STOPPED, s.fld F.SWT_ROUTE_CTRL_STOP)]
  | .SWT_DRAIN_STATUS => word (s.drainCount i % 65536)
  | .FAB_CAL => s.calWord i j
  | .ARR_CAPS => packed [(F.ARR_CAPS_FORMATS, 0x73F3F), (F.ARR_CAPS_ENABLED, s.sized 512), (F.ARR_CAPS_GROUPS, s.sized 16)]
  | .ARR_MAP_DATA =>
    let l := s.fld F.ARR_MAP_SEL_LOGICAL
    packed [(F.ARR_MAP_DATA_PHYSICAL, (s.physArray l).getD 0x3FF), (F.ARR_MAP_DATA_DOUBLED, b2n (s.sharedWith l).isSome),
      (F.ARR_MAP_DATA_SHARED_WITH, (s.sharedWith l).getD 0)]
  | .ARR_GROUP_STATUS => s.arrWord i
  | .COL_CAPS => packed [(F.COL_CAPS_FMT, 2), (F.COL_CAPS_PLANS, s.nPlans), (F.COL_CAPS_GROUPS, s.nGroups)]
  | .COL_USE => packed [(F.COL_USE_PLANS, (s.col.plans.filter (fun e => e.2.state != .loading)).length),
      (F.COL_USE_GROUPS, (s.col.groups.filter (fun e => e.2.state != .free)).length)]
  | .ETH_PORT_STATUS =>
    let x := s.ethPort i
    repack w [(F.ETH_PORT_STATUS_PAUSED, maskOf 8 (fun p => s.paused i p)), (F.ETH_PORT_STATUS_XOFF, maskOf 8 (fun p => Tbl.has x.xoff p)),
      (F.ETH_PORT_STATUS_REMOTE_FAULT, b2n x.remoteFault), (F.ETH_PORT_STATUS_LOCAL_FAULT, b2n x.localFault), (F.ETH_PORT_STATUS_UP, b2n x.up)]
  | .ETH_TIMER => word (s.ethTimer i)
  | .PRT_STATE => repack w [(F.PRT_STATE_GEN, (s.part i).gen), (F.PRT_STATE_STATE, (s.part i).state.code)]
  | .PRT_EXPOSE => word (maskOf 64 (fun p => (s.part p).state != .free && (s.part p).expose.testBit i))
  | .PRT_SELF => (s.part i).word
  | .KPR_STATUS =>
    let k := s.kpr
    packed [(F.KPR_STATUS_TERM, k.term), (F.KPR_STATUS_ROLE, k.role.code), (F.KPR_STATUS_ORPHAN, b2n k.orphan), (F.KPR_STATUS_DORMANT, b2n k.dormant),
      (F.KPR_STATUS_KGROUP, k.kgroup), (F.KPR_STATUS_ACTIVE_NODE, k.active.getD 0)]
  | .KPR_LC_CFG => repack w [(F.KPR_LC_CFG_GROUP_SIZE, s.kpr.size)]
  | .LAMP_STATUS => repack w [(F.LAMP_STATUS_START_COUNT, s.nv.starts), (F.LAMP_STATUS_WARM, b2n s.start.warm)]
  | .LAMP_LEDGER => repack w [(F.LAMP_LEDGER_ENTRIES, s.nv.ledger.length)]
  | .LAMP_IMAGE => repack w [(F.LAMP_IMAGE_FLOOR, s.nv.floor)]
  | .SEC_CIPHER => repack w [(F.SEC_CIPHER_IN_SERVICE, if s.fld F.LAMP_STATUS_STAGE = 6 then maskOf (s.sized 32) (fun c => !s.sec.cores.contains c) else 0),
      (F.SEC_CIPHER_GALLERY_KEYS, s.pool.xtsKeys.length)]
  | .SEC_PART_KEYS => s.keysWord i
  | .LAMP_RTC => word s.rtc
  | .LAMP_FAULT_STATUS => packed [(F.LAMP_FAULT_STATUS_LOST, min (s.faultq 64).lost (2 ^ 32 - 1)), (F.LAMP_FAULT_STATUS_TAIL, (s.faultq 64).tail)]
  | .LAMP_FAULT_RING => (((Tbl.find (s.faultq 64).slots (i / 4)).getD []).getD (i % 4) 0)
  | .PWR_DOMAIN => repack w [(F.PWR_DOMAIN_LAST_WAKE, (s.dom i).lastWake), (F.PWR_DOMAIN_STATE, (s.dom i).state.code)]
  | .CNT_TIME => word (s.now % 2 ^ 48)
  | .CNT_VALUE => word (s.cntValue i)
  | _ => w

/-- Registers that serve while STAGE reads OUT_OF_SERVICE: identification, LAMP_ and PWR_ (R35). -/
def RegName.alwaysServes (r : RegName) : Bool :=
  let p := r.place
  decide (p.base < 0x600000) || (decide (0x830000 ≤ p.base) && decide (p.base < 0x840000))

/-- Whether the variant fits a register's unit (R4, R11). -/
def State.regFitted (s : State) (r : RegName) (i j : Nat) : Bool :=
  match r with
  | .GRT_STACK_STATUS => decide (i < s.nStacks)
  | .ACC_PORT_CFG | .ACC_PORT_STATUS | .ACC_MEM_CFG | .ACC_STALL_LIMIT | .ACC_DROPPED | .ACC_REFUSED => decide (i < s.nAcc)
  | .TRN_FLIGHT_STATUS | .TRN_RD_STATUS | .TRN_RSP_POOL => decide (i < s.nDies)
  | .SCH_WEIGHTS | .SCH_STRICT_CAP | .SCH_BEACON_PORT | .SCH_MARK | .SCH_CLASS_MAP | .FAB_CAL => s.outFitted i
  | .FAB_ENGINE_STATUS => decide (i < s.nEngines)
  | .FAB_PORT_CFG | .FAB_PORT_STATUS | .FAB_PORT_ERR | .FAB_CREDIT_STATUS => decide (i < s.nPorts)
  | .ARR_GROUP_STATUS => decide (i < s.sized 16)
  | .ETH_PORT_CFG | .ETH_PORT_STATUS | .ETH_RX_CFG | .ETH_GATE_CTRL | .ETH_GATE_CYCLE | .ETH_GATE_BASE | .ETH_GATE_STOP | .ETH_TIMER
  | .ETH_TIMER_ADJ | .ETH_PFC_THRESH | .ETH_COUNT | .ETH_MAC | .ETH_FILTER_W0 | .ETH_FILTER_W1 | .ETH_GCL_W0 | .ETH_GCL_W1 => decide (i < s.nEth)
  | .PRT_EXPOSE => decide (i < s.nAcc)
  | .PWR_DOMAIN => s.domFitted i
  | .CNT_BW => decide (j = 0)
  | _ => true

/-- Whether a register serves now. -/
def State.regServes (s : State) (r : RegName) (i j : Nat) : Bool := s.regFitted r i j && (r.alwaysServes || s.fld F.LAMP_STATUS_STAGE != 8)

/-- A read of a register: WO and reserved fields, and registers that do not serve, read as zero. -/
def State.readReg (s : State) (r : RegName) (i j : Nat) : Word := if s.regServes r i j then r.readable (s.shown r i j) else 0

/-- The two words of an MSI-X table entry: the message address; the data and, from bit 32, the vector control with its mask (R114). -/
def Vec.words (y : Vec) : Word × Word := (word y.addr, word (y.data % 2 ^ 32 + b2n y.masked * 2 ^ 32))

/-- A 64-bit word of BAR4 of function fn of a link: the table from offset 0, the PBA from 0x8000 (R114). -/
def State.vecWord (s : State) (l fn o : Nat) : Word :=
  let x := s.link l
  if o < 0x8000 then
    let w := (x.vec fn (o / 16)).words
    if o % 16 < 8 then w.1 else w.2
  else if o < 0x8100 then word (maskOf 64 (fun k => (x.vec fn ((o - 0x8000) / 8 * 64 + k)).pending))
  else 0

/-- What a register at an offset shows to a link, with its width (R11, R13, R114, R117, R510): BAR0 on the host link alone; in a partition BAR
the identification registers, and where the partition is exposed its status registers and its own counters from offset 0x400 on; the
MSI-X tables. -/
def State.regOn (s : State) (l a : Nat) : Option (Nat × Word) :=
  let held := (regAt a).map (fun x => (x.1.place.width, s.readReg x.1 x.2.1 x.2.2))
  if vecBar ≤ a then (if a % 8 = 0 then some (64, s.vecWord l ((a - vecBar) / 0x10000) ((a - vecBar) % 0x10000)) else none)
  else if partBar ≤ a then
    let p := (a - partBar) / 0x100000
    let o := (a - partBar) % 0x100000
    if o = 0 then some (32, s.readReg .LAMP_DEVICE_ID 0 0)
    else if o = 8 then some (64, s.readReg .LAMP_POPULATION 0 0)
    else if !s.exposed l p then none
    else if 0x400 ≤ o ∧ o < 0x600 ∧ o % 4 = 0 then
      let n := (o - 0x400) / 4
      some (32, if (s.part p).cntUser ∧ p ≠ 0 ∧ s.fld F.CNT_CTRL_OWNER n = p then s.readReg .CNT_VALUE n 0 else 0)
    else held
  else if l = 0 then held
  else none

/-- The 32 bits at an offset: a register, or the half of a 64-bit one; zero where there is none (R10, R11). -/
def State.half32 (s : State) (l a : Nat) : Nat :=
  match s.regOn l a with
  | some (_, w) => w.toNat % 2 ^ 32
  | none => match if a % 8 = 4 then s.regOn l (a - 4) else none with
    | some (64, w) => w.toNat / 2 ^ 32
    | _ => 0

/-- A read of `width` bits at an offset, as a link sees it (R10). (log entry 61) -/
def State.readOn (s : State) (l a width : Nat) : Word :=
  if width = 64 then
    match s.regOn l a with
    | some (64, w) => w
    | _ => word (s.half32 l a + s.half32 l (a + 4) * 2 ^ 32)
  else word (s.half32 l a)

/-- A read of BAR0 as the Lamp room sees it. -/
def State.readAt (s : State) (a width : Nat) : Word := s.readOn 0 a width

/-! ### Writing (R9, and the rules of each register) -/

/-- Registers that change only under the stop of R288: the dimension's, or STOP_ALL. -/
def State.routeFree (s : State) (d : Nat) : Bool := s.dimStopped d || s.allStopped

/-- A write to HST_CTRL (R132, R133, R136): of several bits that are 1, DETACH acts first, then ATTACH, then ENABLE. (log entry 136) -/
def State.hstCtrl (s : State) (w : Word) : State :=
  let s := s.writeReg .HST_CTRL 0 0 w
  let s := if bit w 2 then s.linkLoss 0 2 else s
  let s := if bit w 1 then s.hstAttach else s
  if bit w 0 then s.linkEnable 0 else s

/-- A write to ACC_PORT_CFG, with its bits in the same order. (log entry 136) -/
def State.accCfg (s : State) (n : Nat) (w : Word) : State :=
  let s := s.writeReg .ACC_PORT_CFG n 0 w
  let s := if bit w 38 then s.linkLoss (1 + n) 2 else s
  let s := if bit w 37 then s.accAttach n else s
  if bit w 36 then s.linkEnable (1 + n) else s

/-- A write to ACC_MEM_CFG: ignored when it names a partition not exposed on the port. -/
def State.accMem (s : State) (n : Nat) (w : Word) : State := if s.exposed (1 + n) (bits w 0 6) then s.writeReg .ACC_MEM_CFG n 0 w else s

/-- The state a meaning answers (every meaning answers a next state). -/
def outcomeState (s : State) : Host.Outcome State Fault Refusal → State
  | .next s' => s'
  | _ => s

/-- A write to SCH_CLASS_MAP that names queue 0 to 3 in any field is ignored. -/
def State.classMap (s : State) (o : Nat) (w : Word) : State :=
  if 4 ≤ bits w 0 6 ∧ 4 ≤ bits w 6 6 ∧ 4 ≤ bits w 12 6 then s.writeReg .SCH_CLASS_MAP o 0 w else s

/-- A write to CNT_SAMPLE_CFG: ENABLE stays 0 without a buffer. -/
def State.sampleCfg (s : State) (w : Word) : State :=
  s.writeReg .CNT_SAMPLE_CFG 0 0 (if s.cnt.blocks = 0 then setBits w 63 1 0 else w)

/-- A write to KPR_SW_ALIVE restarts the software watch (R422). -/
def State.swAlive (s : State) : State := { s with kpr := { s.kpr with swAt := s.now } }

/-- A write to CNT_OVF is RW1C, bit by bit. -/
def State.bitClear (s : State) (r : RegName) (i : Nat) (w : Word) : State := s.setReg r i 0 (s.reg r i &&& ~~~w)

/-- A write to SCH_STRICT_CAP (R228): the caps so far act up to now. -/
def State.capWrite (s : State) (o : Nat) (w : Word) : State :=
  let caps := [1, 2, 3].foldl (fun t q => settleBucket t q (s.capRate o q) 16384 16384 s.now) (s.out o).caps
  (s.setOut o { s.out o with caps := caps }).writeReg .SCH_STRICT_CAP o 0 w

/-- A write to a shaper or policer of partition p (R250): its bucket has filled under the old setting, and is cut to the new BURST. -/
def State.settlePart (s u : State) (t : Tbl Bucket) (rate burst : Fld) (p : Nat) : Tbl Bucket :=
  settleBucket t p (s.fld rate p) (s.fld burst p * 1024) (u.fld burst p * 1024) s.now

def State.shapeWrite (s : State) (p : Nat) (w : Word) : State :=
  let u := s.writeReg .SCH_PART_SHAPE p 0 w
  u.setSw { u.sw with shape := s.settlePart u s.sw.shape F.SCH_PART_SHAPE_RATE F.SCH_PART_SHAPE_BURST p }

def State.ethShapeWrite (s : State) (p : Nat) (w : Word) : State :=
  let u := s.writeReg .SCH_PART_ETH_SHAPE p 0 w
  u.setSw { u.sw with ethShape := s.settlePart u s.sw.ethShape F.SCH_PART_ETH_SHAPE_RATE F.SCH_PART_ETH_SHAPE_BURST p }

def State.policeWrite (s : State) (p : Nat) (w : Word) : State :=
  let u := s.writeReg .SCH_PART_POLICE p 0 w
  u.setSw { u.sw with police := s.settlePart u s.sw.police F.SCH_PART_POLICE_RATE F.SCH_PART_POLICE_BURST p }

/-- A write to SCH_WEIGHTS: of k = 0, W0 to W3 are read-only zero, since queues 0 to 3 have no weight (R252). -/
def State.weightsWrite (s : State) (o k : Nat) (w : Word) : State := s.writeReg .SCH_WEIGHTS o k (if k = 0 then setBits w 0 32 0 else w)

/-- What a write of a word to a register does at local time now. LAMP_RESET has its own command. -/
def State.hostWrite (s : State) (r : RegName) (i j : Nat) (w : Word) : State :=
  if !s.regServes r i j then s
  else match r with
  | .HST_CTRL => s.hstCtrl w
  | .ACC_PORT_CFG => s.accCfg i w
  | .ACC_MEM_CFG => s.accMem i w
  | .QMG_ADM_CFG => outcomeState s (execQmgAdmEnable s.now w s)
  | .QMG_ADM_SQ_DB => outcomeState s (execAdmSqDoorbell s.now w.toNat s)
  | .QMG_ADM_CQ_DB => outcomeState s (execAdmCqDoorbell s.now w s)
  | .QMG_PADM_CFG => outcomeState s (execQmgPadmEnable s.now i w s)
  | .TRN_RETRY_HORIZON => s.horizonWrite w
  | .TRN_ETH_NETDELAY => s.netdelayWrite w
  | .SCH_BEACON_INJ => s.beaconInj w
  | .SCH_BEACON_PORT => s.beaconPort i w
  | .SCH_SAMPLE_SEL => s.sampleSel w
  | .SCH_CLASS_MAP => s.classMap i w
  | .SCH_STRICT_CAP => s.capWrite i w
  | .SCH_PART_SHAPE => s.shapeWrite i w
  | .SCH_PART_ETH_SHAPE => s.ethShapeWrite i w
  | .SCH_PART_POLICE => s.policeWrite i w
  | .SCH_WEIGHTS => s.weightsWrite i j w
  | .FAB_PORT_CFG => s.fabPortCfg i w
  | .SWT_TOPO => if s.routeFree i then s.withdrawn (s.writeReg r i j w) else s
  | .SWT_DIR_LO => if s.routeFree i then s.withdrawn (s.writeReg r i j w) else s
  | .SWT_DIR_HI => if s.routeFree i then s.withdrawn (s.writeReg r i j w) else s
  | .SWT_ROUTE_CTRL => s.routeStop w
  | .ETH_PORT_CFG => s.ethPortCfg i w
  | .ETH_GATE_CTRL => if bit w 31 then s.gateRestart i w else s.gateStop i w
  | .ETH_GATE_CYCLE => if s.flag F.ETH_GATE_CTRL_STOPPED i then s.writeReg r i j w else s
  | .ETH_GATE_BASE => if s.flag F.ETH_GATE_CTRL_STOPPED i then s.writeReg r i j w else s
  | .ETH_GCL_W0 => if s.flag F.ETH_GATE_CTRL_STOPPED i then s.writeReg r i j w else s
  | .ETH_GCL_W1 => if s.flag F.ETH_GATE_CTRL_STOPPED i then s.writeReg r i j w else s
  | .ETH_GATE_STOP =>
    let s := s.writeReg r i j w
    if s.flag F.ETH_GATE_CTRL_STOPPED i then s.modEthPort i (fun x => { x with gates := w.toNat }) else s
  | .ETH_TIMER_ADJ => s.timerAdj i w
  | .ETH_PFC_THRESH => (s.writeReg r i j w).pfcCheck i
  | .ETH_FILTER_W1 => s.filterCommit i j w
  | .KPR_SW_ALIVE => s.swAlive
  | .LAMP_FAULT_HEAD => s.faultHead 64 (bits w 0 32) (bit w 63)
  | .LAMP_RTC_SET => s.rtcSet w.toNat
  | .LAMP_RESET => s
  | .PWR_DOMAIN => s.holdWrite i w
  | .CNT_STOP => s.cntStopWrite w
  | .CNT_CTRL => s.cntCtrlWrite i w
  | .CNT_VALUE => s.cntValueWrite i w.toNat
  | .CNT_SAMPLE_CFG => s.sampleCfg w
  | .CNT_OVF_LO => s.bitClear r i w
  | .CNT_OVF_HI => s.bitClear r i w
  | _ => s.writeReg r i j w

/-- A write of `width` bits at a BAR0 offset (R10, R11): a write of another width than the register's does nothing (log entry 61). -/
def State.writeAt (s : State) (a width : Nat) (w : Word) : State :=
  match regAt a with
  | some (r, i, j) => if r.place.width = width then s.hostWrite r i j (if width = 32 then word (w.toNat % 2 ^ 32) else w) else s
  | none => s

/-! ### Writes during a stop–change–restart (R33, R288, R391) -/

/-- The stop–change–restart that a write belongs to: 0 of the routing, 1 + e of the gates of Ethernet port e. -/
def State.seqOf (s : State) (r : RegName) (i : Nat) (w : Word) : Option Nat :=
  let moves (f : Fld) : Bool := bits w f.lo f.width != s.fld f i
  match r with
  | .SWT_ROUTE_CTRL | .SWT_TOPO | .SWT_DIR_LO | .SWT_DIR_HI => some 0
  | .FAB_PORT_CFG => if moves F.FAB_PORT_CFG_DIM || moves F.FAB_PORT_CFG_DIR || moves F.FAB_PORT_CFG_ROUTE then some 0 else none
  | .ETH_GATE_CTRL | .ETH_GATE_CYCLE | .ETH_GATE_BASE | .ETH_GATE_STOP | .ETH_GCL_W0 | .ETH_GCL_W1 | .ETH_TIMER_ADJ => some (1 + i)
  | _ => none

/-- Whether what sequence q changes stands stopped, or is to stop. -/
def State.seqStopped (s : State) (q : Nat) : Bool :=
  if q = 0 then s.flag F.SWT_ROUTE_CTRL_STOP_ALL || s.fld F.SWT_ROUTE_CTRL_STOP != 0
  else !s.flag F.ETH_GATE_CTRL_RUN (q - 1) || s.flag F.ETH_GATE_CTRL_STOPPED (q - 1)

/-- Whether a write of a source, 1 the host and 2 the I3C, waits: another source has a change of the same function in progress (R33). -/
def State.seqHeld (s : State) (src : Nat) (r : RegName) (i : Nat) (w : Word) : Bool :=
  match s.seqOf r i w with
  | some q => (Tbl.find s.io.stops q).any (fun h => h != src)
  | none => false

/-- A write takes effect; one that stops a sequence makes its source the one that changes it, and one that restarts it ends the change. -/
def State.seqWrite (s : State) (src : Nat) (r : RegName) (i j : Nat) (w : Word) : State :=
  let u := s.hostWrite r i j w
  match s.seqOf r i w with
  | some q =>
    if !u.seqStopped q then { u with io := { u.io with stops := Tbl.del u.io.stops q } }
    else if s.seqStopped q then u
    else { u with io := { u.io with stops := Tbl.put u.io.stops q src } }
  | none => u

/-- Writes that waited and wait no longer take effect, oldest first. The number bounds them. -/
def State.lateWrites (s : State) : Nat → State
  | 0 => s
  | n + 1 =>
    match s.io.late.find? (fun x => !s.seqHeld x.source x.reg x.i x.w) with
    | none => s
    | some x => State.lateWrites (({ s with io := { s.io with late := s.io.late.erase x } }).seqWrite x.source x.reg x.i x.j x.w) n

/-- A register write of a management source: it waits while another source has a change of the same function in progress (R33). (log entry 128) -/
def State.mgmtWrite (s : State) (src : Nat) (r : RegName) (i j : Nat) (w : Word) : State :=
  if s.seqHeld src r i w then
    match s.seqOf r i w with
    | some q => { s with io := { s.io with late := s.io.late ++ [⟨q, src, r, i, j, w⟩] } }
    | none => s
  else
    let u := s.seqWrite src r i j w
    u.lateWrites u.io.late.length

/-- A write of `width` bits of a management source at a BAR0 offset. -/
def State.writeFrom (s : State) (src a width : Nat) (w : Word) : State :=
  match regAt a with
  | some (r, i, j) => if r.place.width = width then s.mgmtWrite src r i j (if width = 32 then word (w.toNat % 2 ^ 32) else w) else s
  | none => s

/-- Replace 32 bits of a word, or all of it. -/
def splice (old : Word) (o width : Nat) (w : Word) : Word := if width = 64 then w else setBits old (o % 8 * 8) 32 w.toNat

/-- A write to BAR4 of function fn of a link: a table entry changes, and one that is not masked any more sends what was pending; the PBA is
read-only (R114). (log entry 125) -/
def State.vecWrite (s : State) (l fn o width : Nat) (w : Word) : State :=
  if o < 0x8000 then
    let x := s.link l
    let y := x.vec fn (o / 16)
    let new := splice (s.vecWord l fn (o / 8 * 8)) o width w
    let y := if o % 16 < 8 then { y with addr := new.toNat / 4 * 4 } else { y with data := bits new 0 32, masked := bit new 32 }
    let s := s.setLink l (x.setVec fn (o / 16) (if y.masked then y else { y with pending := false }))
    if y.pending && !y.masked then s.sendMsix l fn (o / 16) else s
  else s

/-- A write of `width` bits that a link carries (R9 to R11, R114 to R117): to BAR0 on the host link alone; to a doorbell page, where only 8 B
ring; to the read-only page 0 of a partition BAR; to an MSI-X table. -/
def State.linkWritten (s : State) (l a width : Nat) (w : Word) : State :=
  let u := s.bwRx (bwLink l) (width / 8)
  if vecBar ≤ a then u.vecWrite l ((a - vecBar) / 0x10000 % 64) ((a - vecBar) % 0x10000) width w
  else if partBar ≤ a then
    let p := (a - partBar) / 0x100000 % 64
    let o := (a - partBar) % 0x100000
    if o < 0x1000 then u
    else if width = 64 then
      let n := (o - 0x1000) / 8
      outcomeState s (match s.dbOwner p n with
        | .queue _ => execQpDoorbell s.now l p n 8 w s
        | _ => execRingDoorbell s.now l p n 8 w s)
    else u.dropDoorbell l
  else if l = 0 then u.writeFrom 1 a width w
  else u

/-- SWT_ROUTE_STOP (R288). -/
def execSwtRouteStop (t : Nat) (w : Word) (s : State) : Host.Outcome State Fault Refusal := .next ((s.at t).mgmtWrite 1 .SWT_ROUTE_CTRL 0 0 w)

/-- FAB_PORT_ENABLE (R264). -/
def execFabPortEnable (t p : Nat) (w : Word) (s : State) : Host.Outcome State Fault Refusal := .next ((s.at t).mgmtWrite 1 .FAB_PORT_CFG p 0 w)

/-- FAB_PORT_RETRAIN (R264, R267). -/
def execFabPortRetrain (t p : Nat) (w : Word) (s : State) : Host.Outcome State Fault Refusal :=
  let s := s.at t
  .next (if bit w 29 then s.mgmtWrite 1 .FAB_PORT_CFG p 0 w else s)

/-- ETH_GATE_STOP (R391 step 1): RUN is written 0. -/
def execEthGateStop (t e : Nat) (w : Word) (s : State) : Host.Outcome State Fault Refusal :=
  let s := s.at t
  .next (if bit w 31 then s else s.mgmtWrite 1 .ETH_GATE_CTRL e 0 w)

/-- ETH_GATE_RESTART (R391 step 3): RUN is written 1. -/
def execEthGateRestart (t e : Nat) (w : Word) (s : State) : Host.Outcome State Fault Refusal :=
  let s := s.at t
  .next (if bit w 31 then s.mgmtWrite 1 .ETH_GATE_CTRL e 0 w else s)

/-- ETH_TIMER_ADJ_WRITE (R389). -/
def execEthTimerAdjWrite (t e : Nat) (w : Word) (s : State) : Host.Outcome State Fault Refusal := .next ((s.at t).mgmtWrite 1 .ETH_TIMER_ADJ e 0 w)

end Sys2Proof.Machine
end

