-- ==== Sys2Proof/Machine/Keeper.lean ====
section
/-!
DEFINITION. Keepers (R410 to R433, spec/12_partitions_and_keepers.md): the light character, joining, the Keeper record and its mirror,
takeover, fault reports and fog signals, the redirect table, and the Keeper commands.
-/
namespace Sys2Proof.Machine

/-! ### Messages (R412, R413) -/

/-- A Keeper message as received: `src` the node that sent it, or 65,536 + p from fabric port p in state MGT_ONLY; `raw` all of it. -/
structure KMsg where
  src    : Nat
  kgroup : Nat
  term   : Nat
  seq    : Nat
  body   : List Byte
  raw    : List Byte
  deriving DecidableEq, Repr

def KMsg.of (src : Nat) (bs : List Byte) : KMsg :=
  { src := src, kgroup := bits (wordAt bs 0) 40 12, term := bits (wordAt bs 0) 0 32, seq := bits (wordAt bs 1) 32 32, body := bs.drop 16, raw := bs }

/-- MTYPE of a message. -/
def mtypeOf (bs : List Byte) : Nat := bits (wordAt bs 0) 56 8

/-- Take the k-th delivered message, if it is a Keeper message of a type. -/
def State.takeMsg (s : State) (k mtype : Nat) : Option (KMsg × State) :=
  match s.tr.inbox[k]? with
  | none => none
  | some (src, qpn, bs) =>
    if qpn = 0 ∧ mtypeOf bs = mtype then some (KMsg.of src bs, { s with tr := { s.tr with inbox := s.tr.inbox.eraseIdx k } })
    else none

/-- A Keeper message of this adapter with a given SEQ. -/
def State.keeperBytes (s : State) (mtype seq : Nat) (body : List Byte) : List Byte :=
  wordBytes (word (mtype % 256 * 2 ^ 56 + 2 ^ 52 + s.kpr.kgroup % 4096 * 2 ^ 40 + s.kpr.term % 2 ^ 32)) ++ wordBytes (word (seq % 2 ^ 32 * 2 ^ 32)) ++ body

/-- Count one more Keeper message sent (R412). -/
def State.nextSeq (s : State) : State := { s with kpr := { s.kpr with seq := (s.kpr.seq + 1) % 2 ^ 32 } }

/-- A management message of this adapter on port p, whatever node is behind it (R264): a message like any other, whose copies leave there. -/
def State.portMsg (s : State) (p qpn : Nat) (bs : List Byte) : State := s.queueMgt (65536 + p) qpn bs

/-- The ports in state MGT_ONLY. -/
def State.doors (s : State) : List Nat := (List.range s.nPorts).filter (fun p => (s.port p).state == .mgtOnly)

/-! ### The group (R410, R416, R420) -/

/-- The other nodes of the own group, and the Keeper members of other groups, as the map names them. -/
def State.groupNodes (s : State) : List Nat :=
  (s.dmap.filter (fun e => e.2.kind != 0 && e.2.kgroup == s.kpr.kgroup && s.node != some e.1)).map (·.1)
def State.peerKeepers (s : State) : List Nat :=
  (s.dmap.filter (fun e => e.2.kind != 0 && e.2.keeper && e.2.kgroup != s.kpr.kgroup && s.node != some e.1)).map (·.1)

/-- The workers a member sends LIGHTs to: the group but the pair. (log entry 116) -/
def State.lightNodes (s : State) : List Nat := s.groupNodes.filter (fun n => s.kpr.other != some n)

/-- PERIOD and MISS × PERIOD, in ns. -/
def State.lightPeriod (s : State) : Nat := max 50 (s.fld F.KPR_LC_CFG_PERIOD) * 1000
def State.silenceTime (s : State) : Nat := max 2 (s.fld F.KPR_LC_CFG_MISS) * s.lightPeriod

/-- Whether a member is silent here: nothing has been heard of it for MISS × PERIOD (R416). -/
def State.silent (s : State) (n : Nat) : Bool := decide (Tbl.get 0 s.kpr.heard n + s.silenceTime ≤ s.now)

/-- Whether a worker that has been sent LIGHTs is silent. -/
def State.workerSilent (s : State) (n : Nat) : Bool :=
  match Tbl.find s.kpr.answers n with
  | some a => decide (a.1 + s.silenceTime ≤ s.now) && !s.kpr.asleep.contains n
  | none => false

/-- Quorum over the other member (R420). -/
def State.quorum (s : State) : Bool :=
  decide (s.kpr.size < 2 * (1 + (s.lightNodes.filter (fun n => match Tbl.find s.kpr.answers n with
    | some a => !a.2 && decide (s.now < a.1 + s.silenceTime)
    | none => false)).length))

def State.setKpr (s : State) (k : Kpr) : State := { s with kpr := k }
def State.modKpr (s : State) (f : Kpr → Kpr) : State := s.setKpr (f s.kpr)

/-- An active member: it decides, or holds its decisions. -/
def KRole.isActive : KRole → Bool
  | .paired => true
  | .solo => true
  | .waiting => true
  | _ => false

/-- The body of a LIGHT or PAIR_LIGHT (R413). -/
def State.lightBody (s : State) : List Byte :=
  wordBytes (word (s.kpr.version % 2 ^ 32 * 2 ^ 32 + s.kpr.fogSeq % 2 ^ 32))
    ++ wordBytes (word (s.kpr.role.code * 2 ^ 60 + (s.kpr.other.getD 0) % 2 ^ 14))

def State.sendLight (s : State) (n : Nat) : State := s.keeperMsg n 0x01 s.lightBody

/-! ### Joining (R414, R415, R428, R471) -/

/-- The identity record (R471). -/
def State.identity (s : State) : List Byte :=
  let dev := s.shown .LAMP_DEVICE_ID 0 0
  wordBytes (word Config.serial)
    ++ wordBytes (word (s.chip.stepping % 256 * 2 ^ 56 + s.chip.variant % 256 * 2 ^ 48 + s.nv.epoch % 65536 * 2 ^ 32
      + s.fld F.LAMP_STATUS_STAGE * 2 ^ 28 + s.fld F.LAMP_STATUS_REASON * 2 ^ 24))
    ++ wordBytes (word s.chip.pop) ++ wordBytes (word (s.fld F.LAMP_IMAGE_VERSION * 2 ^ 32 + s.start.nLedger % 2 ^ 32))
    ++ s.start.mImage ++ s.start.mLedger ++ Config.sha3_512 (leBytes 4 dev.toNat ++ wordBytes (word s.chip.pop))

/-- The body of a JOIN (R413). (log entry 110) -/
def State.joinBody (s : State) (rejoin : Bool) : List Byte :=
  s.identity ++ wordBytes (s.reg .TRN_CAPS) ++ wordBytes (s.shown .FAB_CAPS 0 0)
    ++ wordBytes (word (((if rejoin then s.node.getD 0 else s.start.request) % 2 ^ 14) * 2 ^ 50 + b2n rejoin))

/-- Send a JOIN on each MGT_ONLY port (R415); a rejoining adapter, whose ports are UP, sends it to its neighbours (R428). (log entry 111) -/
def State.sendJoin (s : State) (rejoin : Bool) : State :=
  let m := s.keeperBytes 0x04 s.kpr.seq (s.joinBody rejoin)
  let s := s.doors.foldl (fun s p => s.portMsg p 0 m) s.nextSeq
  if rejoin then
    let ns := (((List.range s.nPorts).filter (fun p => (s.port p).state == .up)).map (fun p => (s.port p).peerNode)).eraseDups
    ns.foldl (fun s n => s.queueMgt n 0 m) s
  else s

/-- XLT_NODE_ID becomes valid (R415, R436): another LAST_NODE is recorded, and the MGT_ONLY ports negotiate again (R264). -/
def State.takeNode (s : State) (n : Nat) : State :=
  let s := { s with node := some n, nv := if s.nv.lastNode = some n then s.nv else { s.nv with lastNode := some n, seq := s.nv.seq + 1 } }
  s.doors.foldl State.negotiate s

/-- JOIN_TIMER (R415): every 1 ms, without a node ID, a JOIN on each MGT_ONLY port. -/
def execJoinTimer (t : Nat) (s : State) : Host.Outcome State Fault Refusal :=
  let s := s.at t
  .next (if s.node.isNone && decide (s.kpr.joinAt + 1000000 ≤ s.now) && decide (5 ≤ s.stage) && s.stage != 8 then
      (s.modKpr (fun k => { k with joinAt := s.now })).sendJoin false
    else s)

/-- The port a JOIN came by: from an MGT_ONLY port, or from a rejoining neighbour. -/
def State.joinPort (s : State) (src : Nat) : Nat :=
  if 65536 ≤ src then src - 65536
  else (firstIdx (fun p => (s.port p).peerValid && (s.port p).peerNode == src) s.nPorts 0).getD 0

/-- JOIN (R415): relayed to the own active member, or kept for the Keeper software here. -/
def execJoin (t k : Nat) (s : State) : Host.Outcome State Fault Refusal :=
  let s := s.at t
  match s.takeMsg k 0x04 with
  | none => .next s
  | some (m, s) =>
    let p := s.joinPort m.src
    .next (if s.kpr.role.isActive then s.modKpr (fun k => { k with joins := k.joins ++ [(s.node.getD 0, p, m.raw)] })
      else match s.kpr.active with
        | some a => s.keeperMsg a 0x05 (wordBytes (word p) ++ m.raw)
        | none => s)

/-- A message that only the followed member may send (R414): its sender and term. Others are dropped and counted. -/
def State.fromActive (s : State) (m : KMsg) : Bool := s.kpr.active == some m.src && decide (s.kpr.term ≤ m.term)

/-- A Keeper message dropped for a lower term or an unknown sender. -/
def State.dropKeeper (s : State) : State := s.count F.KPR_COUNT_COUNT 7

/-- RELAY (R415): an active member gets a neighbour's JOIN; a neighbour sends its member's ASSIGN on through the port named. -/
def execRelay (t k : Nat) (s : State) : Host.Outcome State Fault Refusal :=
  let s := s.at t
  match s.takeMsg k 0x05 with
  | none => .next s
  | some (m, s) =>
    let p := bits (wordAt m.body 0) 0 7
    let inner := m.body.drop 8
    .next (if mtypeOf inner = 0x04 then
        (if s.kpr.role.isActive && m.kgroup == s.kpr.kgroup then s.modKpr (fun k => { k with joins := k.joins ++ [(m.src, p, inner)] }) else s.dropKeeper)
      else if mtypeOf inner = 0x06 ∧ s.fromActive m then (if (s.port p).state = .mgtOnly then s.portMsg p 0 inner else s)
      else s.dropKeeper)

/-- ASSIGN (R415): an adapter without a node ID takes its node ID and group. -/
def execAssign (t k : Nat) (s : State) : Host.Outcome State Fault Refusal :=
  let s := s.at t
  match s.takeMsg k 0x06 with
  | none => .next s
  | some (m, s) =>
    if s.node.isNone ∧ 65536 ≤ m.src then
      let w := wordAt m.body 0
      .next ((s.modKpr (fun k => { k with
        kgroup := bits w 38 12, term := bits (wordAt m.body 1) 0 32, active := none, other := none, heard := [] })).takeNode (bits w 50 14))
    else .next s.dropKeeper

/-! ### What a fog signal does (R426, R427) -/

/-- The groups whose plans name a node, with a plan that does and the node's member number there. -/
def State.groupsNaming (s : State) (n : Nat) : List (Nat × Nat) :=
  s.col.plans.filterMap (fun e => if e.2.body.nodes.contains n then some (e.2.group, e.2.body.nodes.idxOf n) else none)

/-- A node is declared dead: DEAD in the map, its messages end, the groups that name it abort (R427). -/
def State.nodeDead (s : State) (n : Nat) : State :=
  let s := { s with dmap := Tbl.set MapEntry.none s.dmap n { s.mapEntry n with dead := true } }
  let s := ((s.tr.msgs.filter (fun e => e.2.node == n)).map (·.1)).foldl (fun s i => s.endMsg i Stat.DEST_UNREACHABLE) s
  (s.groupsNaming n).foldl (fun s g => s.abortGroup g.1 3 (min 4095 g.2) 65535) s

/-- Act once on a fog signal (R427, R428). -/
def State.fogAct (s : State) (w0 : Word) : State :=
  let v := bits w0 60 4
  let n := bits w0 46 14
  let key := (v, n, bits w0 39 7, bits w0 0 16)
  if s.kpr.acted.contains key then s.count F.KPR_COUNT_COUNT 6
  else
    let s := (s.modKpr (fun k => { k with acted := k.acted ++ [key] })).count F.KPR_COUNT_COUNT 5
    if v = 1 then
      if s.node = some n then
        (if bits w0 0 16 = s.nv.epoch % 65536 then (s.modKpr (fun k => { k with rejoin := true })).sendJoin true else s)
      else s.nodeDead n
    else s

/-! ### The Keeper record (R418) -/

/-- Map entries from bytes, 48 B each (R414). -/
def mapEntries : Nat → List Byte → List (Nat × MapEntry)
  | 0, _ => []
  | n + 1, bs =>
    if bs.length < 48 then []
    else
      let w := wordAt bs 0
      let e : MapEntry :=
        { kind := bits w 48 2, keeper := bit w 47, dead := bit w 46, kgroup := bits w 34 12, versions := bits w 18 16, pshift := bits w 0 4
          mac := bits (wordAt bs 1) 16 48, ipv6 := (wordAt bs 2).toNat * 2 ^ 64 + (wordAt bs 3).toNat, epoch := bits (wordAt bs 4) 0 16 }
      (bits w 50 14, e) :: mapEntries n (bs.drop 48)

/-- A map entry's 48 bytes. -/
def MapEntry.bytes (n : Nat) (e : MapEntry) : List Byte :=
  wordBytes (word (n % 2 ^ 14 * 2 ^ 50 + e.kind % 4 * 2 ^ 48 + b2n e.keeper * 2 ^ 47 + b2n e.dead * 2 ^ 46 + e.kgroup % 4096 * 2 ^ 34
    + e.versions % 65536 * 2 ^ 18 + e.pshift % 16)) ++ wordBytes (word (e.mac % 2 ^ 48 * 2 ^ 16)) ++ wordBytes (word (e.ipv6 / 2 ^ 64))
    ++ wordBytes (word (e.ipv6 % 2 ^ 64)) ++ wordBytes (word e.epoch) ++ wordBytes 0

/-- One entry of the map: DEAD clears only when the node has a new epoch (R427); an entry of KIND 0 is absent. -/
def State.mapPut (s : State) (n : Nat) (e : MapEntry) : State :=
  let old := s.mapEntry n
  let fresh := old.epoch != e.epoch || old.kind == 0
  let e := if !fresh && old.dead then { e with dead := true } else e
  let s := { s with dmap := Tbl.set MapEntry.none s.dmap n (if e.kind = 0 then MapEntry.none else e) }
  if fresh && !e.dead then s.modKpr (fun k => { k with susp := k.susp.filter (fun x => !(x.kind == 1 && x.node == n)) }) else s

/-- Apply map entries with their version; messages to nodes they withdraw end (R201, R287); the own entry with the own epoch ends a rejoining (R428). -/
def State.mapApply (s : State) (version : Nat) (bs : List Byte) : State :=
  let s := s.withdrawn ((mapEntries (bs.length / 48) bs).foldl (fun s e => s.mapPut e.1 e.2) s)
  let me := (s.node.map s.mapEntry).getD MapEntry.none
  s.modKpr (fun k => { k with version := version, rejoin := k.rejoin && !(me.kind != 0 && !me.dead && me.epoch == s.nv.epoch % 65536) })

/-- A change as the body of a MIRROR_SYNC, and back. -/
def Change.bytes : Change → List Byte
  | .fog w0 n _ => leBytes 8 1 ++ wordBytes w0 ++ leBytes 8 n
  | .dir sub h src => leBytes 8 (2 + sub * 256 + src * 65536) ++ h
  | .map v bs => leBytes 8 3 ++ leBytes 8 v ++ bs
  | .piece bs => bs

def Change.ofBytes (bs : List Byte) : Option Change :=
  let w := wordAt bs 0
  match bits w 0 8 with
  | 1 => some (.fog (wordAt bs 1) (wordAt bs 2).toNat none)
  | 2 => some (.dir (bits w 8 8) (bs.drop 8) (bits w 16 14))
  | 3 => some (.map (wordAt bs 1).toNat (bs.drop 16))
  | _ => none

/-- A fog signal's body (R426). -/
def State.fogBody (s : State) (w0 : Word) (reporters : Nat) : List Byte :=
  wordBytes w0 ++ wordBytes (word (s.node.getD 0 % 2 ^ 14 * 2 ^ 50 + s.kpr.fogSeq % 2 ^ 32)) ++ wordBytes (word (reporters % 2 ^ 32)) ++ wordBytes 0

/-- Those a Keeper tells of what concerns its group and the domain. -/
def State.told (s : State) : List Nat := s.groupNodes ++ s.peerKeepers

/-- The nodes that have not confirmed the withdrawal of a handle after node n has (R78). -/
def confirm (h : List Byte) (n : Nat) (e : List Byte × List Nat) : List Byte × List Nat := if e.1 = h then (e.1, e.2.erase n) else e

/-- The record takes a change: a fog signal under the next FOG_SEQ, a handle published (1) or withdrawn (3), which begins its revocation, a
confirmation of one (4), map entries. -/
def State.record (s : State) (c : Change) : State :=
  match c with
  | .fog w0 n _ =>
    let s := s.modKpr (fun k => { k with fogSeq := (k.fogSeq + 1) % 2 ^ 32 })
    s.modKpr (fun k => { k with fogs := k.fogs ++ [s.fogBody w0 n] })
  | .dir sub h src =>
    if sub = 1 then s.modKpr (fun k => { k with dir := k.dir ++ [h] })
    else if sub = 3 then s.modKpr (fun k => { k with dir := k.dir.erase h, revs := k.revs.filter (fun e => e.1 != h) ++ [(h, s.told)] })
    else if sub = 4 then s.modKpr (fun k => { k with revs := k.revs.map (confirm h src) })
    else s
  | .map v bs => s.mapApply v bs
  | .piece _ => s

/-- WITHDRAWN for a handle goes to nodes (R78 step 2). -/
def State.sayWithdrawn (s : State) (h : List Byte) (ns : List Nat) : State :=
  ns.foldl (fun s n => s.keeperMsg n 0x0B (wordBytes (word (4 * 2 ^ 60)) ++ h)) s

/-- A change takes effect at the active member, and what reveals it leaves (R418, R427, R78). -/
def State.applyChange (s : State) (c : Change) : State :=
  let s := s.record c
  match c with
  | .fog w0 n cmd =>
    let body := s.fogBody w0 n
    let s := s.told.foldl (fun s n => s.keeperMsg n 0x08 body) (s.count F.KPR_COUNT_COUNT 4)
    let s := s.fogAct w0
    match cmd with
    | some r => s.admEnd r Stat.SUCCESS s.kpr.fogSeq
    | none => s
  | .dir sub h _ => if sub = 3 then s.sayWithdrawn h s.told else s
  | .map v bs => s.told.foldl (fun s n => s.keeperMsg n 0x09 (wordBytes (word v) ++ bs)) s
  | .piece _ => s

/-- Send a change to the mirror; it waits for the acknowledgement (R418). -/
def State.mirrorSync (s : State) (c : Change) : State :=
  let q := s.kpr.seq
  (s.modKpr (fun k => { k with syncs := k.syncs ++ [(q, c)] })).keeperMsg (s.kpr.other.getD 0) 0x0A c.bytes

/-- Decide a change (R419): mirrored first when paired or while the record is copied, held in WAITING, applied at once alone. -/
def State.publish (s : State) (c : Change) : State :=
  match s.kpr.role with
  | .waiting => s.modKpr (fun k => { k with held := k.held ++ [c] })
  | .paired => s.mirrorSync c
  | .solo => if s.kpr.copier.isSome then s.mirrorSync c else s.applyChange c
  | _ => s

/-- The mirror acknowledged a change: it is applied; the last piece of a copy makes the pair, and its KEEPER_SET completes. -/
def State.mirrorAck (s : State) (q : Nat) : State :=
  match Tbl.find s.kpr.syncs q with
  | none => s
  | some c =>
    let s := (s.modKpr (fun k => { k with syncs := k.syncs.filter (fun e => e.1 != q) })).applyChange c
    match s.kpr.copier with
    | none => s
    | some r =>
      if s.kpr.syncs.any (fun e => match e.2 with
        | .piece _ => true
        | _ => false) then s
      else (s.modKpr (fun k => { k with role := .paired, copier := none })).admEnd r Stat.SUCCESS

/-- MIRROR_SYNC (R418): the mirror records a change and acknowledges it with an empty body under the same SEQ; the active member gets the
acknowledgement. -/
def execMirrorSync (t k : Nat) (s : State) : Host.Outcome State Fault Refusal :=
  let s := s.at t
  match s.takeMsg k 0x0A with
  | none => .next s
  | some (m, s) =>
    if s.kpr.other ≠ some m.src then .next s.dropKeeper
    else if m.body.isEmpty then .next (s.mirrorAck m.seq)
    else if s.kpr.role = .mirror then
      let s := match Change.ofBytes m.body with
        | some c => s.record c
        | none => s
      .next (s.queueMgt m.src 0 (s.keeperBytes 0x0A m.seq []))
    else .next s.dropKeeper

/-! ### Roles (R419 to R422, R430) -/

/-- A member becomes WORKER; it follows `lead`. -/
def State.toWorker (s : State) (lead : Option Nat) : State :=
  s.modKpr (fun k => { k with role := .worker, active := lead, syncs := [], held := [], copier := none, susp := [], asleep := [] })

/-- Changes that waited are decided again. -/
def State.republish (s : State) : State :=
  let cs := s.kpr.held
  cs.foldl State.publish (s.modKpr (fun k => { k with held := [] }))

/-- What was not acknowledged is held. -/
def State.unsync (s : State) : State :=
  s.modKpr (fun k => { k with
    held := (k.syncs.map (·.2)).filter (fun c => match c with
      | .piece _ => false
      | _ => true) ++ k.held
    syncs := [] })

/-- NODE_DEAD for a node, as word 0 of a fog signal with the epoch of the map. -/
def State.deadWord (s : State) (n : Nat) : Word := word (2 ^ 60 + n % 2 ^ 14 * 2 ^ 46 + (s.mapEntry n).epoch % 65536)

/-- A member goes on alone (R421): the term rises at a takeover, a fog signal names the other member, and Keeper software gets a
record. Revocations that are not complete are told again (R78). (log entries 115, 133) -/
def State.goSolo (s : State) (takeover : Bool) : State :=
  let old := s.kpr.other.getD 0
  let s := s.unsync.modKpr (fun k => { k with role := .solo, term := if takeover then (k.term + 1) % 2 ^ 32 else k.term, active := s.node, copier := none })
  let s := (s.applyChange (.fog (s.deadWord old) 0 none)).republish
  let s := s.kpr.revs.foldl (fun s e => s.sayWithdrawn e.1 e.2) s
  s.faultL 6 0x60 0 (s.shown .KPR_STATUS 0 0).toNat old

/-- The steps of a member over a silent other member (R419, R421). -/
def State.tryQuorum (s : State) : State :=
  match s.kpr.other with
  | none => s
  | some o =>
    if !s.silent o then s
    else match s.kpr.role with
      | .mirror => if s.quorum then s.goSolo true else s
      | .paired => if s.quorum then s.goSolo false else s.unsync.modKpr (fun k => { k with role := .waiting })
      | .waiting => if s.quorum then s.goSolo false else s
      | _ => s

/-- LIGHT_PERIOD (R416): a member's LIGHTs and PAIR_LIGHT. -/
def execLightPeriod (t : Nat) (s : State) : Host.Outcome State Fault Refusal :=
  let s := s.at t
  if s.kpr.role ≠ .worker ∧ s.kpr.lightAt + s.lightPeriod ≤ s.now then
    let ns := s.lightNodes
    let s := s.modKpr (fun k => { k with
      lightAt := s.now, answers := ns.foldl (fun t n => if Tbl.has t n then t else Tbl.put t n (s.now, true)) k.answers })
    let s := ns.foldl State.sendLight s
    .next (match s.kpr.other with
      | some o => s.keeperMsg o 0x03 s.lightBody
      | none => s)
  else .next s

/-- The copy of the record for a new mirror begins (R419): the map, the directory, the fog signals and the revocations not complete. -/
def State.copyRecord (s : State) (r : Nat) : State :=
  let map := Change.map s.kpr.version (s.dmap.flatMap (fun e => MapEntry.bytes e.1 e.2))
  let fogs := s.kpr.fogs.map (fun b => Change.fog (wordAt b 0) (wordAt b 2).toNat none)
  let dirs := s.kpr.dir.map (fun h => Change.dir 1 h 0) ++ (s.kpr.revs.filter (fun e => !e.2.isEmpty)).map (fun e => Change.dir 3 e.1 0)
  let s := match s.kpr.copier with
    | some old => s.admEnd old Stat.BAD_STATE
    | none => s
  ([map] ++ fogs ++ dirs).foldl (fun s c => s.mirrorSync (.piece c.bytes)) (s.unsync.modKpr (fun k => { k with copier := some r }))

/-- A role is set (R430, R443): 0 WORKER, 1 ACTIVE, 2 MIRROR. The record is copied on behalf of record r (0: the image). (log entry 114) -/
def State.keeperTake (s : State) (role kgroup other size r : Nat) : State :=
  let was := s.kpr.role.isActive
  let s := s.modKpr (fun k => { k with
    kgroup := kgroup, other := some other, size := size, swAt := s.now, lightAt := 0, heard := Tbl.put k.heard other s.now })
  match role with
  | 0 => s.toWorker (if was then none else s.kpr.active)
  | 1 =>
    (s.modKpr (fun k => { k with role := .solo, term := if was then k.term else (k.term + 1) % 2 ^ 32, active := s.node })).copyRecord r
  | _ => (s.toWorker (some other)).modKpr (fun k => { k with role := .mirror })

/-- KEEPER_SET (R430). -/
def execKeeperSet (t r : Nat) (s : State) : Host.Outcome State Fault Refusal :=
  .next ((s.at t).admRun r Op.KEEPER_SET (fun s x =>
    let d := x.desc
    let role := bits d.w2 60 4
    if role = 2 ∧ !s.flag F.KPR_CFG_MIRROR_OK then s.admEnd r Stat.NOT_KEEPER
    else
      let s := (if role = 1 then s.admWait r else s).keeperTake role (bits d.w2 48 12) (bits d.w2 0 14) (bits d.w3 0 9) r
      if role = 1 then s else s.admEnd r Stat.SUCCESS))

/-- FOG_PUBLISH (R428, R430): on an active member; in WAITING it waits for quorum (R421). -/
def execFogPublish (t r : Nat) (s : State) : Host.Outcome State Fault Refusal :=
  .next ((s.at t).admRun r Op.FOG_PUBLISH (fun s x =>
    if !s.kpr.role.isActive then s.admEnd r Stat.NOT_KEEPER
    else (s.modRec r (fun x => { x with phase := .waiting, aux := [s.now] })).publish (.fog x.desc.w2 0 (some r))))

/-- REDIRECT_SET (R429, R430): on an active member, or in an ORDER; the table holds 4,096 entries. -/
def execRedirectSet (t r : Nat) (s : State) : Host.Outcome State Fault Refusal :=
  .next ((s.at t).admRun r Op.REDIRECT_SET (fun s x =>
    let d := x.desc
    let key := bits d.w2 32 32
    let put (m : Tbl Redirect) : State := { s with tr := { s.tr with redirs := m } }
    if !s.kpr.role.isActive && x.source != 1 then s.admEnd r Stat.NOT_KEEPER
    else if !bit d.w6 0 then (put (Tbl.del s.tr.redirs key)).admEnd r Stat.SUCCESS
    else if !Tbl.has s.tr.redirs key && decide (4096 ≤ s.tr.redirs.length) then s.admEnd r Stat.NO_RESOURCE
    else (put (Tbl.put s.tr.redirs key ⟨bits d.w2 0 16, bits d.w4 0 50, bits d.w3 0 14, bits d.w3 32 32, bits d.w3 16 16, bits d.w5 0 50⟩)).admEnd
      r Stat.SUCCESS))

/-- NO_QUORUM_TIMEOUT (R421): a command that still waits for quorum after 100 ms; nothing is changed. -/
def execNoQuorumTimeout (t r : Nat) (s : State) : Host.Outcome State Fault Refusal :=
  let s := s.at t
  match s.getRec r with
  | none => .next s
  | some x =>
    if x.desc.op = Op.FOG_PUBLISH ∧ x.phase = .waiting ∧ s.kpr.role ≠ .paired ∧ s.kpr.role ≠ .solo ∧ x.aux.getD 0 0 + 100000000 ≤ s.now then
      let mine (c : Change) : Bool := match c with
        | .fog _ _ (some q) => q == r
        | _ => false
      .next ((s.modKpr (fun k => { k with held := k.held.filter (fun c => !mine c) })).admEnd r Stat.NO_QUORUM)
    else .next s

/-- SW_WATCH_EXPIRY (R422): the software watch of a member expires; SW_LIMIT 0 disables it. -/
def execSwWatchExpiry (t : Nat) (s : State) : Host.Outcome State Fault Refusal :=
  let s := s.at t
  let l := s.fld F.KPR_CFG_SW_LIMIT
  .next (if s.kpr.role ≠ .worker ∧ l ≠ 0 ∧ s.kpr.swAt + l * 1000000 ≤ s.now then s.toWorker none else s)

/-- KPR_SW_ALIVE_WRITE (R422). -/
def execKprSwAliveWrite (t : Nat) (s : State) : Host.Outcome State Fault Refusal := .next ((s.at t).ifServing State.swAlive)

/-! ### Reports (R423 to R425) -/

/-- INTERVAL in ns. -/
def State.suppressTime (s : State) : Nat := max 1 (s.fld F.KPR_SUPPRESS_INTERVAL) * 1000000
def State.linkHold (s : State) : Nat := s.fld F.KPR_SUPPRESS_LINK_HOLD * 1000

/-- A REPORT body (R423). -/
def reportBody (kind node port epoch merged : Nat) : List Byte :=
  wordBytes (word (kind % 16 * 2 ^ 60 + node % 2 ^ 14 * 2 ^ 46 + port % 128 * 2 ^ 39 + epoch % 65536)) ++ wordBytes (word merged)

/-- A verdict is published once, as one fog signal (R425); a dead node's links are folded into it. -/
def State.verdictOut (s : State) (x : Suspect) : State :=
  let fold (y : Suspect) : Suspect :=
    if (y.kind == x.kind && y.node == x.node && y.port == x.port) || (x.kind == 1 && y.kind == 2 && (y.node == x.node || y.peer == x.node)) then
      { y with verdict := true }
    else y
  let s := s.modKpr (fun k => { k with susp := k.susp.map fold })
  let w := if x.kind = 1 then s.deadWord x.node else word (2 * 2 ^ 60 + x.node % 2 ^ 14 * 2 ^ 46 + x.port % 128 * 2 ^ 39 + x.peer % 2 ^ 14 * 2 ^ 25)
  s.publish (.fog w x.sources.length none)

/-- Whether a suspect's end is DEAD: in the map, or by a verdict. -/
def State.deadNode (s : State) (n : Nat) : Bool := (s.mapEntry n).dead || s.kpr.susp.any (fun y => y.kind == 1 && y.node == n && y.verdict)

def State.setSusp (s : State) (i : Nat) (x : Suspect) : State := s.modKpr (fun k => { k with susp := k.susp.set i x })

/-- What the active member does with a suspect it has merged (R425). (log entry 112) -/
def State.judge (s : State) (i : Nat) : State :=
  match s.kpr.susp[i]? with
  | none => s
  | some x =>
    if x.verdict then s
    else if x.kind = 2 then
      if s.deadNode x.node || s.deadNode x.peer then s.setSusp i { x with verdict := true } else s
    else if (s.mapEntry x.node).kgroup ≠ s.kpr.kgroup then
      if x.passed then s
      else
        let ks := s.peerKeepers.filter (fun n => (s.mapEntry n).kgroup == (s.mapEntry x.node).kgroup)
        ks.foldl (fun s n => s.keeperMsg n 0x07 (reportBody 1 x.node 0 x.epoch x.sources.length)) (s.setSusp i { x with passed := true })
    else if s.workerSilent x.node then s.verdictOut x
    else if s.fld F.KPR_LC_CFG_REPORTERS ≠ 0 ∧ s.fld F.KPR_LC_CFG_REPORTERS ≤ x.sources.length ∧ x.probeAt.isNone then
      (s.setSusp i { x with probeAt := some s.now }).sendLight x.node
    else s

/-- Merge a report into the suspect table of 1,024 entries (R425). -/
def State.gotReport (s : State) (src kind node port epoch peer : Nat) : State :=
  if !s.kpr.role.isActive then s
  else match s.kpr.susp.findIdx? (fun x => x.kind == kind && x.node == node && x.port == port) with
    | some i =>
      (s.modKpr (fun k => { k with susp := k.susp.modify i (fun x => { x with
        sources := if x.sources.contains src then x.sources else x.sources ++ [src], peer := if x.peer = 16384 then peer else x.peer }) })).judge i
    | none =>
      if 1024 ≤ s.kpr.susp.length then s
      else
        let i := s.kpr.susp.length
        let x : Suspect :=
          { kind := kind, node := node, port := port, epoch := epoch, peer := peer, sources := [src], at0 := s.now
            probeAt := if kind = 2 then some s.now else none, verdict := false, passed := false }
        (s.modKpr (fun k => { k with susp := k.susp ++ [x] })).judge i

/-- The members a worker knows, without this adapter. -/
def State.members (s : State) : List Nat := ((s.kpr.active.toList ++ s.kpr.other.toList).eraseDups).filter (fun n => s.node != some n)

/-- Report a suspect to both members (R423); an active member's own report is merged here. -/
def State.sendReport (s : State) (x : Suppress) (peer : Nat) : State :=
  let s := s.count F.KPR_COUNT_COUNT 0
  if s.kpr.role.isActive then s.gotReport (s.node.getD 0) x.kind x.node x.port x.epoch peer
  else s.members.foldl (fun s n => s.keeperMsg n 0x07 (reportBody x.kind x.node x.port x.epoch (1 + x.held))) s

/-- Raise a suspect (R423, R424): at most one report in an INTERVAL, 256 entries; without a member that is heard it is kept (R417). -/
def State.suspect (s : State) (kind node port peer : Nat) : State :=
  let same (x : Suppress) : Bool := x.kind == kind && x.node == node && x.port == port
  let live (x : Suppress) : Bool := decide (s.now < x.at0 + s.suppressTime) || x.kept
  let kept := s.kpr.orphan || (s.kpr.active.isNone && !s.kpr.role.isActive)
  match s.kpr.supp.find? same with
  | some x =>
    if live x then
      (s.modKpr (fun k => { k with supp := k.supp.map (fun y => if same y then { y with held := y.held + 1 } else y) })).count F.KPR_COUNT_COUNT 1
    else
      let y : Suppress := { x with at0 := s.now, held := 0, kept := kept }
      let s := s.modKpr (fun k => { k with supp := k.supp.map (fun z => if same z then y else z) })
      if kept then s else s.sendReport x peer
  | none =>
    let left := if s.kpr.supp.length < 256 then s.kpr.supp else s.kpr.supp.filter live
    if 256 ≤ left.length then s.count F.KPR_COUNT_COUNT 2
    else
      let y : Suppress := { kind := kind, node := node, port := port, epoch := (s.mapEntry node).epoch, at0 := s.now, held := 0, kept := kept }
      let s := s.modKpr (fun k => { k with supp := left ++ [y] })
      if kept then s else s.sendReport y peer

/-- A port out of UP for LINK_HOLD, or not UP since before. -/
def State.heldDown (s : State) (p : Nat) : Bool :=
  let x := s.port p
  x.state != .up && (match x.downAt with
    | some a => decide (a + s.linkHold ≤ s.now)
    | none => true)

/-- LINK_HOLD_EXPIRY (R423): port p has been out of UP for LINK_HOLD. -/
def execLinkHoldExpiry (t p : Nat) (s : State) : Host.Outcome State Fault Refusal :=
  let s := s.at t
  let x := s.port p
  match s.node with
  | none => .next s
  | some own =>
    if x.downAt.isSome && s.heldDown p && x.peerValid then
      let s := s.modPort p (fun y => { y with downAt := none })
      let s := if own < x.peerNode then s.suspect 2 own p x.peerNode else s.suspect 2 x.peerNode x.peerPort own
      let ps := (List.range s.nPorts).filter (fun i => (s.port i).peerValid && (s.port i).peerNode == x.peerNode)
      .next (if ps.all s.heldDown then s.suspect 1 x.peerNode 0 0 else s)
    else .next s

/-- SUPPRESS_INTERVAL_END (R424): the held events of entry i are reported, or the entry is free. -/
def execSuppressIntervalEnd (t i : Nat) (s : State) : Host.Outcome State Fault Refusal :=
  let s := s.at t
  match s.kpr.supp[i]? with
  | none => .next s
  | some x =>
    if x.kept ∨ s.now < x.at0 + s.suppressTime then .next s
    else if x.held = 0 then .next (s.modKpr (fun k => { k with supp := k.supp.eraseIdx i }))
    else .next ((s.modKpr (fun k => { k with supp := k.supp.set i { x with at0 := s.now, held := 0 } })).sendReport { x with held := x.held - 1 } 16384)

/-- A member is heard: what was kept is reported (R417). -/
def State.unorphan (s : State) : State :=
  let ks := s.kpr.supp.filter (·.kept)
  let s := s.modKpr (fun k => { k with orphan := false, supp := k.supp.map (fun x => if x.kept then { x with kept := false, at0 := s.now, held := 0 } else x) })
  ks.foldl (fun s x => s.sendReport x 16384) s

/-- REPORT (R425): from a worker of the group, or from a peer Keeper. -/
def execReport (t k : Nat) (s : State) : Host.Outcome State Fault Refusal :=
  let s := s.at t
  match s.takeMsg k 0x07 with
  | none => .next s
  | some (m, s) =>
    let e := s.mapEntry m.src
    if s.kpr.role = .worker ∨ !(e.kind != 0 && (e.kgroup == s.kpr.kgroup || e.keeper)) then .next s.dropKeeper
    else
      let w := wordAt m.body 0
      let node := bits w 46 14
      let s := s.count F.KPR_COUNT_COUNT 3
      .next (s.gotReport m.src (bits w 60 4) node (bits w 39 7) (bits w 0 16) (if m.src = node then 16384 else m.src))

/-- PROBE_WAIT_EXPIRY (R425): suspect i's probe, or the wait for an end's verdict, is over. -/
def execProbeWaitExpiry (t i : Nat) (s : State) : Host.Outcome State Fault Refusal :=
  let s := s.at t
  match s.kpr.susp[i]? with
  | none => .next s
  | some x =>
    match x.probeAt with
    | none => .next s
    | some a =>
      if x.verdict ∨ s.now < a + s.fld F.KPR_LC_CFG_PROBE_WAIT * 1000 ∨ !s.kpr.role.isActive then .next s
      else if x.kind = 2 ∧ (s.deadNode x.node ∨ s.deadNode x.peer) then .next (s.setSusp i { x with verdict := true })
      else .next (s.verdictOut x)

/-- RETRY_HORIZON_END (R197, R423): a message not ended by d + H ends with RETRY_EXCEEDED, and its destination is suspected. (log entry 113) -/
def execRetryHorizonEnd (t id : Nat) (s : State) : Host.Outcome State Fault Refusal :=
  let s := s.at t
  match s.msg id with
  | none => .next s
  | some m =>
    match m.d with
    | none => .next s
    | some d =>
      if d + m.hz ≤ s.now then
        .next ((s.horizonEnd id m).suspect 1 m.node 0 0)
      else .next s

/-! ### The light character (R416, R417, R420) -/

/-- A worker's answer to a member's LIGHT that names the other member `o` (R420). -/
def State.answerLight (s : State) (tgt o : Nat) : State :=
  let bound := match s.kpr.said with
    | some (m, a) => m != tgt && decide (s.now < a + 2 * s.silenceTime)
    | none => false
  let hears := bound || !s.silent o
  let s := s.modKpr (fun k => { k with dormant := false, said := if hears then k.said else some (tgt, s.now) })
  s.lightAnswer tgt hears false

/-- A worker hears a member's LIGHT or PAIR_LIGHT, which names its state and the other member: it follows the highest term (R414). -/
def State.hearMember (s : State) (m : KMsg) : State :=
  let st := bits (wordAt m.body 1) 60 4
  let o := bits (wordAt m.body 1) 0 14
  let s := s.modKpr (fun k => { k with heard := Tbl.put (if Tbl.has k.heard o then k.heard else Tbl.put k.heard o s.now) m.src s.now })
  let s := if (st = 1 ∨ st = 2) ∧ (s.kpr.term < m.term ∨ s.kpr.active = none ∨ s.kpr.active = some m.src ∧ s.kpr.term ≤ m.term) then
      s.modKpr (fun k => { k with term := m.term, active := some m.src, other := some o })
    else s
  s.unorphan

/-- LIGHT (R414, R416): a worker notes its member, follows the highest term, and answers; an active member
yields to a higher term (R419). -/
def execLight (t k : Nat) (s : State) : Host.Outcome State Fault Refusal :=
  let s := s.at t
  match s.takeMsg k 0x01 with
  | none => .next s
  | some (m, s) =>
    if m.kgroup ≠ s.kpr.kgroup then .next s.dropKeeper
    else
      if s.kpr.role ≠ .worker then .next (if s.kpr.role.isActive && decide (s.kpr.term < m.term) then (s.toWorker (some m.src)).modKpr (fun k => { k with term := m.term }) else s)
      else .next ((s.hearMember m).answerLight m.src (bits (wordAt m.body 1) 0 14))

/-- LIGHT_ANSWER (R416, R417, R420): a member notes a worker's answer; a probe of it is answered. -/
def execLightAnswer (t k : Nat) (s : State) : Host.Outcome State Fault Refusal :=
  let s := s.at t
  match s.takeMsg k 0x02 with
  | none => .next s
  | some (m, s) =>
    if s.kpr.role = .worker ∨ (s.mapEntry m.src).kgroup ≠ s.kpr.kgroup then .next s.dropKeeper
    else
      let w := wordAt m.body 0
      let s := s.modKpr (fun k => { k with
        answers := Tbl.put k.answers m.src (s.now, bit w 47)
        asleep := if bit w 46 then (k.asleep ++ [m.src]).eraseDups else k.asleep.erase m.src
        susp := k.susp.filter (fun x => !(x.kind == 1 && x.node == m.src && x.probeAt.isSome && !x.verdict)) })
      .next s.tryQuorum

/-- PAIR_LIGHT (R416, R419): the other member is heard; a higher term makes this one a WORKER. A former member hears its group so. -/
def execPairLight (t k : Nat) (s : State) : Host.Outcome State Fault Refusal :=
  let s := s.at t
  match s.takeMsg k 0x03 with
  | none => .next s
  | some (m, s) =>
    if m.kgroup ≠ s.kpr.kgroup ∨ (s.kpr.role ≠ .worker ∧ s.kpr.other ≠ some m.src) then .next s.dropKeeper
    else if s.kpr.role = .worker then .next (s.hearMember m)
    else
      let s := s.modKpr (fun k => { k with heard := Tbl.put k.heard m.src s.now })
      .next (
        if s.kpr.role = .mirror then s.modKpr (fun k => { k with term := max k.term m.term })
        else if s.kpr.term < m.term then (s.toWorker (some m.src)).modKpr (fun k => { k with term := m.term })
        else if s.kpr.role = .waiting then (s.modKpr (fun k => { k with role := .paired })).republish
        else s)

/-- KEEPER_SILENCE (R416, R417, R421, R425): nothing of node n has come for MISS × PERIOD. -/
def execKeeperSilence (t n : Nat) (s : State) : Host.Outcome State Fault Refusal :=
  let s := s.at t
  if s.kpr.role = .worker then
    let ms := s.members
    .next (if ms.contains n && ms.all s.silent then s.modKpr (fun k => { k with orphan := true }) else s)
  else if s.kpr.other = some n then .next s.tryQuorum
  else if s.kpr.role.isActive ∧ s.workerSilent n ∧ s.groupNodes.contains n ∧ !s.deadNode n then
    let e := (s.mapEntry n).epoch
    .next (match s.kpr.susp.find? (fun x => x.kind == 1 && x.node == n) with
      | some x => s.verdictOut x
      | none =>
        let x : Suspect :=
          { kind := 1, node := n, port := 0, epoch := e, peer := 0, sources := [], at0 := s.now, probeAt := none, verdict := true, passed := false }
        (if 1024 ≤ s.kpr.susp.length then s else s.modKpr (fun k => { k with susp := k.susp ++ [x] })).verdictOut x)
  else .next s

/-! ### What a worker takes from its member (R413, R414, R427) -/

/-- Whether a FOG or MAP_UPDATE is to be acted on: from the followed member, or at a member from a peer Keeper. -/
def State.fromKeeper (s : State) (m : KMsg) : Bool :=
  s.fromActive m || (s.kpr.role != .worker && (s.mapEntry m.src).keeper && (s.mapEntry m.src).kgroup != s.kpr.kgroup)

/-- A peer's FOG or MAP_UPDATE goes on to the own workers. -/
def State.passOn (s : State) (m : KMsg) (mtype : Nat) : State :=
  if s.kpr.role.isActive && !s.fromActive m then s.groupNodes.foldl (fun s n => s.keeperMsg n mtype m.body) s else s

/-- FOG (R427). -/
def execFog (t k : Nat) (s : State) : Host.Outcome State Fault Refusal :=
  let s := s.at t
  match s.takeMsg k 0x08 with
  | none => .next s
  | some (m, s) => .next (if s.fromKeeper m then (s.passOn m 0x08).fogAct (wordAt m.body 0) else s.dropKeeper)

/-- MAP_UPDATE (R414, R427, R428). -/
def execMapUpdate (t k : Nat) (s : State) : Host.Outcome State Fault Refusal :=
  let s := s.at t
  match s.takeMsg k 0x09 with
  | none => .next s
  | some (m, s) =>
    .next (if s.fromKeeper m then (s.mapApply (bits (wordAt m.body 0) 0 32) (m.body.drop 8)).passOn m 0x09 else s.dropKeeper)

/-- DIRECTORY (R413, R418): at an active member PUBLISH (1), WITHDRAW (3), and a WITHDRAWN (4) that confirms a revocation in progress (R78) change
the record; every message is shown to the software. (log entry 133) -/
def execDirectory (t k : Nat) (s : State) : Host.Outcome State Fault Refusal :=
  let s := s.at t
  match s.takeMsg k 0x0B with
  | none => .next s
  | some (m, s) =>
    let sub := bits (wordAt m.body 0) 60 4
    let known := s.fromKeeper m || (s.kpr.role.isActive && (s.mapEntry m.src).kgroup == s.kpr.kgroup)
    if !known then .next s.dropKeeper
    else
      let s := s.modKpr (fun k => { k with notes := k.notes ++ [(m.src, m.body)] })
      let confirms := sub == 4 && s.kpr.revs.any (fun e => e.1 == m.body.drop 8 && e.2.contains m.src)
      .next (if s.kpr.role.isActive && (sub == 1 || sub == 3 || confirms) then s.publish (.dir sub (m.body.drop 8) m.src)
        else if sub = 4 then s.passOn m 0x0B else s)

/-- ORDER_DONE (R413): the completion of an ORDER reaches the active member's software. -/
def execOrderDone (t k : Nat) (s : State) : Host.Outcome State Fault Refusal :=
  let s := s.at t
  match s.takeMsg k 0x0D with
  | none => .next s
  | some (m, s) =>
    .next (if s.kpr.role.isActive && (s.mapEntry m.src).kgroup == s.kpr.kgroup then s.modKpr (fun k => { k with dones := k.dones ++ [(m.src, m.body)] })
      else s.dropKeeper)

end Sys2Proof.Machine
end

