-- ==== Sys2Proof/Machine/Startup.lean ====
section
/-!
DEFINITION. Supply, start-up and device reset (R2, R35, R434 to R452, R490 to R493, R526, R528,
spec/13_startup_configuration_and_security.md, spec/14_power_resets_and_faults.md, spec/16_package_and_electrical.md): the image and its
check, the eleven steps of a start, lamp out, and what a supply loss and a device reset keep.
-/
namespace Sys2Proof.Machine

/-! ### The image (R440 to R445) -/

-- The lamp-out reasons of R445.
namespace Img
def NO_IMAGE : Nat := 1
def FORMAT : Nat := 2
def UNTRUSTED_KEY : Nat := 3
def SIGNATURE : Nat := 4
def ROLLBACK : Nat := 5
def NOR_ERROR : Nat := 6
def MANIFEST : Nat := 7
def BUSY : Nat := 8
end Img

def imgMagic (b : List Byte) : Nat := bits (wordAt b 0) 32 32
def imgFmt (b : List Byte) : Nat := bits (wordAt b 0) 16 16
def imgVersion (b : List Byte) : Nat := bits (wordAt b 1) 32 32
def imgFloor (b : List Byte) : Nat := bits (wordAt b 1) 0 32
def imgLen (b : List Byte) : Nat := bits (wordAt b 2) 32 32
def imgSig (b : List Byte) : Nat := bits (wordAt b 2) 0 32
def imgSigner (b : List Byte) : Nat := bits (wordAt b 3) 60 4
def imgCount (b : List Byte) : Nat := bits (wordAt b 3) 0 16

/-- D of R445. -/
def imgDigest (b : List Byte) : List Byte := Config.sha3_512 (b.take (imgSig b))

/-- A section: its type, offset and length (R440). -/
structure Section where
  type : Nat
  off  : Nat
  len  : Nat
  deriving DecidableEq, Repr

/-- The section table. -/
def imgSections (b : List Byte) : List Section :=
  (List.range (imgCount b)).map (fun i =>
    let w0 := wordAt b (16 + 2 * i)
    { type := bits w0 56 8, off := bits w0 0 32, len := bits (wordAt b (17 + 2 * i)) 0 32 })

/-- The bytes of a section of a type, if the image has one. -/
def imgSection (b : List Byte) (type : Nat) : Option (List Byte) :=
  ((imgSections b).find? (fun x => x.type == type)).map (fun x => slice b x.off x.len)

/-- A byte string cut into entries of n bytes. -/
def entriesOf (n : Nat) (b : List Byte) : List (List Byte) := (List.range (b.length / n)).map (fun i => slice b (n * i) n)

/-- The sections lie between the table and the signature block, aligned, and do not overlap; each type as often as R441 says. -/
def sectionsOk (b : List Byte) : Bool :=
  let ss := imgSections b
  let count (t : Nat) : Nat := (ss.filter (fun x => x.type == t)).length
  decide (1 ≤ imgCount b) && decide (imgCount b ≤ 64)
    && ss.all (fun x => x.off % 64 == 0 && decide (128 + 16 * imgCount b ≤ x.off) && decide (x.off + x.len ≤ imgSig b) && decide (1 ≤ x.type)
      && decide (x.type ≤ 4))
    && (List.range ss.length).all (fun i => (List.range i).all (fun j =>
      match ss[i]?, ss[j]? with
      | some x, some y => decide (x.off + x.len ≤ y.off) || decide (y.off + y.len ≤ x.off)
      | _, _ => true))
    && count 1 == 1 && decide (count 2 ≤ 1) && decide (count 3 ≤ 1) && decide (count 4 ≤ 1)

/-- A SETTINGS entry names a register with an RW field and writes zero to every WO field (R442). -/
def settingOk (e : List Byte) : Bool :=
  match regAt (bits (wordAt e 0) 0 26) with
  | none => false
  | some (r, _, _) => r.fields.any (fun f => f.acc == .rw)
      && r.fields.all (fun f => f.acc != .wo || bits (wordAt e 1) f.lo f.width == 0)

/-- A DOMAIN section meets R443: its length, unique positions, roles, group sizes of members. -/
def domainOk (b : List Byte) : Bool :=
  let n := bits (wordAt b 0) 0 32
  let es := entriesOf 32 (b.drop 8)
  let pos (e : List Byte) : Nat := bits (wordAt e 0) 32 32
  b.length == 8 + 32 * n && (es.map pos).eraseDups.length == es.length
    && es.all (fun e =>
      let role := bits (wordAt e 0) 16 2
      let size := bits (wordAt e 1) 32 9
      role != 3 && (role == 0 || (decide (1 ≤ size) && decide (size ≤ 256))))

/-- A TRUST section meets R444. -/
def trustOk (b : List Byte) : Bool :=
  b.length % 72 == 0 && (entriesOf 72 b).all (fun e =>
    let k := bits (wordAt e 0) 56 8
    decide (1 ≤ k) && decide (k ≤ 3))

/-- The contents of the sections meet R441 to R444. -/
def State.contentsOk (s : State) (b : List Byte) : Bool :=
  (match imgSection b 1 with
   | some q => q.length == 64 && (s.recordBad (Desc.ofBytes q)).isNone
   | none => false)
    && (match imgSection b 2 with
        | some x => x.length % 16 == 0 && (entriesOf 16 x).all settingOk
        | none => true)
    && (match imgSection b 3 with
        | some x => domainOk x
        | none => true)
    && (match imgSection b 4 with
        | some x => trustOk x
        | none => true)

/-- A trusted image-key slot (R444): slot 0 is Abamin's. -/
def State.trusted (s : State) (k : Nat) : Option (List Byte) := if k = 0 then some Config.abaminDigest else if k ≤ 3 then Tbl.find s.nv.trust k else none

/-- A signature block over a message (R440, R445): the status of the key, then of the signature. 0 is good. -/
def State.signedBy (s : State) (slot : Nat) (block msg : List Byte) : Nat :=
  let key := block.take 2592
  if s.trusted slot ≠ some (Config.sha3_512 key) then Img.UNTRUSTED_KEY
  else if Config.mlDsaVerify key msg (slice block 2592 4627) then 0 else Img.SIGNATURE

/-- The check of an image, in order (R445): 0, or the reason. -/
def State.imageCheck (s : State) (b : List Byte) : Nat :=
  if imgMagic b ≠ 0x5A51494D then Img.NO_IMAGE
  else if !(s.fld F.LAMP_CAPS_IMG_FMT).testBit (imgFmt b) || imgLen b % 64 != 0 || decide (100663296 < imgLen b) || decide (imgLen b < 7232)
      || imgSig b != imgLen b - 7232 || !bit (wordAt b 3) (if s.half then 57 else 56) then Img.FORMAT
  else
    let k := s.signedBy (imgSigner b) (slice b (imgSig b) 7232) (imgDigest b)
    if k ≠ 0 then k
    else if imgVersion b < s.nv.floor then Img.ROLLBACK
    else if sectionsOk b && s.contentsOk b then 0 else Img.FORMAT

/-! ### Discovery (R2) -/

/-- VARIANT from the population: 1 where anything of Lantern die 1 answers, else 2. -/
def variantOf (pop : Word) : Nat := if bits pop 29 1 = 1 ∨ bits pop 10 10 ≠ 0 ∨ bits pop 48 16 ≠ 0 ∨ bits pop 24 4 ≠ 0 then 1 else 2

/-- Whether a unit answered discovery; the population shows no other kinds. -/
def unitAnswered (pop : Word) (kind unit : Nat) : Bool :=
  match kind with
  | 1 => bit pop (28 + unit)
  | 2 => bit pop unit
  | 5 => bit pop (32 + unit)
  | 6 => bit pop (20 + unit)
  | _ => true

/-- What a start finds a unit to be: none, or the CAUSE and DETAIL of its failure; CAUSE 0 for a unit that the ledger names (R451). -/
def State.unitBad (s : State) (x : StartInput) (kind unit : Nat) : Option (Nat × Nat) :=
  if s.ledgered kind unit then some (0, 0)
  else if !unitAnswered x.pop kind unit then some (1, 0)
  else (x.bad.find? (fun b => b.1 == kind && b.2.1 == unit)).map (fun b => (2, b.2.2))

/-- A failure to be entered at step 8. -/
def State.note (s : State) (kind unit : Nat) (f : Nat × Nat) : State :=
  if f.1 = 0 then s else { s with start := { s.start with entries := s.start.entries ++ [(kind, unit, f.1, f.2)] } }

/-- A domain is powered, or its unit has failed. -/
def State.powerDom (s : State) (d : Nat) (ok : Bool) : State :=
  s.setDom d (if ok then { s.timed d Domain.off with state := .on } else { Domain.off with state := .failed })

/-! ### Steps 5 and 6 (R437, R439) -/

/-- The AES cores of a die: a failed one stays out of service. -/
def State.startCores (s : State) (x : StartInput) (die : Nat) : State :=
  (List.range' (16 * die) 16).foldl (fun s c => match s.unitBad x 8 c with
    | some f => { s.note 8 c f with sec := { s.sec with cores := s.sec.cores ++ [c] } }
    | none => s) s

/-- A port die with its bridge: its controllers leave reset, and its links train (R437 step 5). -/
def State.startPortDie (s : State) (x : StartInput) (n : Nat) : State :=
  let bridge := s.unitBad x 7 (n / 2)
  let die := s.unitBad x 6 n
  let s := match die with
    | some f => s.note 6 n f
    | none => s
  let ok := bridge.isNone && die.isNone
  let s := s.powerDom (portDom n) ok
  if ok then (State.dieLinks n).foldl (fun s l => s.modLink l (fun y => { y with training := !y.perst })) s else s

/-- A Lantern die with its cores, quadrants, bridges and port dies; the failures of its bridges are noted. -/
def State.startHalf (s : State) (x : StartInput) (die : Nat) : State :=
  let s := (List.range' (4 * die) 4).foldl (fun s q => s.powerDom (quadDom q) true) (s.startCores x die)
  let s := (List.range' (2 * die) 2).foldl (fun s b => match s.unitBad x 7 b with
    | some f => s.note 7 b f
    | none => s) s
  (List.range' (4 * die) 4).foldl (fun s n => s.startPortDie x n) s

/-- A Grotto stack (R109, R439): it serves, an evacuating one goes on evacuating, or it is lost. (log entry 95) -/
def State.startStack (s : State) (x : StartInput) (k : Nat) : State :=
  let y := s.stack k
  match s.unitBad x 2 k with
  | none =>
    (s.setStack k { y with state := if y.state = .evacuating then .evacuating else .serving, ce := 0, ue := 0 }).powerDom (stackDom k) true
  | some f =>
    let s := s.note 2 k f
    if y.state = .serving ∨ y.state = .evacuating then s.stackLost k
    else
      let s := (s.setStack k { y with state := .lost }).powerDom (stackDom k) false
      if f.1 = 0 then s else s.faultL 2 0x23 k 65536 0

/-- Blocks that the ledger names, and those that fail the pattern test, are LOST (R103, R439, R451). -/
def State.startBlocks (s : State) (x : StartInput) (warm : Bool) : State :=
  let old := s.nv.ledger.filterMap (fun e => match e with
    | w :: d :: _ => if bits w 52 8 = 3 then some (physBlk (bits w 40 12) (d.toNat % 65536)) else none
    | _ => none)
  let s := old.foldl (fun s b => if b / 65536 < s.nStacks then s.setBlk b ⟨.lost, .none⟩ else s) s
  if warm then s
  else x.badBlocks.foldl (fun s b =>
    if s.stackServes b.1 && (s.blk (physBlk b.1 b.2)).state != .lost then (s.setBlk (physBlk b.1 b.2) ⟨.lost, .none⟩).note 3 b.1 (2, b.2) else s) s

/-- Reserve a use where it is not held yet and there are blocks for it. -/
def State.reserveUse (s : State) (held : Use → Bool) (o : State → Option State) : State :=
  if s.pool.blks.any (fun e => e.2.state == .internal && held e.2.use) then s
  else match o s with
    | some s' => s'
    | none => s

/-- The region table, the block map and the response pool of a die (R64, R85, R213). -/
def State.startTables (s : State) (die : Nat) : State :=
  let ks := s.dieStacks die
  let s := s.reserveUse (fun u => match u with
    | .regionTable d _ => d == die
    | _ => false) (fun s => s.takeMirror ks 4 (fun _ c => .regionTable die c))
  let s := s.reserveUse (fun u => match u with
    | .blockMap d _ => d == die
    | _ => false) (fun s => s.takeMirror ks 1 (fun _ c => .blockMap die c))
  s.reserveUse (fun u => match u with
    | .rspPool d _ => d == die
    | _ => false) (fun s => s.takeInternal ks 32 (fun k => .rspPool die k))

/-! ### What a supply loss and a device reset leave (R108, R490 to R493, R528) -/

/-- The links after a reset: down; PERST# is a pin. -/
def linksReset (t : Tbl Link) : Tbl Link := (Tbl.map (fun _ l => { Link.down with perst := l.perst }) t).filter (fun e => e.2 != Link.down)

/-- Everything but the configuration memory, the Lamp-room store, the clocks and what the pins say is lost. An image that was being
written is not valid any more (R454). -/
def State.wiped (s : State) : State :=
  let nv := if s.fld F.SEC_STAGE_STATE = 4 then { s.nv with image := [] } else s.nv
  { State.reset with
    pending := s.pending, now := s.now, free := s.free, egress := s.egress
    chip := { State.reset.chip with stepping := s.chip.stepping }
    nv := nv
    io := { State.reset.io with links := linksReset s.io.links, nextId := s.io.nextId }
    pwr := { s.pwr with trip := false, waiting := none } }

/-- Uses that a device reset keeps: the region table, the block map, the table pages of partitions that survive. -/
def State.keepsUse (s : State) (u : Use) : Bool :=
  match u with
  | .regionTable _ _ => true
  | .blockMap _ _ => true
  | .tablePool p _ _ => (s.part p).lives
  | _ => false

/-- The pool through a device reset (R108, R495): contents, block map and Galleries stay; FREEING blocks and the Galleries of a partition
that does not come back are scrubbed and free; other INTERNAL blocks are free. -/
def State.poolKept (s : State) : State :=
  let s := (s.pool.freeing.map (·.2)).foldl State.releaseFreeing s
  let s := { s with pool := { s.pool with freeing := [] } }
  let gone := (s.pool.gmap.filter (fun e => e.2.alloc && !(s.part e.2.owner).lives)).map (·.1)
  let s := gone.foldl (fun s i => s.releaseRun i 1) s
  let s := s.releaseUses (fun u => u != .none && !s.keepsUse u)
  { s with pool := { s.pool with ce := [] } }

/-- The partitions through a device reset (R492 step 6): ACTIVE and RESETTING ones come back ACTIVE under a new generation, DESTROYING
ones are FREE and keep theirs (R404). (log entry 97) -/
def partKept (x : Part) : Part :=
  if x.lives then { x with state := .active, gen := (x.gen + 1) % 65536, halted := false, faults := 0, cmds := [] } else { Part.none with gen := x.gen }

/-- Whether a stack that holds something went OFF, so that its contents are gone. (log entry 96) -/
def State.poolGone (s : State) : Bool :=
  s.pool.blks.any (fun e => (e.2.state == .internal || e.2.state == .gallery) && (s.dom (stackDom (e.1 / 65536))).state == .off)

/-- Table pages for the partitions that came back without them. -/
def State.retakePools (s : State) : State :=
  s.parts.foldl (fun s e =>
    if e.2.lives && e.2.pages != 0 then
      match s.takePool e.1 0 (poolBlocks e.2.pages) with
      | some s' => s'
      | none => s.modPart e.1 (fun x => { x with pages := 0 })
    else s) s

/-- Steps 1 to 3 of R492, and what R493 keeps. -/
def State.warmWiped (s : State) : State :=
  let lost := s.poolGone
  let k := s.poolKept
  let w := s.wiped
  let w := { w with
    pool := if lost then w.pool else k.pool
    xl := if lost then w.xl else { tables := s.xl.tables.filter (fun e => (s.part e.1).lives), rgn := s.xl.rgn, rgnSeq := s.xl.rgnSeq }
    parts := (Tbl.map (fun _ x => partKept x) s.parts).filter (fun e => e.2 != Part.none)
    faultqs := s.faultqs.filter (fun e => e.1 == 64) }
  (s.xl.rgn.map (·.1)).foldl (fun w i => w.abortRegion i) (w.setReg .LAMP_POSITION 0 0 (s.reg .LAMP_POSITION))

/-! ### The start (R437) -/

/-- Steps 1 to 4: discovery, counters, the image's check. `kept`: the region table was retained. -/
def State.startHead (s : State) (x : StartInput) (warm kept : Bool) : State :=
  let s := { s with chip := { s.chip with pop := (setBits x.pop 30 2 0).toNat, variant := variantOf x.pop }, start := { Start.reset with warm := warm, running := true } }
  let nv := s.nv
  let nv := if x.counterOk then
      { nv with epoch := (nv.epoch + 1) % 65536, starts := (nv.starts + 1) % 2 ^ 32, inc := if kept then nv.inc else (nv.inc + 1) % 65536, seq := nv.seq + 1 }
    else nv
  let s := { s with nv := nv }
  let reason := if x.counterOk && x.imageOk then s.imageCheck s.nv.image else Img.NOR_ERROR
  let s := { s with start := { s.start with lampOut := reason != 0 } }
  let s := (s.setFld F.LAMP_STATUS_REASON reason).setFld F.LAMP_LEDGER_ENTRIES s.nv.ledger.length
  s.setFld F.LAMP_LEDGER_FULL (b2n (decide (ledgerSlots ≤ s.nv.ledger.length)))

/-- A start that ends out of service. -/
def State.startOver (s : State) : State := { s with start := { s.start with running := false } }

/-- The stacks and what is reserved on them; the optical engines found absent or ledgered, and all of them without the optical reference. -/
def State.startStacks (s : State) (x : StartInput) (warm : Bool) : State :=
  let s := (List.range s.nStacks).foldl (fun s k => s.startStack x k) s
  let s := (List.range s.nDies).foldl State.startTables (s.startBlocks x warm)
  let s := (List.range s.nEngines).foldl (fun s e =>
    if x.absent.contains 1 ∧ ¬ s.ledgered 5 e then s.engineFail e
    else if s.ledgered 5 e ∨ !unitAnswered x.pop 5 e then
      let s := s.note 5 e (if s.ledgered 5 e then 0 else 1, 0)
      (s.setEngine e { s.engine e with failed := true }).powerDom (engineDom e) false
    else s) s
  s.setFld F.LAMP_STATUS_STAGE 3

/-- Steps 1 to 6: up to the tests of dies and stacks. Without the 100 MHz reference no clock but the always-on one runs, and service does
not come back (R483, R485; DEDUCED, log entry 146). Lantern die 0 fails before the host link leaves reset; the failure of die 1, or of
bridge 4, comes after (R35, R503). Of two dies that fail both are in the ledger. -/
def State.startBegin (s : State) (x : StartInput) (warm kept : Bool) : State :=
  let s := { s with pwr := { s.pwr with lost := x.absent } }
  if x.absent.contains 0 then s.outOfService (fun _ => false) true
  else
  let s := s.startHead x warm kept
  match s.unitBad x 1 0 with
  | some f =>
    let s := match if s.half then none else s.unitBad x 1 1 with
      | some g => s.lanternEntry 1 g.2 g.1
      | none => s
    (s.lanternLost 0 f.2 f.1).startOver
  | none =>
    let s := s.startHalf x 0
    if s.half then s.startStacks x warm
    else match s.unitBad x 1 1, s.unitBad x 7 4 with
      | some f, _ => (s.lanternLost 1 f.2 f.1).startOver
      | none, some f =>
        let s := if f.1 = 0 then s else s.ledgerAdd 7 4 f.1 f.2
        (s.outOfService (fun _ => false) false).startOver
      | none, none => (s.startHalf x 1).startStacks x warm

/-- Begin a cold start, or a start after a device reset. -/
def State.coldStart (s : State) (x : StartInput) : State :=
  { s with nv := { s.nv with rtc := 0, rtcAt := s.now } }.startBegin x false false

/-- A device reset (R492): what is lost goes, and the Lamp room starts again. -/
def State.deviceReset (s : State) (x : StartInput) : State :=
  let kept := !s.poolGone
  let w := s.warmWiped.startBegin x true kept
  if kept then w else w.retakePools

/-- MAIN_PG_RISE (R526): the 1 ms begins. -/
def execMainPgRise (t : Nat) (s : State) : Host.Outcome State Fault Refusal :=
  let s := s.at t
  .next (if s.pwr.pgAt.isNone then { s with pwr := { s.pwr with pgAt := some s.now } } else s)

/-- SUPPLY_GOOD (R437, R526, R528): a start begins, or waits for the dies to cool after a trip. -/
def execSupplyGood (t : Nat) (x : StartInput) (s : State) : Host.Outcome State Fault Refusal :=
  let s := s.at t
  match s.pwr.pgAt with
  | none => .next s
  | some a =>
    if a + 1000000 ≤ s.now ∧ s.stage = 0 ∧ s.start.running = false then
      .next (if s.pwr.atWarn.isEmpty then s.coldStart x else { s with pwr := { s.pwr with waiting := some false } })
    else .next s

/-- SUPPLY_LOSS (R528): MAIN_PG falls. The dies' temperatures and the references stay what they are. -/
def execSupplyLoss (t : Nat) (s : State) : Host.Outcome State Fault Refusal :=
  let s := s.at t
  let w := s.wiped
  .next { w with pwr := { w.pwr with pgAt := none } }

/-- STANDBY_LOSS (R528): only the configuration memory and the Lamp-room store are left. -/
def execStandbyLoss (t : Nat) (s : State) : Host.Outcome State Fault Refusal :=
  let s := s.at t
  .next { s.wiped with pwr := State.reset.pwr }

/-- Request a device reset: it waits while a die is at or above WARN_AT (R489, R491). -/
def State.askReset (s : State) (x : StartInput) : State :=
  if s.pwr.atWarn.isEmpty then s.deviceReset x else { s with pwr := { s.pwr with waiting := some true } }

/-- LAMP_RESET_WRITE (R491): KEY 0xD5E7 and DEVICE = 1. -/
def execLampResetWrite (t : Nat) (w : Word) (x : StartInput) (s : State) : Host.Outcome State Fault Refusal :=
  let s := s.at t
  .next (if bits w 16 16 = 0xD5E7 ∧ bit w 0 then s.askReset x else s)

/-- DEVICE_RESET (R491): the command writes no completion. -/
def execDeviceReset (t r : Nat) (x : StartInput) (s : State) : Host.Outcome State Fault Refusal :=
  .next ((s.at t).admRun r Op.DEVICE_RESET (fun s _ => (s.delRec r).askReset x))

/-- DIE_BELOW_WARN_AT (R489, R528): every die is below WARN_AT, and what waited goes on. -/
def execDieBelowWarnAt (t : Nat) (x : StartInput) (s : State) : Host.Outcome State Fault Refusal :=
  let s := s.at t
  let s := { s with pwr := { s.pwr with atWarn := [] } }
  match s.pwr.waiting with
  | none => .next s
  | some dev =>
    let s := { s with pwr := { s.pwr with waiting := none } }
    .next (if dev then s.deviceReset x else s.coldStart x)

/-! ### Step 7: arrays (R293, R294, R438) -/

/-- Assign a group's logical arrays (R293, R294): its working arrays in order, the rest doubled. -/
def State.assignGroup (s : State) (g : Nat) : State :=
  if !s.groupServes g then s
  else
    let ws := (List.range' (34 * g) 34).filter (fun a => !s.arr.failed.contains a)
    let w := min 32 ws.length
    let m := (List.range 32).foldl (fun m j =>
      let a := ws.getD (if j < w then j else j - w) 0
      Tbl.set 0 m (32 * g + j) (a + 1)) s.arr.amap
    { s with arr := { s.arr with amap := m } }

/-- ARRAY_WAVE (R438): wave w is powered and tested; `failed` the arrays whose test fails, with the failing vector. Ledgered arrays are
neither powered nor tested. -/
def execArrayWave (t w : Nat) (failed : List (Nat × Nat)) (s : State) : Host.Outcome State Fault Refusal :=
  let s := s.at t
  if s.start.running ∧ s.stage = 3 ∧ w = s.start.waves.length ∧ w < s.sized 8 then
    let as_ := List.range' (68 * w) 68
    let old := as_.filter (s.ledgered 4)
    let new := failed.filter (fun f => as_.contains f.1 && !old.contains f.1)
    let s := { s with
      arr := { s.arr with failed := s.arr.failed ++ old ++ (new.map (·.1)).eraseDups, tested := s.arr.tested ++ [2 * w, 2 * w + 1] }
      start := { s.start with waves := s.start.waves ++ [w] } }
    let s := new.foldl (fun (s : State) (f : Nat × Nat) => s.note 4 f.1 (2, f.2)) s
    .next ((((s.powerDom (arrayDom (2 * w)) true).powerDom (arrayDom (2 * w + 1)) true).assignGroup (2 * w)).assignGroup (2 * w + 1))
  else .next s

/-! ### Steps 8 and 9 (R437, R441 to R447, R450 to R452) -/

/-- Step 8: the ledger entries of this start, and the measurements (R452, R471). (log entry 98) -/
def State.recordStart (s : State) : State :=
  let s := if 4096 < ledgerSlots - s.nv.ledger.length then s.ledgerAdd 0 0 (b2n s.start.warm) s.chip.pop else s
  let s := s.start.entries.foldl (fun s e => s.ledgerAdd e.1 e.2.1 e.2.2.1 e.2.2.2) s
  { s with start := { s.start with
    mImage := if s.start.lampOut then List.replicate 64 0 else imgDigest s.nv.image
    mLedger := Config.sha3_512 (s.nv.ledger.flatMap (fun e => e.flatMap wordBytes)), nLedger := s.nv.ledger.length } }

/-- Partition 0 takes its record (R397, R447, R540): its table-page pool is reserved, or it has none. -/
def State.partZero (s : State) (q : Desc) : State :=
  let x := s.part 0
  let n := (Part.ofQuota q).pagesWanted
  let old := poolBlocks x.pages
  let y : Part := { x with state := .active, quota := q, pages := n }
  match s.takePool 0 old (poolBlocks n) with
  | some s => (s.dropPool 0 (poolBlocks n)).setPart 0 y
  | none => (s.dropPool 0 0).setPart 0 { y with pages := 0 }

/-- A SETTINGS entry that starts or stops something: it takes its place after the stops are released (R442). -/
def releases (r : RegName) : Bool := r == .SWT_ROUTE_CTRL || r == .ETH_GATE_CTRL

/-- One SETTINGS entry, as a host write of its width (R442). -/
def State.setting (s : State) (late : Bool) (e : List Byte) : State :=
  let a := bits (wordAt e 0) 0 26
  match regAt a with
  | some (r, _, _) => if releases r = late then s.writeAt a (if bit (wordAt e 0) 32 then 64 else 32) (wordAt e 1) else s
  | none => s

/-- The SETTINGS section (R442): applied with every stop in force. (log entry 99) -/
def State.settings (s : State) (b : List Byte) : State :=
  let es := entriesOf 16 b
  let s := (s.setFld F.SWT_ROUTE_CTRL_STOP_ALL 1).setFld F.SWT_ROUTE_CTRL_STOP 0x3F
  let s := es.foldl (State.setting · false) s
  let s := (s.setFld F.SWT_ROUTE_CTRL_STOP_ALL 0).setFld F.SWT_ROUTE_CTRL_STOP 0
  es.foldl (State.setting · true) s

/-- The DOMAIN section (R443): the UDP port, and the entry of this position. -/
def State.domainSection (s : State) (b : List Byte) : State :=
  let s := s.setFld F.ETH_KT_CFG_UDP_PORT (bits (wordAt b 0) 48 16)
  let pos := s.fld F.LAMP_POSITION_POSITION
  match (entriesOf 32 (b.drop 8)).find? (fun e => bits (wordAt e 0) 32 32 == pos && pos != 0xFFFFFFFF) with
  | none => s
  | some e =>
    let w0 := wordAt e 0
    let w1 := wordAt e 1
    let base := bits (wordAt e 2) 0 48
    let s := (List.range s.nEth).foldl (fun s n => s.setReg .ETH_MAC n 0 (word (2 ^ 63 + (base + n) % 2 ^ 48))) s
    let node := bits w0 18 14
    if bits w0 16 2 = 0 then { s with start := { s.start with request := node } }
    else (s.takeNode node).keeperTake (bits w0 16 2) (bits w0 4 12) (bits w1 50 14) (bits w1 32 9) 0

/-- The TRUST section (R444). -/
def State.trustSection (s : State) (b : List Byte) : State :=
  let t := (entriesOf 72 b).foldl (fun t e =>
    let k := bits (wordAt e 0) 56 8
    if bit (wordAt e 0) 0 then Tbl.put t k (slice e 8 64) else Tbl.del t k) s.nv.trust
  { s with nv := { s.nv with trust := t } }

/-- A section of the image, if it has one. -/
def State.useSection (s : State) (type : Nat) (f : State → List Byte → State) : State :=
  match imgSection s.nv.image type with
  | some b => f s b
  | none => s

/-- Step 9 with an image (R441 to R444, R446). -/
def State.configure (s : State) : State :=
  let b := s.nv.image
  let s := s.useSection 1 (fun s b => s.partZero (Desc.ofBytes b))
  let s := s.useSection 2 State.settings
  let s := { s with start := { s.start with request := s.nv.lastNode.getD 0 } }
  let s := (s.useSection 3 State.domainSection).useSection 4 State.trustSection
  -- after a device reset the JOIN requests LAST_NODE (R492 step 7)
  let s := if s.start.warm && s.nv.lastNode.isSome then { s with start := { s.start with request := s.nv.lastNode.getD 0 } } else s
  let s := if s.nv.floor < imgFloor b then { s with nv := { s.nv with floor := imgFloor b, seq := s.nv.seq + 1 } } else s
  s.setFld F.LAMP_IMAGE_VERSION (imgVersion b)

/-- Step 9 in lamp out (R447): partition 0 with PAGES 1 and nothing else, the fabric ports enabled with their reset settings. -/
def State.lampOutConfig (s : State) : State :=
  let s := s.partZero { Desc.zero with w1 := 1 }
  let s := { s with start := { s.start with request := s.nv.lastNode.getD 0 } }
  (List.range s.nPorts).foldl (fun s p => s.setFld F.FAB_PORT_CFG_ENABLE 1 p) s

/-! ### Steps 10 and 11 -/

/-- Step 11: READY, or LAMP_OUT. -/
def State.startDone (s : State) : State :=
  { s with start := { s.start with running := false, engines := [] } }.setFld F.LAMP_STATUS_STAGE (if s.start.lampOut then 7 else 6)

/-- The engines of the ports that are enabled (R437 step 10). -/
def State.wantedEngines (s : State) : List Nat :=
  (List.range s.nEngines).filter (fun e => !(s.engine e).failed && (List.range' (4 * e) 4).any (fun p => s.flag F.FAB_PORT_CFG_ENABLE p))

/-- SELF_TEST_DONE (R437 steps 8 to 10): every wave has run. -/
def execSelfTestDone (t : Nat) (s : State) : Host.Outcome State Fault Refusal :=
  let s := s.at t
  if s.start.running ∧ s.stage = 3 ∧ s.start.waves.length = s.sized 8 then
    let s := s.recordStart.setFld F.LAMP_STATUS_STAGE 4
    let s := if s.start.lampOut then s.lampOutConfig else s.configure
    let s := { s with start := { s.start with engines := s.wantedEngines } }.setFld F.LAMP_STATUS_STAGE 5
    .next (if s.start.engines.isEmpty then s.startDone else s)
  else .next s

/-- One engine is powered and calibrated (R439): its enabled ports look for light, or it has failed. -/
def State.startEngine (s : State) (failed : List (Nat × Nat)) (e : Nat) : State :=
  let s := s.powerDom (engineDom e) true
  match failed.find? (fun f => f.1 == e) with
  | some f => (s.ledgerAdd 5 e 2 f.2).engineFail e
  | none => (List.range' (4 * e) 4).foldl State.tryDetect s

/-- ENGINE_WAVE (R437 step 10): the next engine of each die; `failed` those whose calibration fails, with the test's code. -/
def execEngineWave (t : Nat) (failed : List (Nat × Nat)) (s : State) : Host.Outcome State Fault Refusal :=
  let s := s.at t
  if s.start.running ∧ s.stage = 5 then
    let es := s.start.engines
    let now := (es.find? (fun e => decide (e < 16))).toList ++ (es.find? (fun e => decide (16 ≤ e))).toList
    let s := now.foldl (fun s e => s.startEngine failed e) { s with start := { s.start with engines := es.filter (fun e => !now.contains e) } }
    .next (if s.start.engines.isEmpty then s.startDone else s)
  else .next s

end Sys2Proof.Machine
end

