-- ==== Sys2Proof/Machine/Image.lean ====
section
/-!
DEFINITION. Updating the image (R453, R454), distributing it to a Keeper group (R455 to R461), and the ledger, Daymark, attestation and
key commands (R449, R467 to R474, spec/13_startup_configuration_and_security.md).
-/
namespace Sys2Proof.Machine

/-! ### The staging area (R453) -/

/-- The states of the staging area, as SEC_STAGE.STATE shows them. -/
inductive StageState where
  | idle | staging | verifying | verified | writing | rejected
  deriving DecidableEq, Repr

def StageState.code : StageState → Nat
  | .idle => 0 | .staging => 1 | .verifying => 2 | .verified => 3 | .writing => 4 | .rejected => 5

def StageState.ofCode (n : Nat) : StageState :=
  match n with
  | 1 => .staging | 2 => .verifying | 3 => .verified | 4 => .writing | 5 => .rejected | _ => .idle

def State.stg? (s : State) : StageState := StageState.ofCode (s.fld F.SEC_STAGE_STATE)
def State.setStg (s : State) (x : StageState) : State := s.setFld F.SEC_STAGE_STATE x.code
def State.modStg (s : State) (f : Stg → Stg) : State := { s with stg := f s.stg }

/-- Whether a new image may be staged. -/
def State.stgFree (s : State) : Bool := s.stg? == .idle || s.stg? == .rejected

/-- What is staged leaves, its blocks are freed; a distribution from here stays on record. -/
def State.stgEmpty (s : State) : State :=
  let s := s.releaseUses (fun u => match u with
    | .staging _ => true
    | _ => false)
  (s.modStg (fun x => { x with
    total := 0, runs := [], got := [], digest := [], commit := none, auto := false, man := [], port := none, asks := 0 })).setFld F.SEC_STAGE_BYTES 0

/-- The area is IDLE. -/
def State.stgIdle (s : State) : State := s.stgEmpty.setStg .idle

/-- Take ⌈TOTAL / 2 MiB⌉ blocks for a new image (R453): STAGING, if there are that many. -/
def State.stgTake (s : State) (total : Nat) (distribution : Bool) : Option State :=
  (s.stgEmpty.takeInternal (List.range s.nStacks) (ceilDiv total blkBytes) (fun k => .staging k)).map (fun s =>
    (((s.modStg (fun x => { x with total := total })).setStg .staging).setFld F.SEC_STAGE_SOURCE (b2n distribution)).setFld F.SEC_STAGE_BYTES 0)

/-- A byte range cut at the blocks of the staging area: physical address, offset from the start of the range and length; a block that
has been lost is left out. -/
def State.stgCuts (s : State) (off len : Nat) : List (Nat × Nat × Nat) :=
  (List.range' (off / blkBytes) ((off + len + blkBytes - 1) / blkBytes - off / blkBytes)).filterMap (fun k =>
    let lo := max off (k * blkBytes)
    let hi := min (off + len) ((k + 1) * blkBytes)
    (s.useBlk (.staging k)).map (fun b => (b * blkBytes + lo % blkBytes, lo - off, hi - lo)))

/-- Store bytes in the staging area. -/
def State.stgWrite (s : State) (off : Nat) (bs : List Byte) : State :=
  (s.stgCuts off bs.length).foldl (fun s c => s.physWrite c.1 (slice bs c.2.1 c.2.2)) s

/-- Read bytes of the staging area. -/
def State.stgRead (s : State) (off len : Nat) : List Byte := (s.stgCuts off len).flatMap (fun c => s.memRead c.1 c.2.2)

/-- The lines a read of the staging area uses (R509), with what their ECC check finds. -/
def State.stgUse (s : State) (off len : Nat) : State :=
  (s.stgCuts off len).foldl (fun s c => (s.useLines (3 * 2 ^ 48 + c.1) c.2.2).checked (3 * 2 ^ 48 + c.1) c.2.2) s

/-- Whether a range can be read: no block of it is lost and no line poisoned. -/
def State.stgGood (s : State) (off len : Nat) : Bool :=
  let cs := s.stgCuts off len
  (cs.map (fun c => c.2.2)).foldl (· + ·) 0 == len && cs.all (fun c => (s.physPoison c.1 c.2.2).isNone)

/-- The staged image. -/
def State.staged (s : State) : List Byte := s.stgRead 0 s.stg.total

/-- A byte range joins those present; ranges that touch become one. -/
def addRun (l : List (Nat × Nat)) (a b : Nat) : List (Nat × Nat) :=
  let hit := l.filter (fun r => decide (a ≤ r.2) && decide (r.1 ≤ b))
  l.filter (fun r => !(decide (a ≤ r.2) && decide (r.1 ≤ b))) ++ [((hit.map (·.1)).foldl min a, (hit.map (·.2)).foldl max b)]

/-- Bytes present. -/
def runBytes (l : List (Nat × Nat)) : Nat := (l.map (fun r => r.2 - r.1)).foldl (· + ·) 0

/-- An admin command asks for the bytes of its source operand. -/
def State.admFetch (s : State) (r : Nat) (x : Rec) (k : State → Rec → List Byte → State) : State :=
  let g := (s.admWait r).gather x.part x.src (.admin r)
  match g.2 with
  | some (.bytes b) => k g.1 x b
  | some (.bad st d) => g.1.admEnd r st d
  | none => g.1

/-! ### IMAGE_STAGE, IMAGE_COMMIT, IMAGE_DISCARD (R453, R454, R473) -/

/-- The bytes of a piece have come. The first piece of a new image has OFFSET 0; the others name the same TOTAL. (log entry 102) -/
def State.imagePiece (s : State) (r : Nat) (x : Rec) (b : List Byte) : State :=
  let off := bits x.desc.w4 0 27
  let total := bits x.desc.w5 0 27
  let go (s : State) : State :=
    let s := (s.stgWrite off b).modStg (fun y => { y with runs := addRun y.runs off (off + b.length) })
    let n := runBytes s.stg.runs
    (s.setFld F.SEC_STAGE_BYTES n).admEnd r Stat.SUCCESS (total - n)
  if s.stgFree then
    if off ≠ 0 then s.admEnd r Stat.BAD_STATE
    else match s.stgTake total false with
      | some s => go s
      | none => s.stgIdle.admEnd r Stat.NO_GALLERY_SPACE
  else if s.stg? = .staging ∧ s.fld F.SEC_STAGE_SOURCE = 0 ∧ s.stg.total = total then go s
  else s.admEnd r Stat.BAD_STATE

/-- IMAGE_STAGE (R453): its piece is asked for. -/
def execImageStage (t r : Nat) (s : State) : Host.Outcome State Fault Refusal :=
  .next ((s.at t).admRun r Op.IMAGE_STAGE (fun s x => s.admFetch r x (fun s x b => s.imagePiece r x b)))

/-- Writing begins (R454): the image area is erased, so it holds no valid image from now on. -/
def State.startWriting (s : State) : State := { (s.setStg .writing).setFld F.SEC_STAGE_BYTES 0 with nv := { s.nv with image := [] } }

/-- IMAGE_COMMIT (R453, R454): a whole staged image is verified, a verified one written. -/
def execImageCommit (t r : Nat) (s : State) : Host.Outcome State Fault Refusal :=
  .next ((s.at t).admRun r Op.IMAGE_COMMIT (fun s _ =>
    let go (s : State) : State := (s.admWait r).modStg (fun x => { x with commit := some r })
    if s.stg? = .verified then (go s).startWriting
    else if s.stg? = .staging ∧ s.fld F.SEC_STAGE_SOURCE = 0 ∧ runBytes s.stg.runs = s.stg.total then (go s).setStg .verifying
    else s.admEnd r Stat.BAD_STATE))

/-- IMAGE_DISCARD (R453): the area is IDLE; a commit that waited for the verification ends with BAD_STATE. (log entry 103) -/
def execImageDiscard (t r : Nat) (s : State) : Host.Outcome State Fault Refusal :=
  .next ((s.at t).admRun r Op.IMAGE_DISCARD (fun s _ =>
    if s.stg? = .writing then s.admEnd r Stat.BAD_STATE
    else
      let c := s.stg.commit
      let s := s.stgIdle
      let s := match c with
        | some q => s.admEnd q Stat.BAD_STATE
        | none => s
      s.admEnd r Stat.SUCCESS))

/-! ### Distribution messages (R455, R456) -/

/-- MANIFEST_ID: bytes 0 to 3 of the SHA3-512 of the manifest. -/
def manifestId (m : List Byte) : Nat := leNat ((Config.sha3_512 m).take 4)

/-- A distribution message. -/
def distBytes (dtype id chunk : Nat) (repair : Bool) (origin : Nat) (body : List Byte) : List Byte :=
  wordBytes (word (dtype % 256 * 2 ^ 56 + 2 ^ 52 + id % 2 ^ 32))
    ++ wordBytes (word (chunk % 65536 * 2 ^ 48 + 255 * 2 ^ 40 + b2n repair * 2 ^ 32 + body.length % 2 ^ 32))
    ++ wordBytes (word (origin % 2 ^ 14)) ++ wordBytes 0 ++ body

/-- A distribution message as received: `src` the node, or 65,536 + p from port p in state MGT_ONLY. -/
structure DMsg where
  src    : Nat
  id     : Nat
  chunk  : Nat
  relay  : Nat
  repair : Bool
  origin : Nat
  body   : List Byte
  raw    : List Byte
  deriving DecidableEq, Repr

def DMsg.of (src : Nat) (b : List Byte) : DMsg :=
  let w1 := wordAt b 1
  { src := src, id := bits (wordAt b 0) 0 32, chunk := bits w1 48 16, relay := bits w1 40 8, repair := bit w1 32, origin := bits (wordAt b 2) 0 14
    body := slice b 32 (bits w1 0 32), raw := b }

/-- A message with RELAY_PORT 0xFF. -/
def DMsg.unrelayed (m : DMsg) : List Byte := m.raw.take 8 ++ wordBytes (setBits (wordAt m.raw 1) 40 8 255) ++ m.raw.drop 16

/-- Take the k-th delivered message, if it is a distribution message of a type. -/
def State.takeDist (s : State) (k dtype : Nat) : Option (DMsg × State) :=
  match s.tr.inbox[k]? with
  | none => none
  | some (src, qpn, bs) =>
    if qpn = 1 ∧ mtypeOf bs = dtype then some (DMsg.of src bs, { s with tr := { s.tr with inbox := s.tr.inbox.eraseIdx k } })
    else none

/-- Relaying (R458, R459): a message of the followed member with a RELAY_PORT goes out on that port in state MGT_ONLY; an answer from such
a port goes to the ORIGIN of the manifest sent through it. None: the message is for this adapter. (log entry 105) -/
def State.relayDist (s : State) (m : DMsg) (manifest answer : Bool) : Option State :=
  if m.src < 65536 ∧ m.relay ≠ 255 then
    if s.kpr.active = some m.src ∧ (s.port m.relay).state = .mgtOnly then
      let s := if manifest then s.modStg (fun x => { x with relays := Tbl.put x.relays m.relay m.origin }) else s
      some (s.portMsg m.relay 1 m.unrelayed)
    else some s
  else if 65536 ≤ m.src ∧ answer then
    match Tbl.find s.stg.relays (m.src - 65536) with
    | some o => some (s.queueMgt o 1 m.raw)
    | none => some s
  else none

/-! ### The manifest (R456) -/

def manLen (b : List Byte) : Nat := bits (wordAt b 1) 32 32
def manVersion (b : List Byte) : Nat := bits (wordAt b 1) 0 32
def manChunks (b : List Byte) : Nat := bits (wordAt b 2) 48 16
def manWorkers (b : List Byte) : Nat := bits (wordAt b 2) 0 9
def manSigner (b : List Byte) : Nat := bits (wordAt b 3) 60 4

/-- The tree: (PARENT, NODE). -/
def manTree (b : List Byte) : List (Nat × Nat) :=
  (List.range (manWorkers b)).map (fun i =>
    let w := leNat (slice b (64 + 4 * i) 4)
    (bitsN w 14 14, bitsN w 0 14))

/-- The digest of chunk c. -/
def manDigest (b : List Byte) (c : Nat) : List Byte := slice b (64 + 4 * manWorkers b + 64 * c) 64

/-- Bytes before the signature block. -/
def manBody (b : List Byte) : Nat := 64 + 4 * manWorkers b + 64 * manChunks b

/-- The layout: MAGIC, FMT, one digest for each 64 KiB of an IMAGE_LEN of R440, and the signature block at the end. -/
def manForm (b : List Byte) : Bool :=
  bits (wordAt b 0) 32 32 == 0x5A514D46 && bits (wordAt b 0) 16 16 == 1 && manLen b % 64 == 0 && decide (7232 ≤ manLen b)
    && decide (manLen b ≤ 100663296) && manChunks b == ceilDiv (manLen b) 65536 && decide (1 ≤ manWorkers b) && decide (manWorkers b ≤ 256)
    && b.length == manBody b + 7232

/-- The nodes a node passes messages on to. -/
def manChildren (b : List Byte) (parent : Nat) : List Nat := ((manTree b).filter (fun e => e.1 == parent)).map (·.2)

/-- Bytes of chunk c. -/
def chunkLen (total c : Nat) : Nat := min 65536 (total - 65536 * c)

/-- The conditions of R457, and of R459 in lamp out, but for the staging area's state. -/
def State.manifestOk (s : State) (b : List Byte) : Bool :=
  manForm b && s.signedBy (manSigner b) (slice b (manBody b) 7232) (Config.sha3_512 (b.take (manBody b))) == 0 && decide (s.nv.floor ≤ manVersion b)
    && (s.start.lampOut || (manTree b).any (fun e => s.node == some e.2))

/-- Send a distribution message to whoever directs this one: through the port it came by, or to the member (R459). -/
def State.distTo (s : State) (port : Option Nat) (origin : Nat) (b : List Byte) : State :=
  match port with
  | some p => s.portMsg p 1 b
  | none => s.queueMgt origin 1 b

/-- A STATUS (R455): verified, or rejected with a reason. -/
def State.sendStatus (s : State) (port : Option Nat) (origin id reason : Nat) : State :=
  s.distTo port origin (distBytes 4 id 0 false (s.node.getD 0)
    (wordBytes (word (if reason = 0 then 0 else 2 ^ 60 + reason % 16 * 2 ^ 56))))

/-- The worker's own manifest: its ID. -/
def State.ownManifest (s : State) (id : Nat) : Bool := s.stg.man != [] && manifestId s.stg.man == id

/-- MANIFEST (R457, R459). (log entry 104) -/
def execManifest (t k : Nat) (s : State) : Host.Outcome State Fault Refusal :=
  let s := s.at t
  match s.takeDist k 1 with
  | none => .next s
  | some (m, s) =>
    match s.relayDist m true false with
    | some s => .next s
    | none =>
      let far := decide (65536 ≤ m.src)
      let port := if far then some (m.src - 65536) else none
      let from_ := if s.start.lampOut then far else !far && s.kpr.active == some m.origin
      let id := manifestId m.body
      .next (if !from_ then s
        else if !s.stgFree then s.sendStatus port m.origin id Img.BUSY
        else if !s.manifestOk m.body then s.sendStatus port m.origin id Img.MANIFEST
        else match s.stgTake (manLen m.body) true with
          | none => s.stgIdle.sendStatus port m.origin id Img.BUSY
          | some s =>
            let s := s.modStg (fun x => { x with man := m.body, origin := m.origin, port := port, lastAt := s.now, auto := s.start.lampOut })
            match s.node with
            | some n => if far then s else (manChildren m.body n).foldl (fun s c => s.queueMgt c 1 m.raw) s
            | none => s)

/-- CHUNK (R458 to R460): placed when its digest is the manifest's, passed on to the children unless it repairs; with the last one the image
is verified. -/
def execChunk (t k : Nat) (s : State) : Host.Outcome State Fault Refusal :=
  let s := s.at t
  match s.takeDist k 2 with
  | none => .next s
  | some (m, s) =>
    match s.relayDist m false false with
    | some s => .next s
    | none =>
      let far := if 65536 ≤ m.src then some (m.src - 65536) else none
      if s.stg? ≠ .staging ∨ !s.ownManifest m.id ∨ far ≠ s.stg.port ∨ manChunks s.stg.man ≤ m.chunk ∨ s.stg.got.contains m.chunk then .next s
      else if m.body.length ≠ chunkLen s.stg.total m.chunk ∨ Config.sha3_512 m.body ≠ manDigest s.stg.man m.chunk then
        .next (s.count F.SEC_COUNT_COUNT 7)
      else
        let s := (s.stgWrite (65536 * m.chunk) m.body).modStg (fun x => { x with got := x.got ++ [m.chunk], lastAt := s.now })
        let s := s.setFld F.SEC_STAGE_BYTES (s.fld F.SEC_STAGE_BYTES + m.body.length)
        let s := if m.repair ∨ far.isSome then s
          else (manChildren s.stg.man (s.node.getD 0)).foldl (fun s c => s.queueMgt c 1 m.raw) s
        .next (if s.stg.got.length = manChunks s.stg.man then s.setStg .verifying else s)

/-- The bitmap of the chunks a worker lacks (R455). -/
def State.wanted (s : State) : List Byte :=
  (List.range 192).map (fun i => BitVec.ofNat 8 (((List.range 8).map (fun j =>
    b2n (decide (8 * i + j < manChunks s.stg.man) && !s.stg.got.contains (8 * i + j)) * 2 ^ j)).foldl (· + ·) 0))

/-- DIST_REQUEST_TIMER (R460): 5 ms without a chunk; after 100 REQUESTs the area is REJECTED with reason MANIFEST. -/
def execDistRequestTimer (t : Nat) (s : State) : Host.Outcome State Fault Refusal :=
  let s := s.at t
  if s.stg? = .staging ∧ s.fld F.SEC_STAGE_SOURCE = 1 ∧ s.stg.lastAt + 5000000 ≤ s.now then
    if 100 ≤ s.stg.asks then .next ((s.setStg .rejected).setFld F.SEC_STAGE_REASON Img.MANIFEST)
    else
      let tgt := if s.start.lampOut then s.stg.origin else s.kpr.active.getD s.stg.origin
      let s := s.modStg (fun x => { x with lastAt := s.now, asks := x.asks + 1 })
      .next (s.distTo s.stg.port tgt (distBytes 3 (manifestId s.stg.man) 0 false (s.node.getD 0) s.wanted))
  else .next s

/-! ### The Keeper member (R460, R461) -/

/-- Send chunk c of the own staging area to a node; one that cannot be read is not sent. -/
def State.sendChunk (s : State) (tgt id c : Nat) (repair : Bool) : State :=
  let n := chunkLen s.stg.total c
  let s := s.stgUse (65536 * c) n
  if s.stgGood (65536 * c) n then
    s.queueMgt tgt 1 (distBytes 2 id c repair (s.node.getD 0) (s.stgRead (65536 * c) n))
  else s

/-- The manifest of IMAGE_DISTRIBUTE has come: it goes with every chunk to the first-level workers. -/
def State.distribute (s : State) (r : Nat) (b : List Byte) : State :=
  if s.stg? ≠ .verified ∨ s.stg.dist.isSome then s.admEnd r Stat.BAD_STATE
  else if !manForm b || manLen b != s.stg.total then s.admEnd r Stat.IMAGE_REJECTED (Img.MANIFEST * 2 ^ 60)
  else
    let id := manifestId b
    let own := s.node.getD 0
    let tgt := manChildren b own
    let s := s.modStg (fun x => { x with dist := some r, distMan := b, sentAt := s.now, good := [], bad := [] })
    let s := tgt.foldl (fun s n => s.queueMgt n 1 (distBytes 1 id 0 false own b)) s
    (List.range (manChunks b)).foldl (fun s c => tgt.foldl (fun s n => s.sendChunk n id c false) s) s

/-- IMAGE_DISTRIBUTE (R461). (log entry 106) -/
def execImageDistribute (t r : Nat) (s : State) : Host.Outcome State Fault Refusal :=
  .next ((s.at t).admRun r Op.IMAGE_DISTRIBUTE (fun s x =>
    if !s.kpr.role.isActive then s.admEnd r Stat.NOT_KEEPER
    else if s.stg? ≠ .verified ∨ s.stg.dist.isSome then s.admEnd r Stat.BAD_STATE
    else s.admFetch r x (fun s _ b => s.distribute r b)))

/-- IMAGE_DISTRIBUTE completes with its counts. -/
def State.distDone (s : State) : State :=
  match s.stg.dist with
  | none => s
  | some r => (s.modStg (fun x => { x with dist := none })).admEnd r Stat.SUCCESS (s.stg.good.length * 65536 + s.stg.bad.length)

/-- DIST_REQUEST (R460): answered with repair chunks. -/
def execDistRequest (t k : Nat) (s : State) : Host.Outcome State Fault Refusal :=
  let s := s.at t
  match s.takeDist k 3 with
  | none => .next s
  | some (m, s) =>
    match s.relayDist m false true with
    | some s => .next s
    | none =>
      .next (if s.stg.distMan = [] ∨ manifestId s.stg.distMan ≠ m.id ∨ s.stg? ≠ .verified ∨ s.stg.total ≠ manLen s.stg.distMan then s
        else ((List.range (manChunks s.stg.distMan)).filter (fun c => ((m.body.getD (c / 8) 0).toNat).testBit (c % 8))).foldl
          (fun s c => s.sendChunk m.src m.id c true) s)

/-- DIST_STATUS (R461): a worker of the tree has verified or rejected; with the last one the command completes. What a worker sends on for an
adapter in lamp out does not carry its own node as ORIGIN. -/
def execDistStatus (t k : Nat) (s : State) : Host.Outcome State Fault Refusal :=
  let s := s.at t
  match s.takeDist k 4 with
  | none => .next s
  | some (m, s) =>
    match s.relayDist m false true with
    | some s => .next s
    | none =>
      let ns := (manTree s.stg.distMan).map (·.2)
      if s.stg.dist.isNone ∨ manifestId s.stg.distMan ≠ m.id ∨ !ns.contains m.src ∨ m.origin ≠ m.src then .next s
      else
        let ok := bits (wordAt m.body 0) 60 4 == 0
        let s := s.modStg (fun x => { x with
          good := if ok then (x.good ++ [m.src]).eraseDups else x.good.erase m.src, bad := if ok then x.bad.erase m.src else (x.bad ++ [m.src]).eraseDups })
        .next (if ns.all (fun n => s.stg.good.contains n || s.stg.bad.contains n) then s.distDone else s)

/-- DISTRIBUTE_TIMEOUT (R461). -/
def execDistributeTimeout (t : Nat) (s : State) : Host.Outcome State Fault Refusal :=
  let s := s.at t
  .next (if s.stg.dist.isSome ∧ s.stg.sentAt + 10000000000 ≤ s.now then s.distDone else s)

/-! ### The end of a verification and of a writing (R453, R454, R448) -/

/-- The staged image's check; a block or line that cannot be read makes the digest fail. -/
def State.stagedCheck (s : State) : Nat := if s.stgGood 0 s.stg.total then s.imageCheck s.staged else Img.SIGNATURE

/-- IMAGE_VERIFY_DONE (R453, R459, R460). A host commit, and an adapter in lamp out, go on to WRITING at once. -/
def execImageVerifyDone (t : Nat) (s : State) : Host.Outcome State Fault Refusal :=
  let s := s.at t
  if s.stg? ≠ .verifying then .next s
  else
    let s := s.stgUse 0 s.stg.total
    let e := s.stagedCheck
    let s := if s.stg.man = [] then s else s.sendStatus s.stg.port (if s.start.lampOut then s.stg.origin else s.kpr.active.getD s.stg.origin) (manifestId s.stg.man) e
    if e = 0 then
      let s := (s.modStg (fun x => { x with digest := imgDigest s.staged })).setStg .verified
      .next (if s.stg.commit.isSome ∨ s.stg.auto then s.startWriting else s)
    else
      let c := s.stg.commit
      let s := ((s.modStg (fun x => { x with commit := none })).setStg .rejected).setFld F.SEC_STAGE_REASON e
      .next (match c with
        | some r => s.admEnd r Stat.IMAGE_REJECTED (e * 2 ^ 60)
        | none => s)

/-- IMAGE_WRITE_DONE (R454, R448): the NOR was erased, programmed and read back, `ok` without a failure; what was written must have the
digest that was verified. In lamp out a success starts the adapter again, with what that start finds. -/
def execImageWriteDone (t : Nat) (ok : Bool) (x : StartInput) (s : State) : Host.Outcome State Fault Refusal :=
  let s := s.at t
  if s.stg? ≠ .writing then .next s
  else
    let s := s.stgUse 0 s.stg.total
    let img := (s.staged).take (imgLen s.staged)
    let good := ok && s.stgGood 0 s.stg.total && imgDigest img == s.stg.digest
    let c := s.stg.commit
    let s := s.stgIdle
    let s := if good then { s with nv := { s.nv with image := img } } else s
    let s := match c with
      | some r => s.admEnd r (if good then Stat.SUCCESS else Stat.NOR_ERROR)
      | none => s
    .next (if good && s.start.lampOut then s.askReset x else s)

/-! ### The ledger and the Daymark (R449, R470 to R472) -/

/-- LEDGER_READ (R474): valid entries from a first one on. -/
def execLedgerRead (t r : Nat) (s : State) : Host.Outcome State Fault Refusal :=
  .next ((s.at t).admRun r Op.LEDGER_READ (fun s x =>
    let es := (s.nv.ledger.drop (bits x.desc.w2 0 20)).take (bits x.desc.w3 0 9)
    s.admResult r x (es.flatMap (fun e => e.flatMap wordBytes)) es.length))

/-- DAYMARK_READ (R470): the identity record or a chain, at most LIMIT bytes. -/
def execDaymarkRead (t r : Nat) (s : State) : Host.Outcome State Fault Refusal :=
  .next ((s.at t).admRun r Op.DAYMARK_READ (fun s x =>
    let item := bits x.desc.w2 0 4
    let b := (if item = 0 then s.identity else Config.certChain item).take (bits x.desc.w3 0 15)
    s.admResult r x b b.length))

/-- The ASCII bytes of the two labels of R467 and R472. -/
def kekLabel : List Byte := [0x5A, 0x51, 0x58, 0x4B, 0x45, 0x4B, 0x30, 0x31]
def fpLabel : List Byte := [0x5A, 0x51, 0x58, 0x4B, 0x46, 0x50, 0x30, 0x31]

/-- A list cut or padded with zeros to n bytes. -/
def padTo (n : Nat) (b : List Byte) : List Byte := b.take n ++ List.replicate (n - b.length) 0

/-- Bytes 0 to 351 of an attestation answer for partition p (R472). -/
def State.attestHead (s : State) (p : Nat) (nonce : List Byte) : List Byte :=
  let x := s.part p
  let kek := Tbl.find s.sec.keks p
  wordBytes (word (0x5A514154 * 2 ^ 32 + 2 ^ 16)) ++ wordBytes (word (4979 * 2 ^ 32)) ++ wordBytes (word Config.serial)
    ++ wordBytes (word (x.gen % 65536 * 2 ^ 48 + p % 64 * 2 ^ 40 + b2n kek.isSome * 2 ^ 39 + b2n x.fabricEnc * 2 ^ 38 + b2n (s.txSlot p).isSome * 2 ^ 37))
    ++ wordBytes (word s.rtc) ++ wordBytes 0
    ++ (match kek with
        | some k => padTo 16 (Config.sha3_512 (fpLabel ++ k))
        | none => List.replicate 16 0)
    ++ padTo 64 nonce ++ padTo 224 s.identity

/-- The nonce has come: the answer is signed and written. On a partition admin queue the partition is the queue's own. -/
def State.attest (s : State) (r : Nat) (x : Rec) (nonce : List Byte) : State :=
  let head := s.attestHead (if x.queue < devQueue then x.part else x.desc.part) nonce
  let sig := padTo 4627 (Config.mlDsaSign s.free (Config.sha3_512 head))
  ({ s with free := s.free + 1 }.count F.SEC_COUNT_COUNT 6).admResult r x (padTo 4992 (head ++ sig))

/-- ATTEST (R472). -/
def execAttest (t r : Nat) (s : State) : Host.Outcome State Fault Refusal :=
  .next ((s.at t).admRun r Op.ATTEST (fun s x => s.admFetch r x (fun s x b => s.attest r x b)))

/-! ### Keys (R467 to R469) -/

/-- A command remembers the generation of its partition at its start (R473). -/
def State.markGen (s : State) (r : Nat) (x : Rec) : State := s.modRec r (fun y => { y with aux := [(s.part x.desc.part).gen] })

/-- Whether the partition was reset since: the key is discarded with the generation. -/
def State.genGone (s : State) (r : Nat) (x : Rec) : Bool :=
  match s.getRec r with
  | some y => y.aux != [(s.part x.desc.part).gen]
  | none => true

/-- The ciphertext has come: the KEK (R467). -/
def State.kekEstablish (s : State) (r : Nat) (x : Rec) (ct : List Byte) : State :=
  let p := x.desc.part
  if s.genGone r x then s.admEnd r Stat.BAD_STATE
  else
    let k := (Config.sha3_512 (kekLabel ++ leBytes 1 p ++ leBytes 2 (s.part p).gen ++ leBytes 8 Config.serial ++ Config.mlKemDecaps ct)).take 32
    { s with sec := { s.sec with keks := Tbl.put s.sec.keks p k } }.admEnd r Stat.SUCCESS

/-- KEK_ESTABLISH (R467). -/
def execKekEstablish (t r : Nat) (s : State) : Host.Outcome State Fault Refusal :=
  .next ((s.at t).admRun r Op.KEK_ESTABLISH (fun s x => (s.markGen r x).admFetch r x (fun s x b => s.kekEstablish r x b)))

/-- KEY_REJECTED, counted. -/
def State.keyRejected (s : State) (r : Nat) : State := (s.count F.SEC_COUNT_COUNT 5).admEnd r Stat.KEY_REJECTED

/-- A handle (R469). -/
def State.handleOf (s : State) (p slot : Nat) : Nat := 2 ^ 31 + p % 64 * 2 ^ 24 + (s.part p).gen % 256 * 2 ^ 16 + slot

/-- KEY_LOAD with ERASE (R469): the XTS key that HANDLE names, else the transport slot KEY_ID. (log entry 107) -/
def State.keyErase (s : State) (r : Nat) (x : Rec) : State :=
  let p := x.desc.part
  let h := bits x.desc.w5 0 32
  let k := bits x.desc.w4 0 4
  if h ≠ 0 then
    match s.xtsSlot p h with
    | some slot => { s with sec := { s.sec with xts := Tbl.del s.sec.xts (p * 64 + slot) } }.admEnd r Stat.SUCCESS
    | none => s.admEnd r Stat.NO_KEY
  else
    let tx := if s.txSlot p = some k then Tbl.del s.sec.tx p else s.sec.tx
    { s with sec := { s.sec with tkeys := Tbl.del s.sec.tkeys (p * 16 + k), tx := tx } }.admEnd r Stat.SUCCESS

/-- The blob has come (R468): unwrapped under the partition's KEK and loaded. -/
def State.keyLoad (s : State) (r : Nat) (x : Rec) (blob : List Byte) : State :=
  let p := x.desc.part
  if s.genGone r x then s.admEnd r Stat.BAD_STATE
  else match Tbl.find s.sec.keks p with
  | none => s.keyRejected r
  | some kek =>
    match Config.keyUnwrap kek blob with
    | none => s.keyRejected r
    | some b =>
      let key := b.drop 8
      if blob.length = 48 ∧ b.length = 40 ∧ wordAt b 0 = word (0x4B59 * 2 ^ 48 + 2 ^ 40) then
        let k := bits x.desc.w4 0 4
        let tx := if bit x.desc.w4 4 then Tbl.put s.sec.tx p k else s.sec.tx
        { s with sec := { s.sec with tkeys := Tbl.put s.sec.tkeys (p * 16 + k) key, tx := tx } }.admEnd r Stat.SUCCESS
      else if blob.length = 80 ∧ b.length = 72 ∧ wordAt b 0 = word (0x4B59 * 2 ^ 48 + 2 * 2 ^ 40) ∧ key.take 32 ≠ key.drop 32 then
        match firstIdx (fun i => !Tbl.has s.sec.xts (p * 64 + i)) 64 0 with
        | some i => { s with sec := { s.sec with xts := Tbl.put s.sec.xts (p * 64 + i) key } }.admEnd r Stat.SUCCESS (s.handleOf p i)
        | none => s.admEnd r Stat.NO_RESOURCE
      else s.keyRejected r

/-- KEY_LOAD (R468, R469). -/
def execKeyLoad (t r : Nat) (s : State) : Host.Outcome State Fault Refusal :=
  .next ((s.at t).admRun r Op.KEY_LOAD (fun s x =>
    if bit x.desc.w4 5 then s.keyErase r x
    else (s.markGen r x).admFetch r x (fun s x b => s.keyLoad r x b)))

end Sys2Proof.Machine
end

