-- ==== Sys2Proof/Machine/Accept.lean ====
section
/-!
DEFINITION. Fetch and acceptance (R45 to R48, R151 to R157, R170 to R175, R201, R233 to R236, R466, R516, spec/05_queues_and_descriptors.md):
a slot that comes back, the form of data descriptors and admin commands, their translation, and what completes at acceptance.
-/
namespace Sys2Proof.Machine

/-- A record of a descriptor accepted now, with nothing filled in. -/
def Rec.new (queue : Nat) (rq : Bool) (idx part gen : Nat) (d : Desc) (now since : Nat) : Rec :=
  { queue := queue, rq := rq, idx := idx, part := part, gen := gen, desc := d, phase := .accepted, src := [], dst := [], xtra := [], ranges := []
    msgs := [], started := false, left := 0, localLeft := 0, localBad := false, placed := 0, bytes := 0, status := 0, reason := 0, data := 0, node := 0, srcQpn := 0
    cover := [], failed := 0, links := [], aux := [], buf := [], source := 0, at0 := now, at1 := since, at2 := 0, retx := 0, sampled := false }

/-! ### Data descriptors -/

/-- Whether an opcode belongs on this ring of this kind of queue pair (R152, R372). -/
def ringTakes (op : Nat) (eth rq : Bool) : Bool :=
  (rq == (op == Op.RECV || op == Op.ETH_RECV))
    && (if eth then op == Op.NOP || op == Op.ETH_SEND || op == Op.ETH_SEGMENT || op == Op.ETH_RECV
        else op == Op.NOP || op == Op.WRITE || op == Op.READ || op == Op.SEND || op == Op.RECV || op == Op.ATOMIC || op == Op.PLACEMENT_FENCE
          || op == Op.COLLECTIVE)

/-- A data descriptor is well formed for the ring that holds it (R170). -/
def descOk (d : Desc) (eth rq : Bool) : Bool :=
  ringTakes d.op eth rq
    && (if d.op = Op.ETH_SEND ∨ d.op = Op.ETH_SEGMENT ∨ d.op = Op.ETH_RECV then ethWellFormed d else dataWellFormed d)

/-- The ranges a data descriptor names, in the order of its words (R46, R152, R153, R372): those read or targeted, then those written. -/
def dataRanges (d : Desc) : List Range × List Range :=
  let rows := if d.strided then d.rows else 1
  let a (w stride : Word) (n : Need) : Range := ⟨w.toNat, d.len, rows, stride.toNat, n⟩
  let far : Need := ⟨false, true, false, false⟩
  if d.op = Op.WRITE then ([a d.w2 d.w5 needR], [a d.w3 d.w6 far])
  else if d.op = Op.READ then ([a d.w2 d.w5 { needR with localOnly := false }], [a d.w3 d.w6 needW])
  else if d.op = Op.SEND then ([a d.w2 d.w5 needR], [])
  else if d.op = Op.RECV ∨ d.op = Op.ETH_RECV then ([], [⟨d.w2.toNat, d.len, 1, 0, needW⟩])
  else if d.op = Op.ATOMIC then ([], [⟨d.w2.toNat, aopSize d.aop, 1, 0, ⟨false, false, true, false⟩⟩])
  else if d.op = Op.ETH_SEND then ([⟨d.w2.toNat, d.len, 1, 0, needR⟩], [])
  else if d.op = Op.ETH_SEGMENT then ([⟨d.w2.toNat, hdrLen d, 1, 0, needR⟩, ⟨d.w3.toNat, d.len, 1, 0, needR⟩], [])
  else ([], [])

/-- The partition addresses and lengths of ranges, tile by tile (R56). -/
def rangeList (rs : List Range) : List (Nat × Nat) := rs.flatMap (fun r => (tiles r.base r.stride r.rows).map (fun a => (a, r.len)))

/-- Whether a node can be sent to: this node itself, or a node of the map that is not dead and has a route (R201). (log entry 29) -/
def State.canReach (s : State) (n : Nat) : Bool :=
  s.node == some n || (s.node.isSome && s.reachable n && (if s.overEth n then !s.ktPorts.isEmpty else s.hasRoute n))

/-- The first bytes a record's messages would send (R236). -/
def State.chargeOf (s : State) (r : Nat) (x : Rec) : Nat :=
  if x.desc.op = Op.ATOMIC then 64
  else
    let t := (s.putRec r x).makeMsgs r x
    ((((t.getRec r).map (·.msgs)).getD []).map (fun id => ((t.msg id).map (·.unsent)).getD 0)).foldl (· + ·) 0

/-- Whether a Beacon queue pair cannot carry a descriptor out (R236). -/
def State.beaconRefuses (s : State) (r : Nat) (x : Rec) : Bool :=
  let q := s.qp x.queue
  q.beacon && (x.desc.op == Op.READ || x.desc.op == Op.COLLECTIVE || x.remoteNodes.any s.overEth || decide (q.burst < s.chargeOf r x))

/-- A refusal at acceptance: STATUS, REASON, DATA and, where the refusal concerns another node than the record's, NODE. -/
abbrev Refused := Nat × Nat × Nat × Nat

/-- What refuses a translated data descriptor (R134, R201, R236, R466). (log entries 23, 108) -/
def State.refusedBy (s : State) (r : Nat) (x : Rec) : Option Refused :=
  let p := s.part x.part
  let op := x.desc.op
  let dead := x.remoteNodes.filter (fun n => !s.canReach n)
  if p.fabricEnc && (s.txSlot x.part).isNone then some (Stat.PERMISSION_DENIED, 0, 0, 0)
  else if (linksOf ((x.src ++ x.dst).filter (fun e => e.node.isNone))).any (fun l => (s.link l).lost) then some (Stat.HOST_LOST, 0, 0, 0)
  else if (op == Op.ETH_SEND || op == Op.ETH_SEGMENT) && !(s.ethPort (((s.qp x.queue).ethPort).getD 0)).up then some (Stat.DEST_UNREACHABLE, 0, 0, 0)
  else match dead with
    | n :: _ => some (Stat.DEST_UNREACHABLE, 0, 0, n)
    | [] => if s.beaconRefuses r x then some (Stat.NO_RESERVATION, 0, 0, 0) else none

/-- A SEND always names a node: before this adapter has a node ID it fails at SRC with NO_NODE, unless a fault that comes first there does
(R37, R47). -/
def State.xlateSend (s : State) (d : Desc) (x : Xlated) : Xlated :=
  if d.op = Op.SEND ∧ s.node.isNone then
    match worse (match x with
      | .fault a why => some (a, why)
      | .ok _ => none) (some (d.w2.toNat, Why5.NO_NODE)) with
    | some (a, why) => .fault a why
    | none => x
  else x

/-- Translate a data descriptor: its record with its extents, or the fault (R45 to R48). COLLECTIVE is translated when it starts. -/
def State.translated (s : State) (x : Rec) : Except Refused Rec :=
  let d := x.desc
  let rs := dataRanges d
  if d.op = Op.ATOMIC ∧ d.w2.toNat % aopSize d.aop ≠ 0 then .error (Stat.MISALIGNED, 0, 0, 0)
  else match s.xlateSend d (s.xlate x.part (rs.1 ++ rs.2)) with
    | .fault a why => .error (Stat.TRANSLATION_FAULT, why, a, 0)
    | .ok es =>
      let y := { x with
        src := (es.take rs.1.length).flatMap id, dst := (es.drop rs.1.length).flatMap id, ranges := rangeList (rs.1 ++ rs.2) }
      .ok { y with node := (y.remoteNodes.head?).getD 0 }

/-- The sampling filter (R516): every INTERVAL-th descriptor that matches is sampled. -/
def State.sampleMatch (s : State) (x : Rec) : Bool × State :=
  let hit := s.flag F.CNT_SAMPLE_CFG_ENABLE
    && (s.flag F.CNT_SAMPLE_CFG_ANY_PART || s.fld F.CNT_SAMPLE_CFG_PART == x.part)
    && (s.fld F.CNT_SAMPLE_CFG_OPCODE == 0 || s.fld F.CNT_SAMPLE_CFG_OPCODE == x.desc.op)
    && (s.flag F.CNT_SAMPLE_CFG_ANY_QP || s.fld F.CNT_SAMPLE_CFG_QPN == x.queue)
  if !hit then (false, s)
  else
    let n := s.cnt.matched + 1
    if max 1 (s.fld F.CNT_SAMPLE_CFG_INTERVAL) ≤ n then (true, { s with cnt := { s.cnt with matched := 0 } })
    else (false, { s with cnt := { s.cnt with matched := n } })

/-- End a descriptor at acceptance with its one entry (R159, R160); a malformed one on a queue pair (R171), and one that a Beacon queue pair
cannot carry out (R236), take TYPE DONE whatever they are. (log entry 27) -/
def State.refuseRec (s : State) (r : Nat) (x : Rec) (f : Refused) : State :=
  let s := if f.1 = Stat.TRANSLATION_FAULT then s.countFault x.part else s
  let type := if isAdm x.queue then Ty.ADMIN
    else if x.desc.op = Op.COLLECTIVE ∧ f.1 ≠ Stat.MALFORMED ∧ f.1 ≠ Stat.NO_RESERVATION then Ty.COLLECTIVE else Ty.DONE
  (s.putRec r { x with node := if f.2.2.2 = 0 then x.node else f.2.2.2 }).finish r type f.1 0 (word f.2.2.1) f.2.1

/-- Local extents reach their domains; a descriptor waits in its record for those that sleep (R482). -/
def State.settleDoms (s : State) (r : Nat) (es : List Extent) (more : List Nat) : State :=
  let ds := (es.filter (fun e => e.node.isNone)).flatMap (fun e => s.needsOf e.addr e.len) ++ more
  if s.ready ds then (ds.filter (fun d => decide (d < 1000))).eraseDups.foldl State.touchDom s else s.hold ds (.record r)

/-- QMG_MALFORMED_LOG (R171, R172). -/
def State.logMalformed (s : State) (device : Bool) (part queue : Nat) (d : Desc) : State :=
  s.setReg .QMG_MALFORMED_LOG 0 0 (word (2 ^ 63 + b2n device * 2 ^ 62 + part % 64 * 2 ^ 56 + queue % 65536 * 2 ^ 40 + d.op * 2 ^ 32 + d.seq))

/-- A malformed descriptor halts its partition (R171). -/
def State.haltPart (s : State) (p : Nat) : State :=
  let qs := (s.qm.qps.filter (fun e => e.2.part == p && e.2.state != .free && e.2.state != .destroying)).map (·.1)
  let s := qs.foldl (fun s q => ((s.dropHeld q).modQp q (fun x => { x with state := .halted })).unbind q) s
  let a := s.admq p
  let s := if a.state = .active ∨ a.state = .hostLost then s.setAdmq p { a with state := .halted } else s
  s.modPart p (fun x => { x with halted := true })

/-- Whether a fence names a node a descriptor concerns (R162). -/
def fenceHits (d : Desc) (y : Rec) (own : Option Nat) : Bool := d.fenceAll || (y.nodes own).contains d.fenceNode

/-- What a fence accepted now covers (R162): every WRITE, SEND and ATOMIC of its send ring accepted before it that names its node. Those not
finished are waited for; those finished count with their outcome and links. -/
def State.fenceCover (s : State) (x : Rec) : Rec :=
  let q := s.qp x.queue
  { x with
    cover := ((s.recsOf x.queue).filter (fun p => !p.2.rq && p.2.fenceable && fenceHits x.desc p.2 s.node)).map (·.1)
    failed := if x.desc.fenceAll then q.failAll else Tbl.get 0 q.failBy x.desc.fenceNode
    links := Tbl.get [] q.linkBy (if x.desc.fenceAll then 16384 else x.desc.fenceNode) }

/-- Accept one data descriptor of a queue pair (R155): its record, or its one entry. -/
def State.acceptData (s : State) (q : Nat) (rq : Bool) (d : DRing) (desc : Desc) : State :=
  let x := s.qp q
  let y := s.fresh
  let r := y.1
  let s := y.2
  let z := { Rec.new q rq d.fetch x.part (s.part x.part).gen desc s.now d.since with node := if desc.op = Op.SEND then desc.sendNode else 0 }
  if x.state = .error then (s.putRec r z).endWith r Stat.FLUSHED
  else if !descOk desc x.ethPort.isSome rq then
    ((s.refuseRec r z (Stat.MALFORMED, 0, 0, 0)).logMalformed false x.part q desc).haltPart x.part
  else
    let m := s.sampleMatch z
    let s := m.2.event 0x01 x.part 1
    let z := { z with sampled := m.1 }
    let s := s.walked z.part ((dataRanges desc).1 ++ (dataRanges desc).2)
    match s.translated z with
    | .error f => s.refuseRec r z f
    | .ok z =>
      match s.refusedBy r z with
      | some f => s.refuseRec r z f
      | none =>
        let s := if x.beacon then s.addDebt q (s.chargeOf r z) else s
        let s := s.putRec r (if desc.op = Op.PLACEMENT_FENCE then s.fenceCover z else z)
        if desc.op = Op.RECV ∨ desc.op = Op.ETH_RECV then s else s.settleDoms r (z.src ++ z.dst) []

/-! ### Admin commands (R173 to R175, R367, R430, R474, R504, R519) -/

/-- The whole of a word. -/
def allBits : List (Nat × Nat) := [(0, 64)]

/-- The operand fields of words 2 to 7 of each command; none for a code that is no command. -/
def admFields (op : Nat) : Option (List (List (Nat × Nat))) :=
  match op with
  | 0x80 => some [allBits, allBits, [(60, 4), (58, 2), (55, 3), (54, 1), (48, 6), (43, 5), (38, 5), (36, 2), (32, 4), (0, 13)], allBits, allBits, []]
  | 0x81 => some [[(0, 16)], [], [], [], [], []]
  | 0x82 => some [[(0, 16)], allBits, allBits, [], [], []]
  | 0x83 => some [[(0, 16)], [], [], [], [], []]
  | 0x84 => some [allBits, [(59, 5), (48, 11), (47, 1), (45, 2)], [], [], [], []]
  | 0x85 => some [[(0, 16)], [], [], [], [], []]
  | 0x86 => some [[(0, 16)], allBits, [], [], [], []]
  | 0x87 => some [[(0, 16)], [], [], [], [], []]
  | 0x90 => some [[(0, 20)], [(0, 9)], [], [], [], []]
  | 0x91 => some [[(0, 20)], [(0, 9)], [], [], [], []]
  | 0x92 => some [[(0, 20)], [(0, 9)], allBits, allBits, [], []]
  | 0x93 => some [allBits, allBits, [(0, 4)], allBits, [], allBits]
  | 0x94 => some [[(0, 32)], [], [], [], [], []]
  | 0x95 => some [[(0, 19)], [], [], [], [], allBits]
  | 0x96 => some [[(0, 1)], [], [], [], [], []]
  | 0x98 => some [[(0, 22)], [(0, 20)], [(0, 2)], [(0, 32)], [], []]
  | 0x99 => some [allBits, [(0, 22)], [], [], [], []]
  | 0x9A => some [allBits, [(0, 5)], [], [], [], allBits]
  | 0x9B => some [allBits, [(0, 22)], [(0, 17)], [], [], []]
  | 0xA0 => some [allBits, [], [], [], [], []]
  | 0xA1 => some [[], [], [], [], [], []]
  | 0xA2 => some [[], [], [], [], [], []]
  | 0xA3 => some [allBits, [], [], [], [], []]
  | 0xA4 => some [[], [], [], [], [], allBits]
  | 0xA5 => some [[(60, 4), (48, 12), (0, 14)], [(0, 9)], [], [], [], []]
  | 0xA6 => some [[(25, 39), (0, 16)], [], [], [], [], []]
  | 0xA7 => some [[(32, 32), (0, 16)], [(32, 32), (16, 16), (0, 14)], [(0, 50)], [(0, 50)], [(0, 1)], []]
  | 0xA8 => some [[(0, 22)], [(0, 20)], [(0, 16)], [], [], []]
  | 0xA9 => some [[(0, 12)], [], [], [], [], []]
  | 0xAA => some [allBits, [(0, 26)], [(0, 12)], [], [], []]
  | 0xAB => some [[(0, 14)], [], [], [], [], []]
  | 0xAC => some [[(0, 12)], [], [], [], [], []]
  | 0xAD => some [[(0, 12)], [], [], [], [], allBits]
  | 0xAE => some [[(0, 14)], [], [], [], [], allBits]
  | 0xB0 => some [allBits, [(0, 23)], [(0, 27)], [(0, 27)], [], []]
  | 0xB1 => some [[], [], [], [], [], []]
  | 0xB2 => some [[], [], [], [], [], []]
  | 0xB3 => some [allBits, [(0, 24)], [], [], [], []]
  | 0xB4 => some [[(0, 20)], [(0, 9)], [], [], [], allBits]
  | 0xB5 => some [[(0, 4)], [(0, 15)], [], [], [], allBits]
  | 0xB6 => some [allBits, [], [], [], [], allBits]
  | 0xB7 => some [allBits, [], [], [], [], []]
  | 0xB8 => some [allBits, [(0, 8)], [(0, 6)], [(0, 32)], [], []]
  | 0xB9 => some [[], [], [], [], [], []]
  | 0xBA => some [allBits, [(59, 5), (48, 11)], [], [], [], []]
  | 0xBB => some [[], [], [], [], [], []]
  | 0xBC => some [[(0, 8)], [(0, 20)], [], [], [], []]
  | 0xBD => some [[], [], [], [], [], []]
  | 0xBE => some [[(0, 32)], [(0, 13)], [], [], [], allBits]
  | _ => none

/-- Commands a partition admin queue accepts. -/
def admPart (op : Nat) : Bool :=
  (decide (0x80 ≤ op) && decide (op ≤ 0x87)) || op == 0x93 || op == 0x94 || op == 0x95 || (decide (0xA8 ≤ op) && decide (op ≤ 0xAE))
    || (decide (0xB5 ≤ op) && decide (op ≤ 0xB8)) || op == 0xBA || op == 0xBB

/-- Commands with a RESULT: how many bytes they may write. -/
def admResultLen (d : Desc) : Option Nat :=
  match d.op with
  | 0x93 => some 32
  | 0x95 => some 40
  | 0x9A => some (72 * bits d.w3 0 5)
  | 0xAD => some 32
  | 0xAE => some 32
  | 0xB4 => some (32 * bits d.w3 0 9)
  | 0xB5 => some (bits d.w3 0 15)
  | 0xB6 => some 4992
  | 0xBE => some (128 * bits d.w3 0 13)
  | _ => none

/-- Commands with a buffer they read, at word 2: its length. -/
def admSourceLen (d : Desc) : Option Nat :=
  match d.op with
  | 0xAA => some (bits d.w3 0 26)
  | 0xB0 => some (bits d.w3 0 23)
  | 0xB3 => some (bits d.w3 0 24)
  | 0xB6 => some 64
  | 0xB7 => some 1568
  | 0xB8 => if bit d.w4 5 then none else some (bits d.w3 0 8)
  | _ => none

/-- Commands that read or write memory named by a host address. -/
def admHost (op : Nat) : Bool := op == 0xA0 || op == 0xA3 || op == 0xA4 || op == 0x90 || op == 0x91 || op == 0x92

/-- A number within 6 to 20 (R140). -/
def log2Ok (n : Nat) : Bool := decide (6 ≤ n) && decide (n ≤ 20)

/-- The DIE operand of QP_CREATE and RING_CREATE (R175). -/
def State.dieOk (s : State) (n : Nat) : Bool := n != 1 && !(s.half && n == 3)

/-- A STACK_MASK names no stack the variant does not fit. -/
def State.maskOk (s : State) (m : Nat) : Bool := !s.half || decide (m < 1024)

/-- The operands of a command lie within the ranges it allows (R141, R170, R175, R453). BIAS_SET names its pages by an address that is a
multiple of 4 KiB. (log entry 140) -/
def State.admRanges (s : State) (d : Desc) : Bool :=
  let al (w : Word) (n : Nat) : Bool := w.toNat % n == 0
  let count (lo : Nat) (m : Nat) : Bool := decide (1 ≤ lo) && decide (lo ≤ m)
  (match admResultLen d with
   | some _ => al d.w7 64
   | none => true) &&
  (match d.op with
  | 0x80 =>
    let kind := bits d.w4 58 2
    al d.w2 4096 && al d.w3 4096 && decide (kind ≤ 1) && log2Ok (bits d.w4 43 5) && (bits d.w4 38 5 == 0 || log2Ok (bits d.w4 38 5))
      && s.dieOk (bits d.w4 36 2) && count (bits d.w4 0 13) 4096 && (kind == 1 || bits d.w4 32 4 == 0) && decide (bits d.w4 55 3 < s.nEth)
  | 0x82 => al d.w3 4096 && al d.w4 4096
  | 0x84 => al d.w2 4096 && log2Ok (bits d.w3 59 5) && s.dieOk (bits d.w3 45 2)
  | 0x86 => al d.w3 4096
  | 0x90 => count (bits d.w3 0 9) 256
  | 0x91 => count (bits d.w3 0 9) 256
  | 0x92 => count (bits d.w3 0 9) 256 && al d.w5 4096 && d.w5 != 0
  | 0x93 => al d.w2 4096 && al d.w3 4096 && d.w3 != 0
  | 0x95 => s.rgnExists (bits d.w2 0 19)
  | 0x96 => !s.half || d.w2 == 0
  | 0x98 => bits d.w2 0 22 != 0 && s.maskOk (bits d.w3 0 20)
  | 0x99 => al d.w2 blkBytes && bits d.w3 0 22 != 0
  | 0x9A => al d.w2 blkBytes && count (bits d.w3 0 5) 16 && decide (d.w2.toNat + bits d.w3 0 5 * blkBytes ≤ 2 ^ 42)
  | 0x9B => al d.w2 4096 && bits d.w3 0 22 != 0 && (!s.half || decide (bits d.w4 0 16 < 256))
  | 0xA0 => al d.w2 64
  | 0xA3 => al d.w2 64
  | 0xA5 => decide (bits d.w2 60 4 ≤ 2) && count (bits d.w3 0 9) 256
  | 0xA8 => s.maskOk (bits d.w3 0 20)
  | 0xB0 =>
    let n := bits d.w3 0 23
    let off := bits d.w4 0 27
    let total := bits d.w5 0 27
    count n 4194304 && decide (off + n ≤ total) && (off + n == total || (n % 4096 == 0 && off % 4096 == 0))
  | 0xB4 => count (bits d.w3 0 9) 256
  | 0xB5 => decide (bits d.w2 0 4 ≤ 2)
  | 0xBA => al d.w2 4096 && log2Ok (bits d.w3 59 5)
  | 0xBC => count (bits d.w2 0 8) 64 && s.maskOk (bits d.w3 0 20)
  | 0xBE => count (bits d.w3 0 13) 4096
  | _ => true)

/-- An admin descriptor is well formed (R170, R174). -/
def State.admOk (s : State) (d : Desc) : Bool :=
  match admFields d.op with
  | none => false
  | some fs =>
    onlyFields d.w0 [(32, 32), (24, 8), (0, 6)]
      && (([d.w2, d.w3, d.w4, d.w5, d.w6, d.w7].zip fs).all (fun x => onlyFields x.1 x.2)) && s.admRanges d

/-- The commands that lamp out accepts (R447). -/
def lampTakes (op : Nat) : Bool :=
  op == Op.IMAGE_STAGE || op == Op.IMAGE_COMMIT || op == Op.IMAGE_DISCARD || op == Op.LEDGER_READ || op == Op.DAYMARK_READ || op == Op.ATTEST

/-- The buffers of a command: what it reads, then its RESULT (R174). -/
def admRanges2 (d : Desc) : List Range × List Range :=
  ((admSourceLen d).toList.map (fun n => ⟨d.w2.toNat, n, 1, 0, needR⟩), (admResultLen d).toList.map (fun n => ⟨d.w7.toNat, n, 1, 0, needW⟩))

/-- Accept an admin command on behalf of a record; `halts` whether a malformed one halts what posted it. -/
def State.acceptAdm (s : State) (r : Nat) (x : Rec) (halts : Bool) : State :=
  let d := x.desc
  let dev := decide (devQueue ≤ x.queue)
  if !dev && (admFields d.op).isSome && (!admPart d.op || d.part != x.part) then s.refuseRec r x (Stat.PERMISSION_DENIED, 0, 0, 0)
  else if !s.admOk d then
    let s := s.refuseRec r x (Stat.MALFORMED, 0, 0, 0)
    if !halts then s
    else
      let s := s.logMalformed dev x.part 0 d
      if dev then { s with qm := { s.qm with devHalt := true } } else s.haltPart x.part
  else if s.start.lampOut && !lampTakes d.op then s.refuseRec r x (Stat.LAMP_OUT, 0, 0, 0)
  else
    let rs := admRanges2 d
    let s := s.walked x.part (rs.1 ++ rs.2)
    match s.xlate x.part (rs.1 ++ rs.2) with
    | .fault a why => s.refuseRec r x (Stat.TRANSLATION_FAULT, why, a, 0)
    | .ok es =>
      let x := { x with
        src := (es.take rs.1.length).flatMap id, xtra := (es.drop rs.1.length).flatMap id, ranges := rangeList (rs.1 ++ rs.2) }
      if (linksOf (x.src ++ x.xtra)).any (fun l => (s.link l).lost) || (admHost d.op && d.op != 0x90 && d.op != 0x91 && d.op != 0x92 && (s.link 0).lost) then
        s.refuseRec r x (Stat.HOST_LOST, 0, 0, 0)
      else (s.putRec r x).settleDoms r (x.src ++ x.xtra) (if admHost d.op then [portDom 0] else [])

/-! ### A slot comes back (R131, R155 to R157) -/

/-- A fetched slot (R156, R157): accepted when it is current, else fetched again, or SEQ_WAIT after the eighth time. -/
def State.fetched (s : State) (q : Nat) (rq : Bool) (b : List Byte) : State :=
  match s.dring q rq with
  | none => s
  | some d =>
    if !s.takes q then s.setDring q rq { d with busy := false }
    else
      let desc := Desc.ofBytes b
      if desc.seq ≠ d.fetch % 2 ^ 32 then
        if 8 ≤ d.stale then s.setDring q rq { d with busy := false, seqWait := true, stale := 0, retAt := s.now }
        else s.setDring q rq { d with stale := d.stale + 1, retAt := s.now }
      else
        let s := s.setDring q rq { d with fetch := (d.fetch + 1) % 2 ^ 32, busy := false, stale := 0, seqWait := false }
        let s := if isAdm q then
            let y := s.fresh
            let p := s.queuePart q
            y.2.acceptAdm y.1 (Rec.new q false d.fetch p (s.part p).gen desc s.now d.since) true
          else s.acceptData q rq d desc
        s.tryFetch q rq

/-- A descriptor fetch that failed (R131, R133): it counts toward the loss of its link, and is repeated after 100 µs. The third in a row is a
stall. -/
def State.fetchFailed (s : State) (l q : Nat) (rq : Bool) : State :=
  let s := match s.dring q rq with
    | some d => s.setDring q rq { d with busy := false, retry := true, retAt := s.now }
    | none => s
  let s := s.modLink l (fun x => { x with fails := x.fails + 1 })
  if 3 ≤ (s.link l).fails then s.stallLoss l else s

/-- Take an outstanding read off the list. -/
def State.takeRead (s : State) (tag : Nat) : State := { s with io := { s.io with reads := Tbl.del s.io.reads tag } }

/-- The payload of a read counts for its link (R515), and a fetch that came ends a row of failures. -/
def State.readIn? (s : State) (l : Nat) (b : List Byte) : State := s.bwRx (bwLink l) b.length

/-- DESCRIPTOR_FETCH_RETURN (R155 to R157): the slot that read `tag` asked for. -/
def execDescriptorFetchReturn (t tag : Nat) (b : List Byte) (s : State) : Host.Outcome State Fault Refusal :=
  let s := s.at t
  match Tbl.find s.io.reads tag with
  | some x =>
    match x.why with
    | .fetch q rq =>
      let s := ((s.takeRead tag).readIn? x.loc.link b).modLink x.loc.link (fun l => { l with fails := 0 })
      .next (s.fetched q rq b)
    | .piece _ _ => .next s
  | none => .next s

/-! ### Management requests (R33, R413) -/

/-- The queue numbers of commands that came in an ORDER, and over I3C: the device admin queue's rules, no ring (log entry 4). -/
def orderQueue : Nat := 65601
def i3cQueue : Nat := 65602

/-- Accept an admin command of a management source: 1 an ORDER of a node, 2 the I3C. (log entry 28) -/
def State.acceptFrom (s : State) (source node : Nat) (d : Desc) : State :=
  let y := s.fresh
  let x := Rec.new (if source = 1 then orderQueue else i3cQueue) false y.1 0 (s.part 0).gen d s.now s.now
  y.2.acceptAdm y.1 { x with source := source, srcQpn := node } false

/-- ORDER (R413, R414): an admin descriptor of the followed member. -/
def execOrder (t k : Nat) (s : State) : Host.Outcome State Fault Refusal :=
  let s := s.at t
  match s.takeMsg k 0x0C with
  | none => .next s
  | some (m, s) => .next (if s.fromActive m ∧ 64 ≤ m.body.length then s.acceptFrom 1 m.src (Desc.ofBytes m.body) else s.dropKeeper)

/-- I3C_REQUEST (R33): an admin command, or a register read or written at a BAR0 offset. (log entry 100) -/
def execI3cRequest (t : Nat) (q : I3cReq) (s : State) : Host.Outcome State Fault Refusal :=
  let s := s.at t
  match q with
  | .admin d => .next (s.acceptFrom 2 0 d)
  | .write a width w => .next (s.writeFrom 2 a width w)
  | .read a width => .next (s.emit (.i3c ((wordBytes (s.readAt a width)).take (width / 8))))

end Sys2Proof.Machine
end

