-- ==== Sys2Proof/Machine/LinkReads.lean ====
section
/-!
DEFINITION. What comes back on the links: read completions and their failures, and writes that have been accepted (R26, R122, R125, R128,
R131, R133, R205, R208, R212, R244, spec/04_host_and_accelerator_ports.md).
-/
namespace Sys2Proof.Machine

/-! ### Reads (R131) -/

/-- An admin command's input has come: it goes on, or ends with what befell the read. -/
def State.gotAdmin (s : State) (r : Nat) (g : Got) : State :=
  match s.getRec r with
  | none => s
  | some x => match g with
    | .bad st d => s.admEnd r st d
    | .bytes b =>
      let op := x.desc.op
      if op = Op.TABLE_SYNC then s.tableStaged r x b
      else if op = Op.INVALIDATE_DRAIN then s.drainStaged r x b
      else if op = Op.PLAN_LOAD then s.planImage r x b
      else if op = Op.PART_CREATE ∨ op = Op.PART_QUOTA then s.gotQuota r x g
      else if op = Op.IMAGE_STAGE then s.imagePiece r x b
      else if op = Op.IMAGE_DISTRIBUTE then s.distribute r b
      else if op = Op.ATTEST then s.attest r x b
      else if op = Op.KEK_ESTABLISH then s.kekEstablish r x b
      else s.keyLoad r x b

/-- A local atomic behind a link: its old value has come, or its read failed and it is not executed (R128, R131). -/
def State.gotAtomicLocal (s : State) (r : Nat) (g : Got) : State :=
  match s.getRec r with
  | none => s
  | some x => match g with
    | .bad st d => (s.putRec r { x.fail st (word d) with localLeft := 0 }).settle r
    | .bytes b =>
      let old := leNat (b.take (aopSize x.desc.aop))
      let a := ((x.dst.head?).map (·.addr)).getD 0
      (s.linkAtomicEnd x.part a x.desc.aop x.desc.w3 x.desc.w4 old).atomicDone r x old

/-- The zero-length reads before a completion entry have come back; one that failed leaves the placements it covers unproven (R122). (log entry 58) -/
def State.gotEntry (s : State) (b ring : Nat) (e : Entry) (g : Got) : State :=
  (match g with
  | .bytes _ => s.entryReady b ring e
  | .bad _ _ => s.entryReady b ring (if e.status = Stat.SUCCESS then { e with status := Stat.PORT_ERROR } else e)).reap

/-- What gathering operation b gathered is used. -/
def State.resume (s : State) (b : Nat) (w : Why) (g : Got) : State :=
  match w with
  | .copy r off => s.gotCopy r off g
  | .message id => s.gotMessage id g
  | .resend id psn => s.gotResend id psn g
  | .readRsp p psn => s.gotReadRsp p psn g
  | .atomicLocal r => s.gotAtomicLocal r g
  | .atomicRemote p => s.gotAtomicRemote p g
  | .admin r => s.gotAdmin r g
  | .entry ring e => s.gotEntry b ring e g
  | .ethFrame r => s.gotEthFrame r g
  | .ethAgain r i => s.gotEthAgain r i g
  | .colSend k uid i off _ => s.gotColSend k uid i off g
  | .colFold k uid i => s.gotColFold k uid i g
  | .colCounts c => s.gotColCounts c g

/-- Whether a piece of build b is still being read. -/
def State.piecesLeft (s : State) (b : Nat) : Bool :=
  s.io.reads.any (fun e => match e.2.why with
    | .piece c _ => c == b
    | .fetch _ _ => false)

/-- Piece k of build b has come, or failed with a status; the last one lets the operation go on. -/
def State.pieceIn (s : State) (b k : Nat) (res : Except Nat (List Byte)) : State :=
  match Tbl.find s.io.builds b with
  | none => s
  | some x =>
    let x := match res with
      | .ok bytes => { x with pieces := x.pieces.set k (some bytes) }
      | .error st => { x with bad := x.bad <|> some st }
    if s.piecesLeft b then s.putBuild b x
    else
      match x.bad, x.why with
      | none, w => (s.delBuild b).resume b w (.bytes (x.pieces.flatMap (fun p => p.getD [])))
      | some st, .message id => (s.delBuild b).gotPieces id x.pieces st
      | some st, w => (s.delBuild b).resume b w (.bad st 0)

/-- A read on a link fails: a descriptor fetch under R131 and R133, any other with the status it gives the reader. The zero-length reads
before a completion entry are the completion-ring reads that R133 counts. -/
def State.readFailed (s : State) (tag : Nat) (x : LinkRead) (st : Nat) : State :=
  match x.why with
  | .fetch q rq => (s.takeRead tag).fetchFailed x.loc.link q rq
  | .piece b k =>
    let flush : Bool := match (Tbl.find s.io.builds b).map (·.why) with
      | some (Why.entry _ _) => true
      | _ => false
    let s := (s.takeRead tag).pieceIn b k (.error st)
    if !flush then s
    else
      let l := x.loc.link
      let s := s.modLink l (fun y => { y with fails := y.fails + 1 })
      if 3 ≤ (s.link l).fails then s.stallLoss l else s

/-- LINK_READ_COMPLETION (R129, R131): the completion of read `tag`. A read of which flits were discarded and not replayed stays
outstanding. -/
def execLinkReadCompletion (t tag : Nat) (res : RdResult) (s : State) : Host.Outcome State Fault Refusal :=
  let s := s.at t
  match Tbl.find s.io.reads tag with
  | none => .next s
  | some x =>
    match res with
    | .poisoned => .next (s.readFailed tag x Stat.MEMORY_ERROR)
    | .unsupported => .next (s.readFailed tag x Stat.PORT_ERROR)
    | .data fs =>
      let b := (foldFlits (s.link x.loc.link).ecrc fs).bytes
      if b.length < x.len then .next s
      else
      let s := (s.takeRead tag).readIn? x.loc.link b
      match x.why with
      | .fetch q rq => .next ((s.modLink x.loc.link (fun l => { l with fails := 0 })).fetched q rq b)
      | .piece n k => .next (s.pieceIn n k (.ok b))

/-- READ_COMPLETION_TIMEOUT (R131): read `tag` has no completion within the link's completion timeout. (log entry 35) -/
def execReadCompletionTimeout (t tag : Nat) (s : State) : Host.Outcome State Fault Refusal :=
  let s := s.at t
  match Tbl.find s.io.reads tag with
  | none => .next s
  | some x => .next (if x.at0 + (s.link x.loc.link).timeout ≤ s.now then s.readFailed tag x Stat.PORT_ERROR else s)

/-! ### Writes (R26) -/

/-- The residence of a Beacon packet at its target ends with R26 (R240): above 600 ns it is counted (R244). -/
def State.targetResidence (s : State) (at0 : Option Nat) : State :=
  match at0 with
  | none => s
  | some a => if 600 < s.now - a then (s.setFld F.SCH_BEACON_LATE_VALID 1).count F.SCH_BEACON_LATE_COUNT else s

/-- What a placement finishes. -/
def State.placementMet (s : State) (p : Placement) : State :=
  match p.why with
  | .packet key psn ts ece => (s.targetResidence p.at0).metPacket key psn ts ece p.links
  | .copy r => match s.getRec r with
    | none => s
    | some x => (s.putRec r { x with localLeft := x.localLeft - 1, placed := x.placed + (p.parts.flatMap (·.2)).length }).settle r
  | .readRsp msg psn => s.metReadRsp msg psn p.links
  | .ethRecv r => match s.getRec r with
    | none => s
    | some x => s.finish r Ty.RECEIVED Stat.SUCCESS x.placed x.data
  | .colData k uid i u q => s.metColData k uid i u q
  | .colWrite k uid i us => s.metColWrite k uid i us (p.parts.flatMap (·.2)).length

/-- PLACEMENT_ACCEPTED (R26): placement `id` meets R26, its writes accepted by their links and committed in Grotto. -/
def execPlacementAccepted (t id : Nat) (s : State) : Host.Outcome State Fault Refusal :=
  let s := s.at t
  match Tbl.find s.io.places id with
  | none => .next s
  | some p =>
    let s := (s.placed id p).placementMet p
    .next (match p.region with
      | some i => s.uncountRegion i
      | none => s)

end Sys2Proof.Machine
end

