-- ==== Sys2Proof/Machine/Wake.lean ====
section
/-!
DEFINITION. A wake ends (R478, R482, R486, R487, R501, R503), the migration of a block ends (R103, R104), and the registers that have no
command of their own are written (R9 to R11).
-/
namespace Sys2Proof.Machine

/-! ### Work that waited (R482) -/

/-- The head of input list i that leaves the fabric here goes on. -/
def State.switchOn (s : State) (i : Nat) : State :=
  let ks := (List.range (s.inqOf i).length).filter (fun k => match (s.inqOf i)[k]? with
    | some x => !(s.ejectDoms x).isEmpty && !((s.inqOf i).take k).any (fun y => y.inVc == x.inVc)
    | none => false)
  match ks with
  | k :: _ => s.arrive i k
  | [] => s

/-- A request that its region accepted before it had to wait is placed, read or executed whatever has happened to the region since (R69); a
copy of it that came meanwhile may have been first. -/
def State.acceptedOn (s : State) (p : Packet) (plain : List Byte) (at0 idx : Nat) : State :=
  let owner := (s.region idx).owner
  if p.type = Pk.READ_REQ then s.serveRead p owner idx
  else
    match s.duplicate p with
    | some s' => s'
    | none => if p.type = Pk.WRITE_DATA then s.acceptWrite p owner idx plain at0 else s.runAtomic p owner idx

/-- A piece of work is taken up again. A descriptor or command goes on when its own command comes. -/
def State.goOn (s : State) (w : Work) : State :=
  match w with
  | .fetch q rq => match s.dring q rq with
    | some d => if d.busy then s.issueFetch q rq d else s
    | none => s
  | .packet p at0 => s.sendIn p at0
  | .accepted p plain at0 idx => (s.acceptedOn p plain at0 idx).uncountRegion idx
  | .response p plain => match s.answered p with
    | some m => s.placeRsp p m plain
    | none => s
  | .direct n a store => s.direct n a store
  | .switchIn i => s.switchOn i
  | .record _ => s
  | .invoke k => s.invoke k

/-- The work whose domains and blocks are all there leaves the list, oldest first, and goes on. -/
def State.release (s : State) : State :=
  let out := s.waiting.filter (fun e => s.ready e.1)
  let stay := s.waiting.filter (fun e => !s.ready e.1)
  let s := { s with waiting := stay }
  out.foldl (fun s e => ((e.1.filter (fun d => decide (d < 1000))).foldl (fun s d => if (s.dom d).state = .on then s.touchDom d else s) s).goOn e.2) s

/-! ### Domains (R487, R501) -/

/-- A stack that leaves OFF scrubs every block that is not LOST (R487). -/
def State.scrubStack (s : State) (k : Nat) : State :=
  ((s.pool.blks.filter (fun e => e.1 / 65536 == k && e.2.state != .lost)).map (·.1)).foldl State.scrubFree s

/-- What a domain does as it comes ON. (log entry 87) -/
def State.domUp (s : State) (d : Nat) (fromOff : Bool) : State :=
  if 24 ≤ d ∧ d < 44 then (if fromOff then s.scrubStack (d - 24) else s)
  else if 44 ≤ d ∧ d < 76 then (List.range' (4 * (d - 44)) 4).foldl State.tryDetect s
  else if 76 ≤ d then
    let s := (State.dieLinks (d - 76)).foldl (fun s l => s.modLink l (fun x => { x with l1 := false })) s
    if fromOff then s.dieDark (d - 76) else s
  else s

/-- DOMAIN_ON (R487): waking domain d reaches ON. -/
def execDomainOn (t d : Nat) (s : State) : Host.Outcome State Fault Refusal :=
  let s := s.at t
  let x := s.dom d
  .next (if x.state = .waking then
      ((s.setDom d { x with state := .on, idleAt := some s.now, fromOff := false }).domUp d x.fromOff).release
    else s)

/-- The longest wake of a domain in ns, from RETAIN and from OFF (R487). -/
def wakeMax (d : Nat) (fromOff : Bool) : Nat :=
  if d < 16 then (if fromOff then 120000 else 4000)
  else if d < 24 then (if fromOff then 200000 else 8000)
  else if d < 44 then (if fromOff then 5000000 else 5000)
  else if d < 76 then (if fromOff then 8000000 else 100000)
  else (if fromOff then 100000000 else 10000)

/-- WAKE_FAILED (R501): a domain that has not reached ON within the maximum of R487 is FAILED, a failed unit of its kind (R503). -/
def execWakeFailed (t d : Nat) (s : State) : Host.Outcome State Fault Refusal :=
  let s := s.at t
  let x := s.dom d
  .next (if x.state = .waking ∧ x.wakeAt + wakeMax d x.fromOff < s.now then
      let s := (s.setDom d { x with state := .failed, idleAt := none }).count F.PWR_COUNT_COUNT 2
      ((s.faultL 7 0x72 d x.lastWake 0).domLost d).release
    else s)

/-! ### Failed units (R501, R503): what waited for one goes on and meets the failure -/

/-- UNIT_FAILED_IN_SERVICE (R503): `kind` as in the ledger: 1 a Lantern die, 6 a port die, 7 a bridge; `detail` what the check found. (log entry 86) -/
def execUnitFailedInService (t kind unit detail : Nat) (s : State) : Host.Outcome State Fault Refusal :=
  let s := s.at t
  .next (match kind with
    | 1 => if unit < s.nDies then s.lanternLost unit detail 3 else s
    | 6 => if unit < s.sized 8 then s.portDieLost unit else s
    | 7 => if unit = 4 then s.outOfService (fun _ => false) false
      else if 2 * unit < s.sized 8 then (s.portDieLost (2 * unit)).portDieLost (2 * unit + 1) else s
    | _ => s).release

/-- STACK_LOST (R109): stack k fails while the adapter runs. -/
def execStackLost (t k : Nat) (s : State) : Host.Outcome State Fault Refusal :=
  let s := s.at t
  .next (if k < s.nStacks then (s.stackLost k).release else s)

/-- REF_CLOCK_LOST (R485): `optical` the 156.25 MHz reference, else the 100 MHz one. -/
def execRefClockLost (t : Nat) (optical : Bool) (s : State) : Host.Outcome State Fault Refusal :=
  let s := s.at t
  let n := b2n optical
  let s := { s with pwr := { s.pwr with lost := n :: s.pwr.lost.erase n } }
  let s := if optical then (List.range s.nEngines).foldl State.engineFail s else s.outOfService (fun _ => false) true
  .next (s.faultL 7 0x73 n 0 0).release

/-- ENGINE_OVERHEAT (R533): the photonic die of engine e reaches 90 °C. -/
def execEngineOverheat (t e temp : Nat) (s : State) : Host.Outcome State Fault Refusal :=
  let s := s.at t
  .next (if e < s.nEngines ∧ 90 ≤ temp then ((s.setEngine e { s.engine e with temp := temp }).engineFail e).release else s)

/-! ### Migration (R103, R104) -/

/-- The bytes of a block, moved to another place. -/
def moveCells (m : List Host.Cell) (src dst : Nat) : List Host.Cell :=
  let mine := m.filter (fun c => c.1 / blkBytes == src)
  mine.foldl (fun m c => Tbl.set 0 m (dst * blkBytes + c.1 % blkBytes) c.2) (scrubMem m src)

/-- Its marks by line, likewise. -/
def movePoison (m : Tbl Bool) (src dst : Nat) : Tbl Bool :=
  let mine := m.filter (fun c => c.1 * 64 / blkBytes == src)
  mine.foldl (fun m c => Tbl.set false m (dst * (blkBytes / 64) + c.1 % (blkBytes / 64)) c.2) (scrubPoison m src)

/-- The copy takes the block's place: the map points at it, and the old block is LOST. (log entry 43) -/
def State.moveBlock (s : State) (src dst : Nat) : State :=
  let b := s.blk src
  let turn (e : GBlk) : GBlk := if e.alloc && physBlk e.stack e.block == src then { e with stack := dst / 65536, block := dst % 65536 } else e
  let s := (s.setBlk dst b).setBlk src ⟨.lost, .none⟩
  { s with pool := { s.pool with
    mem := moveCells s.pool.mem src dst, poison := movePoison s.pool.poison src dst, ce := Tbl.del s.pool.ce src
    bad := movePoison s.pool.bad src dst, wrote := movePoison s.pool.wrote src dst
    gmap := Tbl.map (fun _ e => turn e) s.pool.gmap, migr := Tbl.del s.pool.migr src } }

/-- A stack that is EVACUATING and holds no GALLERY and no INTERNAL block is LOST, and in the ledger (R104). -/
def State.evacDone (s : State) (k : Nat) : State :=
  let x := s.stack k
  if x.state = .evacuating ∧ ¬ s.pool.blks.any (fun e => e.1 / 65536 == k && (e.2.state == .gallery || e.2.state == .internal)) then
    ((s.setStack k { x with state := .lost }).ledgerAdd 2 k 4 x.migrated).faultL 2 0x22 k x.migrated 0
  else s

/-- The block has left stack k; at STACK_LIMIT the stack is evacuated (R104). -/
def State.migratedFrom (s : State) (k block : Nat) : State :=
  let s := s.ledgerAdd 3 k 3 block
  let x := { s.stack k with migrated := (s.stack k).migrated + 1 }
  let s := s.setStack k x
  let n := s.fld F.GRT_EVAC_CFG_STACK_LIMIT
  if x.state = .serving ∧ s.flag F.GRT_EVAC_CFG_AUTO ∧ n ≠ 0 ∧ n ≤ x.migrated then (s.setStack k { x with state := .evacuating }).evacuate k true
  else s

/-- What the evacuations still have to do: blocks for which space has appeared begin to move, and an empty stack is LOST (R104). -/
def State.evacOn (s : State) : State := (List.range s.nStacks).foldl State.evacDone s.evacuateAll

/-- BLOCK_MIGRATION_DONE (R103): the copy of physical block b is complete. One whose block has been freed meanwhile is given up. -/
def execBlockMigrationDone (t b : Nat) (s : State) : Host.Outcome State Fault Refusal :=
  let s := s.at t
  match Tbl.find s.pool.migr b with
  | none => .next s
  | some m =>
    let st := (s.blk b).state
    let s := if st = .gallery ∨ (st = .internal ∧ (s.blk b).use ≠ .none) then (s.moveBlock b m.dst).migratedFrom (b / 65536) (b % 65536) else s.dropMigration b
    .next s.evacOn.release

/-! ### Registers (R9, R10, R11) -/

/-- REGISTER_WRITE (R9): `width` bits, 32 or 64, that link l carries to an offset of one of its BARs. -/
def execRegisterWrite (t : Nat) (a : BarAddr) (width : Nat) (w : Word) (s : State) : Host.Outcome State Fault Refusal :=
  .next ((s.at t).linkWritten a.link a.off width w)

end Sys2Proof.Machine
end

