-- ==== Sys2Proof/Machine/Dispatch.lean ====
section
/-!
DEFINITION. The dispatch: one arm per command, each one direct call of its meaning.
-/
namespace Sys2Proof.Machine

/-- The effect of a command on everything but the queue. (log entries 16, 18, 82) -/
def exec (i : Instr) (s : State) : Host.Outcome State Fault Refusal :=
  match i with
  | .mainPgRise t => Sys2Proof.Machine.execMainPgRise t s
  | .supplyGood t x => Sys2Proof.Machine.execSupplyGood t x s
  | .arrayWave t w failed => Sys2Proof.Machine.execArrayWave t w failed s
  | .selfTestDone t => Sys2Proof.Machine.execSelfTestDone t s
  | .engineWave t failed => Sys2Proof.Machine.execEngineWave t failed s
  | .supplyLoss t => Sys2Proof.Machine.execSupplyLoss t s
  | .standbyLoss t => Sys2Proof.Machine.execStandbyLoss t s
  | .refClockLost t optical => Sys2Proof.Machine.execRefClockLost t optical s
  | .thermalWarn t die temp => Sys2Proof.Machine.execThermalWarn t die temp s
  | .thermalWarnClear t cool => Sys2Proof.Machine.execThermalWarnClear t cool s
  | .thermalTrip t die temp => Sys2Proof.Machine.execThermalTrip t die temp s
  | .engineOverheat t e temp => Sys2Proof.Machine.execEngineOverheat t e temp s
  | .idleTimerExpiry t d => Sys2Proof.Machine.execIdleTimerExpiry t d s
  | .retainToOff t d => Sys2Proof.Machine.execRetainToOff t d s
  | .domainOn t d => Sys2Proof.Machine.execDomainOn t d s
  | .wakeFailed t d => Sys2Proof.Machine.execWakeFailed t d s
  | .rtcAlarm t => Sys2Proof.Machine.execRtcAlarm t s
  | .linkL1Exit t l => Sys2Proof.Machine.execLinkL1Exit t l s
  | .perstDeassert t l => Sys2Proof.Machine.execPerstDeassert t l s
  | .perstAssert t l => Sys2Proof.Machine.execPerstAssert t l s
  | .fabricLinkWake t p => Sys2Proof.Machine.execFabricLinkWake t p s
  | .pwrHoldWrite t d w => Sys2Proof.Machine.execPwrHoldWrite t d w s
  | .lampResetWrite t w x => Sys2Proof.Machine.execLampResetWrite t w x s
  | .deviceReset t r x => Sys2Proof.Machine.execDeviceReset t r x s
  | .lampRtcSet t v => Sys2Proof.Machine.execLampRtcSet t v s
  | .i3cRequest t q => Sys2Proof.Machine.execI3cRequest t q s
  | .linkDllDown t l => Sys2Proof.Machine.execLinkDllDown t l s
  | .linkStall t l => Sys2Proof.Machine.execLinkStall t l s
  | .hstDetach t => Sys2Proof.Machine.execHstDetach t s
  | .hstAttach t => Sys2Proof.Machine.execHstAttach t s
  | .hstEnable t => Sys2Proof.Machine.execHstEnable t s
  | .accDetach t n => Sys2Proof.Machine.execAccDetach t n s
  | .accAttach t n => Sys2Proof.Machine.execAccAttach t n s
  | .accEnable t n => Sys2Proof.Machine.execAccEnable t n s
  | .flr t l f => Sys2Proof.Machine.execFlr t l f s
  | .cxlMemAccess t n a store => Sys2Proof.Machine.execCxlMemAccess t n a store s
  | .linkReadCompletion t tag res => Sys2Proof.Machine.execLinkReadCompletion t tag res s
  | .readCompletionTimeout t tag => Sys2Proof.Machine.execReadCompletionTimeout t tag s
  | .fetchRetryTimer t q rq => Sys2Proof.Machine.execFetchRetryTimer t q rq s
  | .placementAccepted t id => Sys2Proof.Machine.execPlacementAccepted t id s
  | .qpDoorbell t l p n len w => Sys2Proof.Machine.execQpDoorbell t l p n len w s
  | .ringDoorbell t l p n len w => Sys2Proof.Machine.execRingDoorbell t l p n len w s
  | .admSqDoorbell t pi => Sys2Proof.Machine.execAdmSqDoorbell t pi s
  | .admCqDoorbell t w => Sys2Proof.Machine.execAdmCqDoorbell t w s
  | .qmgAdmEnable t w => Sys2Proof.Machine.execQmgAdmEnable t w s
  | .qmgPadmEnable t p w => Sys2Proof.Machine.execQmgPadmEnable t p w s
  | .descriptorFetchReturn t tag b => Sys2Proof.Machine.execDescriptorFetchReturn t tag b s
  | .refetchTimer t q rq => Sys2Proof.Machine.execRefetchTimer t q rq s
  | .fetchResume t q rq => Sys2Proof.Machine.execFetchResume t q rq s
  | .nop t r => Sys2Proof.Machine.execNop t r s
  | .write t r => Sys2Proof.Machine.execWrite t r s
  | .read t r => Sys2Proof.Machine.execRead t r s
  | .send t r => Sys2Proof.Machine.execSend t r s
  | .recv t r => Sys2Proof.Machine.execRecv t r s
  | .atomic t r => Sys2Proof.Machine.execAtomic t r s
  | .placementFence t r => Sys2Proof.Machine.execPlacementFence t r s
  | .collective t r => Sys2Proof.Machine.execCollective t r s
  | .ethSend t r => Sys2Proof.Machine.execEthSend t r s
  | .ethSegment t r => Sys2Proof.Machine.execEthSegment t r s
  | .ethRecv t r => Sys2Proof.Machine.execEthRecv t r s
  | .qpCreate t r => Sys2Proof.Machine.execQpCreate t r s
  | .qpDestroy t r => Sys2Proof.Machine.execQpDestroy t r s
  | .qpDestroyDone t n => Sys2Proof.Machine.execQpDestroyDone t n s
  | .qpRearm t r => Sys2Proof.Machine.execQpRearm t r s
  | .qpQuery t r => Sys2Proof.Machine.execQpQuery t r s
  | .ringCreate t r => Sys2Proof.Machine.execRingCreate t r s
  | .ringDestroy t r => Sys2Proof.Machine.execRingDestroy t r s
  | .ringRearm t r => Sys2Proof.Machine.execRingRearm t r s
  | .ringQuery t r => Sys2Proof.Machine.execRingQuery t r s
  | .tableSync t r => Sys2Proof.Machine.execTableSync t r s
  | .tableReadback t r => Sys2Proof.Machine.execTableReadback t r s
  | .invalidateDrain t r => Sys2Proof.Machine.execInvalidateDrain t r s
  | .drainEnd t r => Sys2Proof.Machine.execDrainEnd t r s
  | .regionRegister t r => Sys2Proof.Machine.execRegionRegister t r s
  | .revoke t r => Sys2Proof.Machine.execRevoke t r s
  | .revokeDone t r => Sys2Proof.Machine.execRevokeDone t r s
  | .regionQuery t r => Sys2Proof.Machine.execRegionQuery t r s
  | .regionReclaim t r => Sys2Proof.Machine.execRegionReclaim t r s
  | .galleryAlloc t r => Sys2Proof.Machine.execGalleryAlloc t r s
  | .galleryFree t r => Sys2Proof.Machine.execGalleryFree t r s
  | .galleryFreeWaitEnd t first => Sys2Proof.Machine.execGalleryFreeWaitEnd t first s
  | .blockScrubDone t first => Sys2Proof.Machine.execBlockScrubDone t first s
  | .galleryQuery t r => Sys2Proof.Machine.execGalleryQuery t r s
  | .biasSet t r => Sys2Proof.Machine.execBiasSet t r s
  | .partCreate t r => Sys2Proof.Machine.execPartCreate t r s
  | .partReset t r => Sys2Proof.Machine.execPartReset t r s
  | .partResetReadsDone t p => Sys2Proof.Machine.execPartResetReadsDone t p s
  | .partDestroy t r => Sys2Proof.Machine.execPartDestroy t r s
  | .partQuota t r => Sys2Proof.Machine.execPartQuota t r s
  | .partQuery t r => Sys2Proof.Machine.execPartQuery t r s
  | .keeperSet t r => Sys2Proof.Machine.execKeeperSet t r s
  | .fogPublish t r => Sys2Proof.Machine.execFogPublish t r s
  | .redirectSet t r => Sys2Proof.Machine.execRedirectSet t r s
  | .groupCreate t r => Sys2Proof.Machine.execGroupCreate t r s
  | .groupDestroy t r => Sys2Proof.Machine.execGroupDestroy t r s
  | .planLoad t r => Sys2Proof.Machine.execPlanLoad t r s
  | .planUnload t r => Sys2Proof.Machine.execPlanUnload t r s
  | .planUnloadResume t k => Sys2Proof.Machine.execPlanUnloadResume t k s
  | .groupAbort t r => Sys2Proof.Machine.execGroupAbort t r s
  | .groupQuery t r => Sys2Proof.Machine.execGroupQuery t r s
  | .planQuery t r => Sys2Proof.Machine.execPlanQuery t r s
  | .imageStage t r => Sys2Proof.Machine.execImageStage t r s
  | .imageCommit t r => Sys2Proof.Machine.execImageCommit t r s
  | .imageVerifyDone t => Sys2Proof.Machine.execImageVerifyDone t s
  | .imageWriteDone t ok x => Sys2Proof.Machine.execImageWriteDone t ok x s
  | .imageDiscard t r => Sys2Proof.Machine.execImageDiscard t r s
  | .imageDistribute t r => Sys2Proof.Machine.execImageDistribute t r s
  | .distributeTimeout t => Sys2Proof.Machine.execDistributeTimeout t s
  | .ledgerRead t r => Sys2Proof.Machine.execLedgerRead t r s
  | .daymarkRead t r => Sys2Proof.Machine.execDaymarkRead t r s
  | .attest t r => Sys2Proof.Machine.execAttest t r s
  | .kekEstablish t r => Sys2Proof.Machine.execKekEstablish t r s
  | .keyLoad t r => Sys2Proof.Machine.execKeyLoad t r s
  | .faultqCreate t r => Sys2Proof.Machine.execFaultqCreate t r s
  | .faultqDestroy t r => Sys2Proof.Machine.execFaultqDestroy t r s
  | .sampleAlloc t r => Sys2Proof.Machine.execSampleAlloc t r s
  | .sampleFree t r => Sys2Proof.Machine.execSampleFree t r s
  | .sampleRead t r => Sys2Proof.Machine.execSampleRead t r s
  | .writeData t p aes hits => Sys2Proof.Machine.execWriteData t p aes hits s
  | .sendData t p aes => Sys2Proof.Machine.execSendData t p aes s
  | .readReq t p aes hits => Sys2Proof.Machine.execReadReq t p aes hits s
  | .readRsp t p aes => Sys2Proof.Machine.execReadRsp t p aes s
  | .atomicReq t p aes hits => Sys2Proof.Machine.execAtomicReq t p aes hits s
  | .atomicRsp t p => Sys2Proof.Machine.execAtomicRsp t p s
  | .ack t p => Sys2Proof.Machine.execAck t p s
  | .nak t p => Sys2Proof.Machine.execNak t p s
  | .errorRsp t p => Sys2Proof.Machine.execErrorRsp t p s
  | .mgtData t p => Sys2Proof.Machine.execMgtData t p s
  | .rtoExpiry t id psn => Sys2Proof.Machine.execRtoExpiry t id psn s
  | .retryHorizonEnd t id => Sys2Proof.Machine.execRetryHorizonEnd t id s
  | .busyBackoff t id => Sys2Proof.Machine.execBusyBackoff t id s
  | .ackDelayTimer t k => Sys2Proof.Machine.execAckDelayTimer t k s
  | .rdEntryExpire t k => Sys2Proof.Machine.execRdEntryExpire t k s
  | .assemblingAbandon t k => Sys2Proof.Machine.execAssemblingAbandon t k s
  | .flightEntryAvailable t r => Sys2Proof.Machine.execFlightEntryAvailable t r s
  | .messageBegin t id => Sys2Proof.Machine.execMessageBegin t id s
  | .responseUnitsAvailable t id => Sys2Proof.Machine.execResponseUnitsAvailable t id s
  | .shaperDebtCleared t p eth => Sys2Proof.Machine.execShaperDebtCleared t p eth s
  | .beaconDebtZero t q => Sys2Proof.Machine.execBeaconDebtZero t q s
  | .pacerRelease t q => Sys2Proof.Machine.execPacerRelease t q s
  | .switchPacketArrival t input k => Sys2Proof.Machine.execSwitchPacketArrival t input k s
  | .ageLimitDiscard t place key k => Sys2Proof.Machine.execAgeLimitDiscard t place key k s
  | .outputPacketStart t o aes ecc => Sys2Proof.Machine.execOutputPacketStart t o aes ecc s
  | .codewordReceived t p c => Sys2Proof.Machine.execCodewordReceived t p c s
  | .credit t p cs => Sys2Proof.Machine.execCredit t p cs s
  | .audit t p cs => Sys2Proof.Machine.execAudit t p cs s
  | .echo t p time => Sys2Proof.Machine.execEcho t p time s
  | .echoRsp t p echoed hold => Sys2Proof.Machine.execEchoRsp t p echoed hold s
  | .train t p versions valid node port dim dir reserve frameStart => Sys2Proof.Machine.execTrain t p versions valid node port dim dir reserve frameStart s
  | .health t p c u => Sys2Proof.Machine.execHealth t p c u s
  | .creditFlitTimer t p => Sys2Proof.Machine.execCreditFlitTimer t p s
  | .frameBoundary t o => Sys2Proof.Machine.execFrameBoundary t o s
  | .fabLaneLock t p => Sys2Proof.Machine.execFabLaneLock t p s
  | .fabAlignDone t p => Sys2Proof.Machine.execFabAlignDone t p s
  | .fabLockLost t p => Sys2Proof.Machine.execFabLockLost t p s
  | .ueLimitReached t p => Sys2Proof.Machine.execUeLimitReached t p s
  | .laserLost t e fault => Sys2Proof.Machine.execLaserLost t e fault s
  | .fabPortEnable t p w => Sys2Proof.Machine.execFabPortEnable t p w s
  | .fabPortRetrain t p w => Sys2Proof.Machine.execFabPortRetrain t p w s
  | .swtRouteStop t w => Sys2Proof.Machine.execSwtRouteStop t w s
  | .schBeaconInjWrite t w => Sys2Proof.Machine.execSchBeaconInjWrite t w s
  | .schBeaconPortWrite t j w => Sys2Proof.Machine.execSchBeaconPortWrite t j w s
  | .trnRetryHorizonWrite t w => Sys2Proof.Machine.execTrnRetryHorizonWrite t w s
  | .trnEthNetdelayWrite t w => Sys2Proof.Machine.execTrnEthNetdelayWrite t w s
  | .schSamplePeriod t => Sys2Proof.Machine.execSchSamplePeriod t s
  | .schSampleSelWrite t w => Sys2Proof.Machine.execSchSampleSelWrite t w s
  | .blockMigrationDone t b => Sys2Proof.Machine.execBlockMigrationDone t b s
  | .stackLost t k => Sys2Proof.Machine.execStackLost t k s
  | .ethFrameReceived t e f => Sys2Proof.Machine.execEthFrameReceived t e f s
  | .pfcRefreshTimer t e p => Sys2Proof.Machine.execPfcRefreshTimer t e p s
  | .pfcPauseExpiry t e p => Sys2Proof.Machine.execPfcPauseExpiry t e p s
  | .rxHoldExpiry t e => Sys2Proof.Machine.execRxHoldExpiry t e s
  | .ethFrameTxDone t e bad => Sys2Proof.Machine.execEthFrameTxDone t e bad s
  | .ethLinkUp t e => Sys2Proof.Machine.execEthLinkUp t e s
  | .ethLinkDown t e far => Sys2Proof.Machine.execEthLinkDown t e far s
  | .ethPortEnable t e w => Sys2Proof.Machine.execEthPortEnable t e w s
  | .ethFilterCommit t e f w => Sys2Proof.Machine.execEthFilterCommit t e f w s
  | .ethGateStop t e w => Sys2Proof.Machine.execEthGateStop t e w s
  | .gateStopTakesHold t e => Sys2Proof.Machine.execGateStopTakesHold t e s
  | .ethGateRestart t e w => Sys2Proof.Machine.execEthGateRestart t e w s
  | .gateEntryStart t e => Sys2Proof.Machine.execGateEntryStart t e s
  | .ethTimerAdjWrite t e w => Sys2Proof.Machine.execEthTimerAdjWrite t e w s
  | .ethWakeMatch t f => Sys2Proof.Machine.execEthWakeMatch t f s
  | .colData t p aes => Sys2Proof.Machine.execColData t p aes s
  | .colReady t p aes => Sys2Proof.Machine.execColReady t p aes s
  | .colAbort t p aes => Sys2Proof.Machine.execColAbort t p aes s
  | .groupAbortEnd t g => Sys2Proof.Machine.execGroupAbortEnd t g s
  | .invocationStart t k => Sys2Proof.Machine.execInvocationStart t k s
  | .invocationEnd t k => Sys2Proof.Machine.execInvocationEnd t k s
  | .passBegin t k step hits => Sys2Proof.Machine.execPassBegin t k step hits s
  | .passEnd t k step fault => Sys2Proof.Machine.execPassEnd t k step fault s
  | .lagLimitTimer t k step => Sys2Proof.Machine.execLagLimitTimer t k step s
  | .abortAfterTimer t k step => Sys2Proof.Machine.execAbortAfterTimer t k step s
  | .lightPeriod t => Sys2Proof.Machine.execLightPeriod t s
  | .keeperSilence t n => Sys2Proof.Machine.execKeeperSilence t n s
  | .noQuorumTimeout t r => Sys2Proof.Machine.execNoQuorumTimeout t r s
  | .swWatchExpiry t => Sys2Proof.Machine.execSwWatchExpiry t s
  | .kprSwAliveWrite t => Sys2Proof.Machine.execKprSwAliveWrite t s
  | .light t k => Sys2Proof.Machine.execLight t k s
  | .lightAnswer t k => Sys2Proof.Machine.execLightAnswer t k s
  | .pairLight t k => Sys2Proof.Machine.execPairLight t k s
  | .join t k => Sys2Proof.Machine.execJoin t k s
  | .joinTimer t => Sys2Proof.Machine.execJoinTimer t s
  | .relay t k => Sys2Proof.Machine.execRelay t k s
  | .assign t k => Sys2Proof.Machine.execAssign t k s
  | .report t k => Sys2Proof.Machine.execReport t k s
  | .linkHoldExpiry t p => Sys2Proof.Machine.execLinkHoldExpiry t p s
  | .suppressIntervalEnd t idx => Sys2Proof.Machine.execSuppressIntervalEnd t idx s
  | .probeWaitExpiry t idx => Sys2Proof.Machine.execProbeWaitExpiry t idx s
  | .fog t k => Sys2Proof.Machine.execFog t k s
  | .mapUpdate t k => Sys2Proof.Machine.execMapUpdate t k s
  | .mirrorSync t k => Sys2Proof.Machine.execMirrorSync t k s
  | .directory t k => Sys2Proof.Machine.execDirectory t k s
  | .order t k => Sys2Proof.Machine.execOrder t k s
  | .orderDone t k => Sys2Proof.Machine.execOrderDone t k s
  | .manifest t k => Sys2Proof.Machine.execManifest t k s
  | .chunk t k => Sys2Proof.Machine.execChunk t k s
  | .distRequest t k => Sys2Proof.Machine.execDistRequest t k s
  | .distStatus t k => Sys2Proof.Machine.execDistStatus t k s
  | .distRequestTimer t => Sys2Proof.Machine.execDistRequestTimer t s
  | .counterWrap t n => Sys2Proof.Machine.execCounterWrap t n s
  | .cntStopArm t at_ => Sys2Proof.Machine.execCntStopArm t at_ s
  | .cntStopReached t => Sys2Proof.Machine.execCntStopReached t s
  | .cntRestart t => Sys2Proof.Machine.execCntRestart t s
  | .cntValueWrite t n v => Sys2Proof.Machine.execCntValueWrite t n v s
  | .cntCtrlWrite t n w => Sys2Proof.Machine.execCntCtrlWrite t n w s
  | .bwWindowEnd t => Sys2Proof.Machine.execBwWindowEnd t s
  | .cntSampleHeadWrite t head => Sys2Proof.Machine.execCntSampleHeadWrite t head s
  | .lampFaultHeadWrite t w => Sys2Proof.Machine.execLampFaultHeadWrite t w s
  | .registerWrite t a width w => Sys2Proof.Machine.execRegisterWrite t a width w s
  | .pcieLinkUp t l mode width rate vfs cfg => Sys2Proof.Machine.execPcieLinkUp t l mode width rate vfs cfg s
  | .linkL1Entry t l => Sys2Proof.Machine.execLinkL1Entry t l s
  | .dieBelowWarnAt t x => Sys2Proof.Machine.execDieBelowWarnAt t x s
  | .healthFlitTimer t p => Sys2Proof.Machine.execHealthFlitTimer t p s
  | .unitFailedInService t kind unit detail => Sys2Proof.Machine.execUnitFailedInService t kind unit detail s

end Sys2Proof.Machine
end

