-- ==== Sys2Proof/Machine/Step.lean ====
section
/-!
DEFINITION. The step: the command at the front of the queue is carried out; on an empty queue the block idles for 1 ns.
-/
namespace Sys2Proof.Machine

/-- The block on its own: local time goes on by 1 ns (R7), the counters watch (R508), and evacuations go on (R104). -/
def State.tick (s : State) : State := (s.at (s.now + 1)).evacOn

/-- One step. (log entry 14) -/
def step (s : State) : Host.Outcome State Fault Refusal :=
  match s.pending with
  | [] => .next s.tick
  | c :: cs => exec c { s with pending := cs }

/-- Put the command that a word spells at the front of the queue; the table's rows have no bits, so no word spells one. (log entry 101) -/
def State.withFetchWord (s : State) (nbits w : Nat) : State :=
  match decodeTableWord nbits w with
  | some c => { s with pending := c :: s.pending }
  | none => s

end Sys2Proof.Machine
end

