-- ==== Sys2Proof/Safety.lean ====
section
/-!
DEFINITION. What counts as a safe run and a well-kept state, in the terms the statements use.
-/
namespace Sys2Proof.Machine

/-- A step that went on: neither a fault nor a refusal. -/
def goesOn (o : Host.Outcome State Fault Refusal) : Bool :=
  match o with
  | .next _ => true
  | _ => false

/-- The memory of the stacks is in its canonical form: addresses strictly rising, no byte listed that reads what an unlisted one reads. -/
def Memory.wf (m : List Host.Cell) : Bool := Tbl.wf (0 : Byte) m

/-- The Gallery byte at a partition's local address reads, through the block map (R86); at-rest encryption is not undone. -/
def State.galleryByte (s : State) (g : Nat) : Byte := s.memByte (s.galleryPhys g)

/-- The queue with its front command taken off. -/
def State.popped (s : State) : State := { s with pending := s.pending.tail }

/-! ### Admin commands, as the statements see them -/

/-- The place of the slot at a ring's tail (R163, R164). -/
def Ring.slot (x : Ring) : Loc := { x.loc with addr := x.loc.addr + x.tail % 2 ^ x.log2 * 32 }

/-- Record r holds an admin command of opcode op that may start (R176), for a partition that is neither FREE nor DESTROYING (R539). -/
def State.begins (s : State) (r op : Nat) (x : Rec) : Prop := s.admStart r op = some x ∧ (s.part x.desc.part).lives = true

/-- A record has not ended, and its entry is written at once: it goes to its ring, which is ACTIVE, holds nothing back, has a released slot at
the tail and no SPLIT, on a link that serves the partition; the partition's generation is still the record's (R120, R164, R168, R404);
and no placement made on another link, and no other entry of the record, is to be waited for (R122, R166). -/
def State.takesEntry (s : State) (x : Rec) (links : List Nat) : Prop :=
  x.source = 0 ∧ (s.ring (s.queueRing x.queue x.rq)).state = .active ∧ (s.ring (s.queueRing x.queue x.rq)).held = [] ∧
  s.tailOpen (s.ring (s.queueRing x.queue x.rq)) = true ∧
  (s.ring (s.queueRing x.queue x.rq)).split = false ∧ (devQueue ≤ x.queue ∨ (s.part x.part).gen = x.gen) ∧
  (∀ l ∈ links, l = (s.ring (s.queueRing x.queue x.rq)).loc.link) ∧ x.phase ≠ .ended ∧ ∀ e ∈ s.qm.recs, e.2 = x → s.entryDue e.1 = false

/-- The write of a record's entry of a type, with its status, count and DATA, to its ring's tail slot (R158). -/
def State.entryWrite (s : State) (x : Rec) (type status bytes : Nat) (data : Word) (reason : Nat := 0) : Egress :=
  .linkWrite (s.ring (s.queueRing x.queue x.rq)).slot
    (entryBytes (Rec.entry { x with status := status, data := data, reason := reason } type bytes)
      (s.ring (s.queueRing x.queue x.rq)).tail (s.ring (s.queueRing x.queue x.rq)).log2)

/-- What a command that has completed leaves: its record is gone, and its ADMIN entry has been written (R161). -/
def State.replies (s u : State) (r : Nat) (x : Rec) (status : Nat) (data : Word) : Prop :=
  u.getRec r = none ∧ s.entryWrite x Ty.ADMIN status 0 data ∈ u.egress

/-- A command that waits for an event (R176). -/
def State.waits (u : State) (r : Nat) : Prop := (u.getRec r).map (·.phase) = some .waiting

/-! ### Descriptors and messages -/

/-- What a descriptor that has ended leaves: its record is gone, and its entry of a type has been written (R160, R161). -/
def State.ends (s u : State) (r : Nat) (x : Rec) (type status bytes : Nat) (data : Word) : Prop :=
  u.getRec r = none ∧ s.entryWrite x type status bytes data ∈ u.egress

/-- The node's transport engine can hold a flight entry for n (R193). -/
def State.flightFree (s : State) (n : Nat) : Prop := Tbl.has s.tr.flights n = true ∨ s.flightsOnDie (s.dieOf n) < flightSlots

/-- The MSG_ID that the next message toward n gets (R180). -/
def State.nextMsgId (s : State) (n : Nat) : Nat := (2 * Tbl.get 0 s.tr.nextMsg (s.dieOf n) + s.dieOf n) % 2 ^ 32

/-- A packet that has left the fabric here arrives: of a type, in good form, for this node, unencrypted, its CRC-64 right (R189, R190). -/
def State.arrives (s : State) (p : Packet) (type : Nat) : Prop :=
  (∃ a, a < 2 ^ 63 ∧ s.sw.ejected.find? (fun e => e.2 == p) = some (a, p)) ∧ p.poison = false ∧ p.type = type ∧ s.node = some p.dst
    ∧ p.ver = 1 ∧ s.formOk p = true ∧ p.enc = false ∧ p.w7 = word (p.crc p.pay)

/-- Message id is all that record r, a running data descriptor of a queue pair with nothing failed yet, still waits for; no DEPARTED entry is
due (R179, R203). -/
def State.lastMsg (s : State) (r : Nat) (x : Rec) (id : Nat) (m : Msg) : Prop :=
  s.msg id = some m ∧ m.recId = r ∧ (m.kind = .write ∨ m.kind = .send ∨ m.kind = .read ∨ m.kind = .atomic) ∧ s.getRec r = some x ∧ x.msgs = [id]
    ∧ x.started = true ∧ x.localLeft = 0 ∧ x.phase = .running ∧ x.status = Stat.SUCCESS ∧ isAdm x.queue = false
    ∧ (x.departs = false ∨ 0 < x.left)

/-- What a message that ends with a status other than SUCCESS makes of such a descriptor: a DONE entry with the bytes placed (R160, R200). -/
def State.failsWith (s u : State) (r : Nat) (x : Rec) (id : Nat) (m : Msg) (status : Nat) (data : Word) : Prop :=
  u.msg id = none ∧ s.ends u r x Ty.DONE status (if x.desc.op = Op.ATOMIC then 0 else x.placed + m.placedBytes) data

/-- A copy of packet psn of message id waits to enter the switch from the transport engine of die d. -/
def State.copyWaits (u : State) (d id psn : Nat) (first : Bool) : Prop :=
  ∃ k ∈ u.inqOf (128 + d), k.msg = some id ∧ k.psn = psn ∧ k.first = first

/-! ### Links -/

/-- What a loss of link l leaves (R134 steps 1 to 3): LOST set and one loss more; every region behind the link CLOSED or RETIRED; every queue pair
and completion ring with its memory behind the link in HOST_LOST (a HALTED queue pair stays HALTED, a DESTROYING one DESTROYING: R145). -/
def State.lossLeaves (s u : State) (l : Nat) : Prop :=
  (u.link l).lost = true ∧ (u.link l).losses = ((s.link l).losses + 1) % 2 ^ 32 ∧
  (∀ i, (s.region i).state = .open ∨ (s.region i).state = .closing → linkOf (s.region i).base = some l →
    (u.region i).state = .closed ∨ (u.region i).state = .retired) ∧
  (∀ n, (s.qp n).behind l = true →
    (u.qp n).state = if (s.qp n).state = .active ∨ (s.qp n).state = .error then .hostLost else (s.qp n).state) ∧
  ∀ r, (s.ring r).state ≠ .free → (s.ring r).loc.link = l → (u.ring r).state = .hostLost

/-- No line of the stacks is poisoned or has an error that a read would find, and no block is lost (R83, R102, R109). -/
def State.clean (s : State) : Prop :=
  s.pool.poison = [] ∧ s.pool.bad = [] ∧ (∀ e ∈ s.pool.blks, e.2.state ≠ .lost) ∧ (∀ e ∈ s.pool.gmap, e.2.state ≠ .lost)
    ∧ ∀ e ∈ s.pool.stackTbl, e.2.state ≠ .lost

/-- A write of the host to a register takes effect at once: the adapter is in service (R35), and no other source has a change of the same function
in progress, nor does a write that waited for one (R33). -/
def State.writesNow (s : State) (r : RegName) (i : Nat) (w : Word) : Prop :=
  s.serving = true ∧ s.io.late = [] ∧ s.seqHeld 1 r i w = false

/-! ### Groups and plans -/

/-- A command that writes its RESULT to one extent of host, accelerator or other link memory, on a link that serves its partition (R120): the
extent has the RESULT's length (R174). -/
def Rec.resultTo (x : Rec) (s : State) (a : Extent) (len : Nat) : Prop :=
  s.vfOk ((linkOf a.addr).getD 0) x.part = true ∧ x.xtra = [a] ∧ a.node = none ∧ winOf a.addr ≠ 1 ∧ winOf a.addr ≠ 3 ∧ a.len = len

/-- What an abort leaves of a group (R360): ABORTING in the next generation, the cause, member and step recorded. -/
def State.aborts (u : State) (g gen cause member step : Nat) : Prop :=
  (u.group g).state = .aborting ∧ (u.group g).gen = (gen + 1) % 65536
    ∧ (u.group g).last = abortWord cause g member step ((gen + 1) % 65536)
    ∧ u.reg .COL_ABORT_LOG = abortWord cause g member step ((gen + 1) % 65536)

/-- A packet of a plan's current generation and partition arrives at the end of its route (R352). -/
def State.colArrives (s : State) (p : Packet) (ckind k : Nat) (x : Plan) : Prop :=
  s.arrives p Pk.COL_DATA ∧ colFormOk p = true ∧ p.ckind = ckind ∧ s.planById p.planId = some (k, x) ∧ s.plan k = some x
    ∧ (s.part x.part).fabricEnc = false ∧ s.node ≠ some p.src ∧ p.src < 2 ^ 14 ∧ p.colGen = (s.group x.group).gen

/-- An ACK of a packet waits to enter the switch (R349). -/
def State.acks (s u : State) (p : Packet) : Prop :=
  ∃ j ∈ u.inqOf (128 + s.dieOf p.src), j.pkt.type = Pk.ACK ∧ j.pkt.dst = p.src ∧ j.pkt.msgId = p.msgId

/-! ### Power -/

/-- Domain d, in service, has begun to wake from a source (R482, R486). -/
def State.wokenBy (u : State) (d src : Nat) : Prop := (u.dom d).state = .waking ∧ (u.dom d).lastWake = src

/-- Domain d may be woken: the variant fits it, it is OFF or in RETAIN, and the adapter is in service. -/
def State.wakeable (s : State) (d : Nat) : Prop :=
  s.domFitted d = true ∧ ((s.dom d).state = .off ∨ (s.dom d).state = .retain) ∧ s.stage ≠ 8

/-- The adapter is out of service: no domain of the variant is ON or waking (R485, R489). -/
def State.outNow (u : State) : Prop :=
  u.stage = 8 ∧ ∀ d < 84, u.domFitted d = true → (u.dom d).state ≠ .on ∧ (u.dom d).state ≠ .waking

/-- The adapter has left service: every stack of the variant is in RETAIN and every other domain OFF, but for those that have failed (R485,
R489). -/
def State.leavesService (s u : State) : Prop :=
  u.stage = 8 ∧ ∀ d < 84, s.domFitted d = true → (s.dom d).state ≠ .failed → (u.dom d).state = if 24 ≤ d ∧ d < 44 then .retain else .off

/-- The last record that came to the Lamp-room fault queue is this one: it is in the slot before the tail, or, without a released slot, it was tallied
and an OVERFLOW record is owed (R497, R499, R500). -/
def State.recorded (u : State) (cls code unit d0 d1 : Nat) : Prop :=
  (u.faultq 64).owed = true ∧ 0 < Tbl.get 0 (u.faultq 64).tally cls ∨
    ∃ q : FaultQ, (u.faultq 64).tail = (q.tail + 1) % 2 ^ 32 ∧
      Tbl.find (u.faultq 64).slots (q.tail % 1024) = some (faultWords q cls code (u.part 0).gen 0 false u.now unit d0 d1)

/-- Registers that a write changes in no other way than their access codes say. -/
def plainRegs : List RegName :=
  [.XLT_HOST_BASE, .GRT_EVAC_CFG, .HST_STALL_LIMIT, .SCH_WEIGHTS, .FAB_LINK_CFG, .ETH_KT_CFG, .KPR_CFG, .LAMP_POSITION, .LAMP_RTC_ALARM,
   .PWR_WAKE_SET_LO, .CNT_CFG, .CNT_BW_CFG]

/-! ### Images -/

/-- A management message of these bytes, for a queue number of the Lamp room at a node, waits to begin (R219, R455). -/
def State.mgtQueued (u : State) (node qpn : Nat) (bs : List Byte) : Prop :=
  ∃ id m, u.msg id = some m ∧ m.kind = .mgt ∧ m.node = node ∧ m.qpn = qpn ∧ m.data = bs ∧ m.begun = false

/-- The management command at record r stands, and its entry can be written at once. -/
def State.mayReply (s : State) (r : Nat) (x : Rec) : Prop := s.getRec r = some x ∧ isAdm x.queue = true ∧ s.takesEntry x x.links

/-! ### Starts -/

/-- What a start finds on a whole ZQX-9120: every unit answers, the ledger names none, no test fails, and the counter record is written
(R2, R436, R439, R451). -/
def State.soundStart (s : State) (x : StartInput) : Prop :=
  s.nv.ledger = [] ∧ x.bad = [] ∧ x.badBlocks = [] ∧ x.counterOk = true ∧ bits x.pop 0 20 = 0xFFFFF ∧ bits x.pop 20 8 = 0xFF ∧ bits x.pop 28 2 = 3
    ∧ bits x.pop 32 32 = 0xFFFFFFFF ∧ x.absent = []

/-- The start has come to the arrays (R437 steps 1 to 6): every stack serves and every fast domain of the dies is ON. -/
def State.atArrays (u : State) : Prop :=
  u.stage = 3 ∧ u.start.running = true ∧ u.chip.variant = 1 ∧ (∀ k < 20, (u.stack k).state = .serving ∧ (u.dom (stackDom k)).state = .on)
    ∧ (∀ q < 8, (u.dom (quadDom q)).state = .on) ∧ ∀ n < 8, (u.dom (portDom n)).state = .on

/-- What a device reset leaves, up to its step 6 (R492, R493): the epoch and the count of starts one higher under the same incarnation; no node ID, queue
pair, ring, flight or recent-delivery entry, group, plan or key; every region CLOSED or RETIRED; each partition that lived ACTIVE under the
next generation with its record, every other FREE under its own. -/
def State.resetLeaves (s u : State) : Prop :=
  u.start.warm = true ∧ u.nv.epoch = (s.nv.epoch + 1) % 65536 ∧ u.nv.starts = (s.nv.starts + 1) % 2 ^ 32 ∧ u.nv.inc = s.nv.inc ∧ u.node = none
    ∧ u.qm.qps = [] ∧ u.qm.rings = [] ∧ u.qm.recs = [] ∧ u.tr.flights = [] ∧ u.tr.rds = [] ∧ u.col.groups = [] ∧ u.col.plans = []
    ∧ u.sec.keks = [] ∧ u.sec.tkeys = [] ∧ u.sec.xts = []
    ∧ (∀ i, (u.region i).state = .closed ∨ (u.region i).state = .retired)
    ∧ (∀ p, (s.part p).lives = true → (u.part p).state = .active ∧ (u.part p).gen = ((s.part p).gen + 1) % 65536 ∧ (u.part p).quota = (s.part p).quota)
    ∧ ∀ p, (s.part p).lives = false → (u.part p).state = .free ∧ (u.part p).gen = (s.part p).gen

/-! ### Frames -/

/-- What a command that reaches only a part of the state leaves: everything else is as it was, but local time and the counters that watch it. -/
def State.plainFrame (s u : State) (c : Instr) : Prop :=
  match c with
  | .mainPgRise t => u = { s.at t with pwr := u.pwr }
  | .lampRtcSet t _ => u = { s.at t with nv := u.nv }
  | .kprSwAliveWrite t => u = { s.at t with kpr := u.kpr }
  | .cntValueWrite t _ _ => u = { s.at t with cnt := u.cnt }
  | .cntCtrlWrite t _ _ => u = { s.at t with regs := u.regs }
  | .cntStopArm t _ => u = { s.at t with regs := u.regs }
  | .cntStopReached t => u = { s.at t with regs := u.regs }
  | .cntRestart t => u = { s.at t with regs := u.regs }
  | .cntSampleHeadWrite t _ => u = { s.at t with regs := u.regs }
  | .bwWindowEnd t => u = { s.at t with regs := u.regs, cnt := u.cnt }
  | .counterWrap t _ => u = { s.at t with regs := u.regs, cnt := u.cnt, io := u.io, egress := u.egress }
  | .accAttach t _ => u = { s.at t with io := u.io }
  | .accEnable t _ => u = { s.at t with io := u.io }
  | .hstEnable t => u = { s.at t with io := u.io }
  | .linkL1Entry t _ => u = { s.at t with io := u.io, doms := u.doms }
  | .linkL1Exit t _ => u = { s.at t with io := u.io, doms := u.doms, regs := u.regs, cnt := u.cnt }
  | .pcieLinkUp t _ _ _ _ _ _ => u = { s.at t with io := u.io }
  | .pwrHoldWrite t _ _ => u = { s.at t with regs := u.regs, doms := u.doms, cnt := u.cnt }
  | .fabricLinkWake t _ => u = { s.at t with regs := u.regs, doms := u.doms, cnt := u.cnt }
  | .rtcAlarm t => u = { s.at t with regs := u.regs, doms := u.doms, cnt := u.cnt, io := u.io, egress := u.egress }
  | .thermalWarn t _ _ => u = { s.at t with regs := u.regs, pwr := u.pwr, faultqs := u.faultqs, cnt := u.cnt, io := u.io, egress := u.egress }
  | .thermalWarnClear t _ => u = { s.at t with regs := u.regs, pwr := u.pwr }
  | .lampFaultHeadWrite t _ => u = { s.at t with regs := u.regs, faultqs := u.faultqs, cnt := u.cnt, io := u.io, egress := u.egress }
  | .trnRetryHorizonWrite t _ => u = { s.at t with regs := u.regs }
  | .trnEthNetdelayWrite t _ => u = { s.at t with regs := u.regs }
  | .schBeaconPortWrite t _ _ => u = { s.at t with regs := u.regs }
  | .schBeaconInjWrite t _ => u = { s.at t with regs := u.regs, sw := u.sw }
  | .schSampleSelWrite t _ => u = { s.at t with regs := u.regs, sw := u.sw }
  | .schSamplePeriod t => u = { s.at t with sw := u.sw }
  | .ethTimerAdjWrite t _ _ => s.io.late = [] → u = { s.at t with eth := u.eth, io := u.io }
  | _ => True

/-- The record of an admin command that only answers. -/
def queryRec (c : Instr) : Option Nat :=
  match c with
  | .qpQuery _ r => some r
  | .ringQuery _ r => some r
  | .regionQuery _ r => some r
  | .galleryQuery _ r => some r
  | .tableReadback _ r => some r
  | .groupQuery _ r => some r
  | .planQuery _ r => some r
  | .partQuery _ r => some r
  | .ledgerRead _ r => some r
  | .daymarkRead _ r => some r
  | .sampleRead _ r => some r
  | _ => none

/-- Two states agree on everything that commands change, but for the queues, counters and memory that an answer goes through. -/
def State.agrees (s u : State) : Prop :=
  u.chip = s.chip ∧ u.nv = s.nv ∧ u.xl = s.xl ∧ u.sw = s.sw ∧ u.eth = s.eth ∧ u.arr = s.arr ∧ u.col = s.col ∧ u.sec = s.sec ∧ u.dmap = s.dmap
    ∧ u.node = s.node ∧ u.doms = s.doms ∧ u.start = s.start ∧ u.stg = s.stg ∧ u.pwr = s.pwr ∧ u.waiting = s.waiting ∧ u.pending = s.pending
    ∧ u.pool.blks = s.pool.blks ∧ u.pool.gmap = s.pool.gmap ∧ u.pool.bias = s.pool.bias ∧ u.pool.xtsKeys = s.pool.xtsKeys
    ∧ ∀ p, (u.part p).state = (s.part p).state ∧ (u.part p).gen = (s.part p).gen ∧ (u.part p).quota = (s.part p).quota

end Sys2Proof.Machine
end

