-- ==== Sys2Proof/Certificates/Slice0/Obligations.lean ====
section
/-!
DEFINITION. The statements for the provers.
-/
open Sys2Proof Sys2Proof.Machine

/-! ### The queue of commands and the step -/

/-- A step carries out the command at the front of the queue on the state with the rest of the queue. On an empty queue 1 ns passes; with no
stack EVACUATING nothing else happens (the model's choice). -/
def Obligations.StepRunsFrontCommand : Prop :=
  (∀ (c : Instr) (cs : List Instr) (s : State), step { s with pending := c :: cs } = exec c { s with pending := cs })
  ∧ (∀ (s : State), s.pending = [] → (∀ k, (s.stack k).state ≠ .evacuating) → step s = .next (s.at (s.now + 1)))

/-- No command stops the block: every command has a next state in every state. -/
def Obligations.EveryCommandGoesOn : Prop :=
  ∀ (c : Instr) (s : State), ∃ u, exec c s = .next u

/-! ### Doorbells and fetching (R149 to R157) -/

/-- A doorbell of 8 B in the slot of a live queue, not more than N ahead of the fetch index, sets the producer index and ends SEQ_WAIT
(R149, R150, R157); for the device admin queue, a write to QMG_ADM_SQ_DB does (R178).
A completion-ring doorbell between the old head and the tail sets the head (R149, R164); for the device admin ring, a write to
QMG_ADM_CQ_DB does (R178). A PI further ahead, a HEAD outside that range, is dropped and counted in QMG_BAD_DOORBELL; a doorbell that names a
ring the queue pair does not have, or an object that is FREE, is dropped and counted for its link (R116, R150). -/
def Obligations.DoorbellsSetIndices : Prop :=
  (∀ (s : State) (t l p n q : Nat) (w : Word) (d : DRing),
    s.exposed l p = true → (s.part p).state = .active → s.dbOwner p n = .queue q → s.dring q (bit w 63) = some d →
    idxDiff (bits w 0 32) d.fetch ≤ 2 ^ d.log2 →
    ∃ u e, exec (.qpDoorbell t l p n 8 w) s = .next u ∧ u.dring q (bit w 63) = some e ∧ e.pi = bits w 0 32 ∧ e.seqWait = false
      ∧ e.fetch = d.fetch)
  ∧ (∀ (s : State) (t pi : Nat), s.serving = true → (s.admq 64).state ≠ .free → pi < 2 ^ 32 → idxDiff pi (s.admq 64).sq.fetch ≤ 2 ^ (s.admq 64).sq.log2 →
    ∃ u, exec (.admSqDoorbell t pi) s = .next u ∧ (u.admq 64).sq.pi = pi ∧ (u.admq 64).sq.seqWait = false)
  ∧ (∀ (s : State) (t l p n r : Nat) (w : Word),
    s.exposed l p = true → (s.part p).state = .active → s.dbOwner p n = .ring r →
    idxDiff (bits w 0 32) (s.ring r).head ≤ idxDiff (s.ring r).tail (s.ring r).head →
    ∃ u, exec (.ringDoorbell t l p n 8 w) s = .next u ∧ (u.ring r).head = bits w 0 32)
  ∧ (∀ (s : State) (t : Nat) (w : Word), s.serving = true → (s.ring devQueue).state ≠ .free →
    idxDiff (bits w 0 32) (s.ring devQueue).head ≤ idxDiff (s.ring devQueue).tail (s.ring devQueue).head →
    ∃ u, exec (.admCqDoorbell t w) s = .next u ∧ (u.ring devQueue).head = bits w 0 32)
  ∧ (∀ (s : State) (t l p n q : Nat) (w : Word) (d : DRing),
    s.exposed l p = true → (s.part p).state = .active → s.dbOwner p n = .queue q → s.dring q (bit w 63) = some d →
    2 ^ d.log2 < idxDiff (bits w 0 32) d.fetch →
    ∃ u, exec (.qpDoorbell t l p n 8 w) s = .next u ∧ u.qm = s.qm
      ∧ u.fld F.QMG_BAD_DOORBELL_COUNT = satAdd (s.fld F.QMG_BAD_DOORBELL_COUNT) 1 F.QMG_BAD_DOORBELL_COUNT.width)
  ∧ (∀ (s : State) (t l p n r : Nat) (w : Word),
    s.exposed l p = true → (s.part p).state = .active → s.dbOwner p n = .ring r →
    idxDiff (s.ring r).tail (s.ring r).head < idxDiff (bits w 0 32) (s.ring r).head →
    ∃ u, exec (.ringDoorbell t l p n 8 w) s = .next u ∧ u.qm = s.qm
      ∧ u.fld F.QMG_BAD_DOORBELL_COUNT = satAdd (s.fld F.QMG_BAD_DOORBELL_COUNT) 1 F.QMG_BAD_DOORBELL_COUNT.width)
  ∧ (∀ (s : State) (t l p n : Nat) (w : Word),
    s.dbOwner p n = .nobody ∨ (∃ q, s.dbOwner p n = .queue q ∧ s.dring q (bit w 63) = none) →
    ∃ u, exec (.qpDoorbell t l p n 8 w) s = .next u ∧ u.qm = s.qm ∧ (u.link l).dropped = (s.link l).dropped + 1)
  ∧ (∀ (s : State) (t l p n : Nat) (w : Word), s.dbOwner p n = .nobody →
    ∃ u, exec (.ringDoorbell t l p n 8 w) s = .next u ∧ u.qm = s.qm ∧ (u.link l).dropped = (s.link l).dropped + 1)

/-- Setting ENABLE for the first time brings an admin queue into service with its indices 0, its rings at the bases written (R173, R178);
the device admin queue's from STAGE READY or LAMP_OUT on (R437). -/
def Obligations.AdminQueuesEnable : Prop :=
  (∀ (s : State) (t : Nat) (w : Word), s.stage = 6 ∨ s.stage = 7 → bit (s.reg .QMG_ADM_CFG) 31 = false → bit w 31 = true →
    ∃ u, exec (.qmgAdmEnable t w) s = .next u ∧ (u.admq 64).state = .active ∧ (u.admq 64).sq.pi = 0 ∧ (u.admq 64).sq.fetch = 0
      ∧ (u.admq 64).sq.loc = ⟨0, 0, (s.reg .QMG_ADM_SQ_BASE).toNat⟩ ∧ (u.ring devQueue).state = .active ∧ (u.ring devQueue).tail = 0
      ∧ (u.ring devQueue).head = 0 ∧ (u.ring devQueue).loc = ⟨0, 0, (s.reg .QMG_ADM_CQ_BASE).toNat⟩ ∧ bit (u.reg .QMG_ADM_CFG) 31 = true)
  ∧ (∀ (s : State) (t p : Nat) (w : Word) (e1 e2 : Extent), s.serving = true → (s.part p).lives = true → bit (s.reg .QMG_PADM_CFG p) 31 = false →
    bit w 31 = true → 6 ≤ bits w 5 5 → bits w 5 5 ≤ 20 → 6 ≤ bits w 10 5 → bits w 10 5 ≤ 20 →
    s.xring p (s.reg .QMG_PADM_SQ_BASE p).toNat (2 ^ bits w 5 5 * 64) needR = (Stat.SUCCESS, 0, 0, e1) →
    s.xring p (s.reg .QMG_PADM_CQ_BASE p).toNat (2 ^ bits w 10 5 * 32) needW = (Stat.SUCCESS, 0, 0, e2) →
    ∃ u, exec (.qmgPadmEnable t p w) s = .next u ∧ (u.admq p).state = .active ∧ (u.admq p).sq.pi = 0 ∧ (u.admq p).sq.fetch = 0
      ∧ (u.admq p).sq.loc = s.locOf p e1.addr ∧ (u.admq p).sq.log2 = bits w 5 5 ∧ (u.ring (admQueue p)).state = .active
      ∧ (u.ring (admQueue p)).loc = s.locOf p e2.addr ∧ (u.ring (admQueue p)).log2 = bits w 10 5)

/-- A slot is read by a 64 B read of its own memory (R140): again, at the time of R156 while it is stale, for the first time once it may be
accepted (R155), and again 100 µs after a failed fetch (R131); a failed fetch whose queue cannot take the slot yet is over all the same. -/
def Obligations.SlotsAreFetched : Prop :=
  (∀ (s : State) (t q : Nat) (rq : Bool) (d : DRing), s.dring q rq = some d → (s.at t).refetchDue q rq d = true →
    s.ready [linkDom d.loc.link] = true →
    ∃ u, exec (.refetchTimer t q rq) s = .next u ∧ exec (.fetchResume t q rq) s = .next u ∧
      .linkRead s.io.nextId { d.loc with addr := d.loc.addr + d.fetch % 2 ^ d.log2 * 64 } 64 ((s.link d.loc.link).mode == 2) ∈ u.egress ∧ u.fetching q rq = true)
  ∧ (∀ (s : State) (t q : Nat) (rq : Bool) (d : DRing), s.dring q rq = some d → (s.at t).mayFetch q rq = true →
    s.ready [linkDom d.loc.link] = true →
    ∃ u, exec (.fetchResume t q rq) s = .next u ∧
      .linkRead s.io.nextId { d.loc with addr := d.loc.addr + d.fetch % 2 ^ d.log2 * 64 } 64 ((s.link d.loc.link).mode == 2) ∈ u.egress ∧ u.fetching q rq = true)
  ∧ (∀ (s : State) (t q : Nat) (rq : Bool) (d : DRing), s.dring q rq = some d → d.retry = true → d.retAt + 100000 ≤ max s.now t →
    ∃ u e, exec (.fetchRetryTimer t q rq) s = .next u ∧ u.dring q rq = some e ∧ e.retry = false ∧ e.fetch = d.fetch ∧
      (((s.at t).setDring q rq { d with retry := false }).mayFetch q rq = true → s.ready [linkDom d.loc.link] = true →
        .linkRead s.io.nextId { d.loc with addr := d.loc.addr + d.fetch % 2 ^ d.log2 * 64 } 64 ((s.link d.loc.link).mode == 2) ∈ u.egress ∧ u.fetching q rq = true))

/-! ### Queue pairs and completion rings (R142 to R148, R175) -/

/-- QP_CREATE on free numbers and readable ring memory makes a queue pair ACTIVE with its operands and indices 0, and answers with its
number and doorbell (R142, R144, R145); RING_CREATE likewise a completion ring (R148). -/
def Obligations.QueueObjectsCreated : Prop :=
  (∀ (s : State) (t r : Nat) (x : Rec) (e1 : Extent), s.begins r Op.QP_CREATE x → s.takesEntry x x.links →
    (s.fld F.QMG_CAPS_FMT).testBit (bits x.desc.w4 60 4) = true → s.ringFor x.desc.part (bits x.desc.w5 48 16) = Stat.SUCCESS →
    bits x.desc.w4 38 5 = 0 → bit x.desc.w4 54 = false → 2 ≤ bits x.desc.w4 48 6 →
    (s.part x.desc.part).queues.testBit (bits x.desc.w4 48 6) = true → s.qpsHeld x.desc.part < (s.part x.desc.part).qps →
    (∃ n, n < s.nQps ∧ (s.qp n).state = .free ∧ (bits x.desc.w4 36 2 = 0 ∨ n % 2 = bits x.desc.w4 36 2 - 2)) →
    s.xring x.desc.part x.desc.w2.toNat (2 ^ bits x.desc.w4 43 5 * 64) needR = (Stat.SUCCESS, 0, 0, e1) →
    ∃ u n db, exec (.qpCreate t r) s = .next u ∧ (s.qp n).state = .free ∧ (u.qp n).state = .active ∧ (u.qp n).part = x.desc.part
      ∧ (u.qp n).qkey = bits x.desc.w5 0 32 ∧ (u.qp n).maxOut = bits x.desc.w4 0 13 ∧ (u.qp n).sqRing = bits x.desc.w5 48 16
      ∧ (u.qp n).sq.pi = 0 ∧ (u.qp n).sq.fetch = 0 ∧ (u.qp n).sq.log2 = bits x.desc.w4 43 5
      ∧ (u.qp n).sq.loc = s.locOf x.desc.part e1.addr ∧ (u.qp n).rq = none ∧ (u.qp n).doorbell = db
      ∧ s.replies u r x Stat.SUCCESS (word (n * 2 ^ 32 + db)))
  ∧ (∀ (s : State) (t r : Nat) (x : Rec) (e1 : Extent), s.begins r Op.RING_CREATE x → s.takesEntry x x.links →
    s.ringsHeld x.desc.part < (s.part x.desc.part).rings →
    (∃ n, n < s.nRings ∧ (s.ring n).state = .free ∧ (bits x.desc.w3 45 2 = 0 ∨ n % 2 = bits x.desc.w3 45 2 - 2)) →
    s.xring x.desc.part x.desc.w2.toNat (2 ^ bits x.desc.w3 59 5 * 32) needW = (Stat.SUCCESS, 0, 0, e1) →
    ∃ u n db, exec (.ringCreate t r) s = .next u ∧ (s.ring n).state = .free ∧ (u.ring n).state = .active
      ∧ (u.ring n).part = x.desc.part ∧ (u.ring n).loc = s.locOf x.desc.part e1.addr ∧ (u.ring n).log2 = bits x.desc.w3 59 5
      ∧ (u.ring n).vector = bits x.desc.w3 48 11 ∧ (u.ring n).head = 0 ∧ (u.ring n).tail = 0 ∧ (u.ring n).doorbell = db
      ∧ s.replies u r x Stat.SUCCESS (word (n * 2 ^ 32 + db)))

/-- QP_DESTROY of a queue pair that is not HALTED sets it DESTROYING and waits; when its last completion has been written the queue pair is
FREE and the command completes (R145, R147). RING_DESTROY of a ring no queue pair names frees it, and answers RING_BUSY of one that a
queue pair names (R148). -/
def Obligations.QueueObjectsDestroyed : Prop :=
  (∀ (s : State) (t r : Nat) (x : Rec), s.begins r Op.QP_DESTROY x → s.qpFor x = Stat.SUCCESS →
    (s.qp (bits x.desc.w2 0 16)).state ≠ .destroying → (s.qp (bits x.desc.w2 0 16)).state ≠ .halted →
    ∃ u, exec (.qpDestroy t r) s = .next u ∧ (u.qp (bits x.desc.w2 0 16)).state = .destroying
      ∧ (u.qp (bits x.desc.w2 0 16)).destroyer = some r ∧ u.waits r)
  ∧ (∀ (s : State) (t n r : Nat) (x : Rec), (s.qp n).state = .destroying → s.qpDrained n = true → (s.qp n).destroyer = some r →
    s.getRec r = some x → isAdm x.queue = true → s.takesEntry x x.links →
    ∃ u, exec (.qpDestroyDone t n) s = .next u ∧ (u.qp n).state = .free ∧ s.replies u r x Stat.SUCCESS 0)
  ∧ (∀ (s : State) (t r : Nat) (x : Rec), s.begins r Op.RING_DESTROY x → s.takesEntry x x.links → s.ringCmd x = Stat.SUCCESS →
    ∃ u, exec (.ringDestroy t r) s = .next u ∧
      (if s.qm.qps.any (fun e => e.2.state != .free && (e.2.sqRing == bits x.desc.w2 0 16
          || (e.2.rq.isSome && e.2.rqRing == bits x.desc.w2 0 16))) = true
       then u.ring (bits x.desc.w2 0 16) = s.ring (bits x.desc.w2 0 16) ∧ s.replies u r x Stat.RING_BUSY 0
       else (u.ring (bits x.desc.w2 0 16)).state = .free ∧ s.replies u r x Stat.SUCCESS 0))

/-- QP_REARM takes a queue pair from ERROR or HOST_LOST, and RING_REARM a ring from HOST_LOST, back to ACTIVE with new memory and every index 0
(R145, R148); in any other state they answer BAD_STATE and change nothing of it.
QP_QUERY and RING_QUERY answer with the state of their object (R175). -/
def Obligations.QueueObjectsRearmed : Prop :=
  (∀ (s : State) (t r : Nat) (x : Rec) (e1 : Extent), s.begins r Op.QP_REARM x → s.takesEntry x x.links → s.qpFor x = Stat.SUCCESS →
    (s.qp (bits x.desc.w2 0 16)).state = .error ∨ (s.qp (bits x.desc.w2 0 16)).state = .hostLost → (s.qp (bits x.desc.w2 0 16)).rq = none →
    s.xring (s.qp (bits x.desc.w2 0 16)).part x.desc.w3.toNat (2 ^ (s.qp (bits x.desc.w2 0 16)).sq.log2 * 64) needR = (Stat.SUCCESS, 0, 0, e1) →
    ∃ u, exec (.qpRearm t r) s = .next u ∧ (u.qp (bits x.desc.w2 0 16)).state = .active ∧ (u.qp (bits x.desc.w2 0 16)).sq.pi = 0
      ∧ (u.qp (bits x.desc.w2 0 16)).sq.fetch = 0 ∧ (u.qp (bits x.desc.w2 0 16)).sq.seqWait = false
      ∧ (u.qp (bits x.desc.w2 0 16)).sq.loc = s.locOf (s.qp (bits x.desc.w2 0 16)).part e1.addr ∧ s.replies u r x Stat.SUCCESS 0)
  ∧ (∀ (s : State) (t r : Nat) (x : Rec), s.begins r Op.QP_REARM x → s.takesEntry x x.links → s.qpFor x = Stat.SUCCESS →
    (s.qp (bits x.desc.w2 0 16)).state ≠ .error → (s.qp (bits x.desc.w2 0 16)).state ≠ .hostLost →
    ∃ u, exec (.qpRearm t r) s = .next u ∧ u.qp (bits x.desc.w2 0 16) = s.qp (bits x.desc.w2 0 16) ∧ s.replies u r x Stat.BAD_STATE 0)
  ∧ (∀ (s : State) (t r : Nat) (x : Rec) (e1 : Extent), s.begins r Op.RING_REARM x → s.takesEntry x x.links → s.ringCmd x = Stat.SUCCESS →
    (s.ring (bits x.desc.w2 0 16)).state = .hostLost →
    s.xring (s.ring (bits x.desc.w2 0 16)).part x.desc.w3.toNat (2 ^ (s.ring (bits x.desc.w2 0 16)).log2 * 32) needW = (Stat.SUCCESS, 0, 0, e1) →
    ∃ u, exec (.ringRearm t r) s = .next u ∧ (u.ring (bits x.desc.w2 0 16)).state = .active ∧ (u.ring (bits x.desc.w2 0 16)).head = 0
      ∧ (u.ring (bits x.desc.w2 0 16)).tail = 0
      ∧ (u.ring (bits x.desc.w2 0 16)).loc = s.locOf (s.ring (bits x.desc.w2 0 16)).part e1.addr ∧ s.replies u r x Stat.SUCCESS 0)
  ∧ (∀ (s : State) (t r : Nat) (x : Rec), s.begins r Op.QP_QUERY x → s.takesEntry x x.links →
    (s.qp (bits x.desc.w2 0 16)).state = .free ∨ (s.qp (bits x.desc.w2 0 16)).part = x.desc.part →
    ∃ u data, exec (.qpQuery t r) s = .next u ∧ s.replies u r x Stat.SUCCESS data
      ∧ bits data 60 4 = (s.qp (bits x.desc.w2 0 16)).state.code ∧ bits data 0 32 = (s.qp (bits x.desc.w2 0 16)).sq.fetch % 2 ^ 32)
  ∧ (∀ (s : State) (t r : Nat) (x : Rec), s.begins r Op.RING_QUERY x → s.takesEntry x x.links →
    (s.ring (bits x.desc.w2 0 16)).state = .free ∨ (s.ring (bits x.desc.w2 0 16)).part = x.desc.part →
    ∃ u data, exec (.ringQuery t r) s = .next u ∧ s.replies u r x Stat.SUCCESS data
      ∧ bits data 60 4 = (s.ring (bits x.desc.w2 0 16)).state.code ∧ bits data 0 32 = (s.ring (bits x.desc.w2 0 16)).tail % 2 ^ 32)

/-! ### Translation tables and regions (R49 to R77) -/

/-- TABLE_SYNC and INVALIDATE_DRAIN ask for their pages at the host copy, one read of the whole run, and wait (R52, R56 step 1);
TABLE_READBACK writes the adapter copy of its pages there and completes (R55).
A drain that has committed and covers nothing more completes (R56 step 5). -/
def Obligations.TableCommandsMovePages : Prop :=
  (∀ (s : State) (t r : Nat) (x : Rec), s.begins r Op.TABLE_SYNC x → s.runBad x.desc = none → (s.link 0).lost = false →
    ∃ u k, exec (.tableSync t r) s = .next u ∧ u.waits r ∧ .linkRead k ⟨0, 0, (s.reg .XLT_HOST_BASE x.desc.part).toNat + firstPage x.desc * 4096⟩
      (pageCount x.desc * 4096) ((s.link 0).mode == 2 && pageCount x.desc != 0) ∈ u.egress)
  ∧ (∀ (s : State) (t r : Nat) (x : Rec), s.begins r Op.INVALIDATE_DRAIN x → s.runBad x.desc = none → (s.link 0).lost = false →
    ∃ u k, exec (.invalidateDrain t r) s = .next u ∧ u.waits r
      ∧ .linkRead k ⟨0, 0, (s.reg .XLT_HOST_BASE x.desc.part).toNat + firstPage x.desc * 4096⟩ (pageCount x.desc * 4096)
        ((s.link 0).mode == 2 && pageCount x.desc != 0) ∈ u.egress)
  ∧ (∀ (s : State) (t r : Nat) (x : Rec), s.begins r Op.TABLE_READBACK x → s.takesEntry x [0] → s.runBad x.desc = none →
    (s.link 0).lost = false →
    ∃ u bs, exec (.tableReadback t r) s = .next u ∧ s.replies u r x Stat.SUCCESS 0
      ∧ .linkWrite ⟨0, 0, (s.reg .XLT_HOST_BASE x.desc.part).toNat + firstPage x.desc * 4096⟩ bs ∈ u.egress
      ∧ bs.length = pageCount x.desc * 4096
      ∧ ∀ k < pageCount x.desc * 256, slice bs (16 * k) 16 = (s.tentry x.desc.part (firstPage x.desc + k / 256) (k % 256)).bytes)
  ∧ (∀ (s : State) (t r : Nat) (x : Rec), s.getRec r = some x → isAdm x.queue = true → x.drainOver = true → s.takesEntry x x.links →
    ∃ u, exec (.drainEnd t r) s = .next u ∧ s.replies u r x Stat.SUCCESS 0)

/-- The pages a TABLE_SYNC brought commit as a whole or not at all (R52, R53): every entry of the run is the staged one afterwards, and every
other entry of every partition is as before; a page that fails validation leaves the tables as they were. -/
def Obligations.TableSyncCommitsWhole : Prop :=
  ∀ (s : State) (r : Nat) (x : Rec) (bs : List Byte),
    (s.syncBad x.desc bs = none → ∀ p page idx, idx < 256 →
      (s.tableStaged r x bs).tentry p page idx =
        if p = x.desc.part ∧ firstPage x.desc ≤ page ∧ page < firstPage x.desc + pageCount x.desc
        then stagedEntry (firstPage x.desc) bs page idx else s.tentry p page idx)
    ∧ (∀ n, s.syncBad x.desc bs = some n → ∀ p page idx, (s.tableStaged r x bs).tentry p page idx = s.tentry p page idx)

/-- REGION_REGISTER over one local extent opens the CLOSED entry that R66 chooses with its current generation, and answers with its key
(R65, R67). -/
def Obligations.RegionRegisterOpens : Prop :=
  ∀ (s : State) (t r i : Nat) (x : Rec) (e : Extent), s.begins r Op.REGION_REGISTER x → s.takesEntry x (linksOf x.xtra) →
    (∀ y ∈ x.xtra, y.node = none ∧ winOf y.addr ≠ 1 ∧ winOf y.addr ≠ 3) →
    s.xlate x.desc.part [⟨x.desc.w2.toNat, x.desc.w3.toNat, 1, 0, ⟨bit x.desc.w4 0, bit x.desc.w4 1, bit x.desc.w4 2, false⟩⟩] = .ok [[e]] →
    e.node = none → e.xts = bit x.desc.w4 3 → s.regionsHeld x.desc.part < (s.part x.desc.part).regions → s.regionTake e.addr = some i →
    (s.region i).state = .closed →
    ∃ u, exec (.regionRegister t r) s = .next u ∧ (u.region i).state = .open ∧ (u.region i).gen = (s.region i).gen
      ∧ (u.region i).base = e.addr ∧ (u.region i).pages = x.desc.w3.toNat / 4096 ∧ (u.region i).owner = x.desc.part
      ∧ (u.region i).r = bit x.desc.w4 0 ∧ (u.region i).w = bit x.desc.w4 1 ∧ (u.region i).a = bit x.desc.w4 2
      ∧ (u.region i).tag = x.desc.w5 ∧ (∀ j, j ≠ i → u.region j = s.region j)
      ∧ s.replies u r x Stat.SUCCESS (word (keyOf (s.region i).gen i))

/-- REVOKE of a key that reaches an OPEN region moves it out of OPEN with the next generation, or on its way to RETIRED at 8,191 (R71, R72); it
waits. REVOKE_DONE completes it when its key reaches nothing (R73). A key that reaches nothing completes at once with SUCCESS. -/
def Obligations.RevokeCloses : Prop :=
  (∀ (s : State) (t r : Nat) (x : Rec), s.begins r Op.REVOKE x →
    (s.region (keyIdx (bits x.desc.w2 0 32))).state = .open → keyGen (bits x.desc.w2 0 32) = (s.region (keyIdx (bits x.desc.w2 0 32))).gen →
    (devQueue ≤ x.queue ∨ (s.region (keyIdx (bits x.desc.w2 0 32))).owner = x.part) →
    ∃ u, exec (.revoke t r) s = .next u ∧ u.waits r ∧
      (if (s.region (keyIdx (bits x.desc.w2 0 32))).busy = 0 then
        (u.region (keyIdx (bits x.desc.w2 0 32))).state =
          if (s.region (keyIdx (bits x.desc.w2 0 32))).gen = 8191 then .retired else .closed
       else (u.region (keyIdx (bits x.desc.w2 0 32))).state = .closing) ∧
      (u.region (keyIdx (bits x.desc.w2 0 32))).gen =
        if (s.region (keyIdx (bits x.desc.w2 0 32))).gen = 8191 then 8191 else (s.region (keyIdx (bits x.desc.w2 0 32))).gen + 1)
  ∧ (∀ (s : State) (t r : Nat) (x : Rec), s.begins r Op.REVOKE x → s.takesEntry x x.links →
    (s.region (keyIdx (bits x.desc.w2 0 32))).reaches (keyGen (bits x.desc.w2 0 32)) = false →
    ∃ u, exec (.revoke t r) s = .next u ∧ s.replies u r x Stat.SUCCESS 0 ∧ u.xl = s.xl)
  ∧ (∀ (s : State) (t r : Nat) (x : Rec), s.getRec r = some x → isAdm x.queue = true → x.desc.op = Op.REVOKE → x.phase = .waiting →
    s.takesEntry x x.links → (s.region (keyIdx (bits x.desc.w2 0 32))).reaches (keyGen (bits x.desc.w2 0 32)) = false →
    ∃ u, exec (.revokeDone t r) s = .next u ∧ s.replies u r x Stat.SUCCESS 0)

/-- A partition cannot revoke, or query, a region it does not own (R63, R72): the command answers PERMISSION_DENIED and no region changes.
REGION_QUERY writes the entry's four words and its count of accepted packets to the RESULT area (R63); REGION_RECLAIM returns every RETIRED
entry of the die, and no other, to CLOSED with GEN 1 (R77). -/
def Obligations.RegionsAnswer : Prop :=
  (∀ (s : State) (t r : Nat) (x : Rec), s.begins r Op.REVOKE x → s.takesEntry x x.links → x.queue < devQueue →
    (s.region (keyIdx (bits x.desc.w2 0 32))).reaches (keyGen (bits x.desc.w2 0 32)) = true →
    (s.region (keyIdx (bits x.desc.w2 0 32))).owner ≠ x.part →
    ∃ u, exec (.revoke t r) s = .next u ∧ s.replies u r x Stat.PERMISSION_DENIED 0 ∧ u.xl = s.xl)
  ∧ (∀ (s : State) (t r : Nat) (x : Rec), s.begins r Op.REGION_QUERY x → s.takesEntry x x.links → x.queue < devQueue →
    (s.region (bits x.desc.w2 0 19)).owner ≠ x.part →
    ∃ u, exec (.regionQuery t r) s = .next u ∧ s.replies u r x Stat.PERMISSION_DENIED 0 ∧ u.xl = s.xl)
  ∧ (∀ (s : State) (t r : Nat) (x : Rec) (a : Extent), s.begins r Op.REGION_QUERY x → s.takesEntry x (linksOf x.xtra) → x.resultTo s a 40 →
    (devQueue ≤ x.queue ∨ (s.region (bits x.desc.w2 0 19)).owner = x.part) →
    ∃ u, exec (.regionQuery t r) s = .next u ∧ s.replies u r x Stat.SUCCESS 0
      ∧ .linkWrite (s.locOf x.part a.addr) ((s.region (bits x.desc.w2 0 19)).bytes ++ wordBytes (word (s.region (bits x.desc.w2 0 19)).busy)) ∈ u.egress)
  ∧ (∀ (s : State) (t r : Nat) (x : Rec), s.begins r Op.REGION_RECLAIM x → s.takesEntry x x.links →
    Tbl.rising s.xl.rgn = true →
    ∃ u data, exec (.regionReclaim t r) s = .next u ∧ s.replies u r x Stat.SUCCESS data ∧
      ∀ i, if i % 2 = bits x.desc.w2 0 1 ∧ (s.region i).state = .retired then (u.region i).state = .closed ∧ (u.region i).gen = 1
        else u.region i = s.region i)

/-! ### Galleries and page bias (R86 to R93) -/

/-- GALLERY_ALLOC with enough FREE blocks on the masked stacks, quota and a free run of Gallery addresses gives the partition a run of blocks
that were not allocated, each on a stack block that was FREE, with bias DEVICE, and answers with the run's address; with too few blocks and
no stripe it answers NO_GALLERY_SPACE and allocates nothing (R88, R91). -/
def Obligations.GalleryAllocGives : Prop :=
  (∀ (s : State) (t r : Nat) (x : Rec), s.begins r Op.GALLERY_ALLOC x → s.takesEntry x x.links → bit x.desc.w4 0 = false →
    1 ≤ bits x.desc.w2 0 22 →
    bits x.desc.w2 0 22 ≤ s.freeOn ((maskBits (bits x.desc.w3 0 20) 20).filter (fun k => decide (k < s.nStacks))) →
    s.blocksHeld x.desc.part + bits x.desc.w2 0 22 ≤ (s.part x.desc.part).blocks →
    (∃ b, b + bits x.desc.w2 0 22 ≤ 2097152 ∧ ∀ i < bits x.desc.w2 0 22, (s.gblk (b + i)).alloc = false) →
    ∃ u b, exec (.galleryAlloc t r) s = .next u ∧ s.replies u r x Stat.SUCCESS (word (b * blkBytes)) ∧ b + bits x.desc.w2 0 22 ≤ 2097152
      ∧ ∀ i < bits x.desc.w2 0 22, (s.gblk (b + i)).alloc = false ∧ (u.gblk (b + i)).alloc = true ∧ (u.gblk (b + i)).state = .gallery
        ∧ (u.gblk (b + i)).owner = x.desc.part ∧ (u.gblk (b + i)).xts = false
        ∧ (s.blk (physBlk (u.gblk (b + i)).stack (u.gblk (b + i)).block)).state = .free
        ∧ (u.blk (physBlk (u.gblk (b + i)).stack (u.gblk (b + i)).block)).state = .gallery
        ∧ ∀ k < 512, u.biasOf ((b + i) * 512 + k) = Bias.device)
  ∧ (∀ (s : State) (t r : Nat) (x : Rec), s.begins r Op.GALLERY_ALLOC x → s.takesEntry x x.links → bit x.desc.w4 0 = false →
    bit x.desc.w4 1 = false →
    s.freeOn ((maskBits (bits x.desc.w3 0 20) 20).filter (fun k => decide (k < s.nStacks))) < bits x.desc.w2 0 22 →
    ∃ u, exec (.galleryAlloc t r) s = .next u ∧ s.replies u r x Stat.NO_GALLERY_SPACE 0 ∧ u.pool.gmap = s.pool.gmap
      ∧ u.pool.blks = s.pool.blks)

/-- GALLERY_FREE of blocks that the partition holds and no live region covers sets the run FREEING and waits; otherwise it answers BAD_STATE or
REGION_ACTIVE and changes no block (R90 step 1). When the wait ends scrubbing begins; when that is done every block of the run that is not
LOST is FREE, its Gallery addresses are released, and the command completes (R90 steps 2 to 4). -/
def Obligations.GalleryFreeRuns : Prop :=
  (∀ (s : State) (t r : Nat) (x : Rec), s.begins r Op.GALLERY_FREE x →
    (∀ i ∈ List.range' (x.desc.w2.toNat / blkBytes) (bits x.desc.w3 0 22), i < 2097152 ∧ (s.gblk i).alloc = true ∧ (s.gblk i).state ≠ .freeing
      ∧ (s.gblk i).owner = x.desc.part) →
    s.xl.rgn.any (fun e => (e.2.state == .open || e.2.state == .closing)
      && Extent.inBlocks ⟨none, e.2.base, e.2.pages * 4096, 0, 0, false⟩ (x.desc.w2.toNat / blkBytes) (bits x.desc.w3 0 22)) = false →
    ∃ u, exec (.galleryFree t r) s = .next u ∧ u.waits r ∧
      ∀ i ∈ List.range' (x.desc.w2.toNat / blkBytes) (bits x.desc.w3 0 22), (u.gblk i).state = .freeing ∧ (u.gblk i).alloc = true)
  ∧ (∀ (s : State) (t r : Nat) (x : Rec), s.begins r Op.GALLERY_FREE x → s.takesEntry x x.links →
    (∃ i ∈ List.range' (x.desc.w2.toNat / blkBytes) (bits x.desc.w3 0 22), (s.gblk i).alloc = false ∨ (s.gblk i).state = .freeing
      ∨ (s.gblk i).owner ≠ x.desc.part) →
    ∃ u, exec (.galleryFree t r) s = .next u ∧ s.replies u r x Stat.BAD_STATE 0 ∧ u.pool.gmap = s.pool.gmap ∧ u.pool.blks = s.pool.blks)
  ∧ (∀ (s : State) (t first : Nat) (f : Freeing), Tbl.find s.pool.freeing first = some f → f.scrub = false →
    (∀ r x, f.recId = some r → s.getRec r = some x → x.cover = []) →
    ∃ u g, exec (.galleryFreeWaitEnd t first) s = .next u ∧ Tbl.find u.pool.freeing first = some g ∧ g.scrub = true)
  ∧ (∀ (s : State) (t first r : Nat) (f : Freeing) (x : Rec), Tbl.find s.pool.freeing first = some f → f.scrub = true → f.recId = some r →
    f.first < areaKey 0 →
    s.getRec r = some x → isAdm x.queue = true → s.takesEntry x x.links →
    ∃ u, exec (.blockScrubDone t first) s = .next u ∧ s.replies u r x Stat.SUCCESS 0 ∧ Tbl.find u.pool.freeing first = none ∧
      ∀ i ∈ List.range' f.first f.count, (u.gblk i).alloc = false ∧
        ((s.blk (physBlk (s.gblk i).stack (s.gblk i).block)).state ≠ .lost →
          (u.blk (physBlk (s.gblk i).stack (s.gblk i).block)).state = .free))

/-- GALLERY_QUERY writes, for each block of its run, the block-map entry and the bias of its pages (R90). BIAS_SET over GALLERY blocks of the
partition, with a mask of its CXL ports, gives every page of its run the new bias and share mask and leaves every other page (R93); a mask
with a port outside ACC_ALLOW or not in CXL mode answers PERMISSION_DENIED and changes no page. -/
def Obligations.GalleryQueryAndBias : Prop :=
  (∀ (s : State) (t r : Nat) (x : Rec) (a : Extent), s.begins r Op.GALLERY_QUERY x → s.takesEntry x (linksOf x.xtra) →
    x.resultTo s a (72 * bits x.desc.w3 0 5) →
    ∃ u, exec (.galleryQuery t r) s = .next u ∧ s.replies u r x Stat.SUCCESS 0 ∧ .linkWrite (s.locOf x.part a.addr)
      ((List.range' (x.desc.w2.toNat / blkBytes) (bits x.desc.w3 0 5)).flatMap s.galleryBytes) ∈ u.egress)
  ∧ (∀ (s : State) (t r : Nat) (x : Rec), s.begins r Op.BIAS_SET x → s.takesEntry x x.links → 1 ≤ bits x.desc.w3 0 22 →
    (∀ p ∈ List.range' (x.desc.w2.toNat / 4096) (bits x.desc.w3 0 22), p / 512 < 2097152 ∧ (s.gblk (p / 512)).alloc = true
      ∧ (s.gblk (p / 512)).state = .gallery ∧ (s.gblk (p / 512)).owner = x.desc.part) →
    (∀ k < 16, (bits x.desc.w4 0 16).testBit k = true → (s.part x.desc.part).accAllow.testBit k = true ∧ (s.link (1 + k)).mode = 2) →
    ∃ u, exec (.biasSet t r) s = .next u ∧ s.replies u r x Stat.SUCCESS 0 ∧
      ∀ p, u.biasOf p = if p ∈ List.range' (x.desc.w2.toNat / 4096) (bits x.desc.w3 0 22)
        then (if bit x.desc.w4 16 = true then ⟨true, bits x.desc.w4 0 16⟩ else Bias.device) else s.biasOf p)
  ∧ (∀ (s : State) (t r k : Nat) (x : Rec), s.begins r Op.BIAS_SET x → s.takesEntry x x.links → 1 ≤ bits x.desc.w3 0 22 →
    (∀ p ∈ List.range' (x.desc.w2.toNat / 4096) (bits x.desc.w3 0 22), p / 512 < 2097152 ∧ (s.gblk (p / 512)).alloc = true
      ∧ (s.gblk (p / 512)).state = .gallery ∧ (s.gblk (p / 512)).owner = x.desc.part) →
    k < 16 → (bits x.desc.w4 0 16).testBit k = true → (s.part x.desc.part).accAllow.testBit k = false ∨ (s.link (1 + k)).mode ≠ 2 →
    ∃ u, exec (.biasSet t r) s = .next u ∧ s.replies u r x Stat.PERMISSION_DENIED 0 ∧ u.pool.bias = s.pool.bias)

/-! ### Links (R112, R116 to R118, R127, R132 to R137) -/

/-- The five ways to lose a link (R132, R133): the data link going down, PERST#, a stall (the stall limit passed with posted writes waiting and none
accepted; it also disables the link), and a write of 1 to DETACH of the host link or of an accelerator port. -/
def Obligations.LinkLosses : Prop :=
  (∀ (s : State) (t l : Nat), (s.link l).up = true →
    ∃ u, exec (.linkDllDown t l) s = .next u ∧ s.lossLeaves u l ∧ (u.link l).up = false ∧ (u.link l).mode = 0)
  ∧ (∀ (s : State) (t l : Nat), s.linkFitted l = true → (s.link l).up = true →
    ∃ u, exec (.perstAssert t l) s = .next u ∧ s.lossLeaves u l ∧ (u.link l).up = false ∧ (u.link l).perst = true)
  ∧ (∀ (s : State) (t l : Nat), (s.link l).up = true → s.putWaiting l = true → (s.link l).acceptAt + s.stallLimit l ≤ t →
    ∃ u, exec (.linkStall t l) s = .next u ∧ s.lossLeaves u l ∧ (u.link l).up = false ∧ (u.link l).disabled = true)
  ∧ (∀ (s : State) (t : Nat), s.serving = true → ∃ u, exec (.hstDetach t) s = .next u ∧ s.lossLeaves u 0)
  ∧ (∀ (s : State) (t n : Nat), s.serving = true → n < s.nAcc → ∃ u, exec (.accDetach t n) s = .next u ∧ s.lossLeaves u (1 + n))

/-- Re-attaching (R136, R137): ATTACH of the lost host link clears LOST and brings a HOST_LOST device admin queue back with its indices 0 at the
rings its registers name; of a link that is not lost it changes nothing; ATTACH of an accelerator port clears its LOST. ENABLE trains a link
that a stall disabled (R133).
A link whose port die is ON finishes its training: UP, with CXL only where the link offers it, its width, rate and enabled VFs, and a completion
timeout of 50 us to 50 ms (R111, R112, R120, R131, R138). The end of PERST# starts the training of a link that is down and not disabled, and wakes its port die (R118, R486). -/
def Obligations.LinksComeBack : Prop :=
  (∀ (s : State) (t : Nat), s.serving = true → (s.link 0).lost = true → (s.admq 64).state = .hostLost →
    ∃ u, exec (.hstAttach t) s = .next u ∧ (u.link 0).lost = false ∧ (u.admq 64).state = .active ∧ (u.admq 64).sq.pi = 0
      ∧ (u.admq 64).sq.fetch = 0 ∧ (u.admq 64).sq.loc = ⟨0, 0, (s.reg .QMG_ADM_SQ_BASE).toNat⟩ ∧ (u.ring devQueue).state = .active
      ∧ (u.ring devQueue).loc = ⟨0, 0, (s.reg .QMG_ADM_CQ_BASE).toNat⟩ ∧ (u.ring devQueue).tail = 0)
  ∧ (∀ (s : State) (t : Nat), (s.link 0).lost = false → ∃ u, exec (.hstAttach t) s = .next u ∧ u = s.at t)
  ∧ (∀ (s : State) (t n : Nat), s.serving = true → n < s.nAcc → ∃ u, exec (.accAttach t n) s = .next u ∧ (u.link (1 + n)).lost = false
      ∧ (u.link (1 + n)).losses = (s.link (1 + n)).losses)
  ∧ (∀ (s : State) (t : Nat), s.serving = true → (s.link 0).disabled = true →
    ∃ u, exec (.hstEnable t) s = .next u ∧ (u.link 0).disabled = false ∧ (u.link 0).training = true)
  ∧ (∀ (s : State) (t n : Nat), s.serving = true → n < s.nAcc → (s.link (1 + n)).disabled = true →
    ∃ u, exec (.accEnable t n) s = .next u ∧ (u.link (1 + n)).disabled = false ∧ (u.link (1 + n)).training = true)
  ∧ (∀ (s : State) (t l mode width rate vfs limit : Nat) (ok ecrc : Bool), s.linkFitted l = true → (s.link l).training = true →
    (s.link l).perst = false → (s.link l).disabled = false → (s.dom (linkDom l)).state = .on → widthOk l width = true →
    ∃ u, exec (.pcieLinkUp t l mode width rate vfs ⟨ok, limit, ecrc⟩) s = .next u ∧ (u.link l).up = true ∧ (u.link l).training = false ∧
      (u.link l).mode = (if mode = 2 ∧ (if l = 0 then s.flag F.HST_CTRL_CXL_EN else s.flag F.ACC_PORT_CFG_CXL_EN (l - 1)) = true then 2 else 1) ∧
      (u.link l).numVfs = min vfs 63 ∧ (u.link l).atomicOk = ok ∧ (u.link l).width = min width 15
      ∧ (u.link l).timeout = min (max limit 50000) 50000000 ∧ (u.link l).ecrc = ecrc)
  ∧ (∀ (s : State) (t l : Nat), s.linkFitted l = true → (s.link l).up = false → (s.link l).disabled = false →
    s.chip.variant ≠ 0 → s.fld F.LAMP_STATUS_STAGE ≠ 8 → (s.dom (linkDom l)).state = .off ∨ (s.dom (linkDom l)).state = .retain →
    ∃ u, exec (.perstDeassert t l) s = .next u ∧ (u.link l).perst = false ∧ (u.link l).training = true ∧ (u.dom (linkDom l)).state = .waking)

/-- A direct load or store that R127 does not permit is refused: the load answers poison, the store changes no byte, and each is counted (R91). A
permitted load of a line that is not poisoned, its stack ON and its block not on the move, answers what the line holds once the dirty
copies that the snoops of the other ports bring are written back, and changes no other byte; without another port in the share mask it
changes none. A permitted store within such a line of unprotected memory is what a later read gives. -/
def Obligations.DirectAccess : Prop :=
  (∀ (s : State) (t n a : Nat), s.directOk n a = false →
    ∃ u, exec (.cxlMemAccess t n a none) s = .next u ∧ u.egress = s.egress ++ [.cxlData (1 + n) none] ∧ u.pool = s.pool
      ∧ (u.link (1 + n)).refLoads = satAdd (s.link (1 + n)).refLoads 1 32)
  ∧ (∀ (s : State) (t n a : Nat) (bs : List Byte), s.directOk n a = false →
    ∃ u, exec (.cxlMemAccess t n a (some bs)) s = .next u ∧ u.egress = s.egress ∧ u.pool = s.pool
      ∧ (u.link (1 + n)).refStores = satAdd (s.link (1 + n)).refStores 1 32)
  ∧ (∀ (s : State) (t n a : Nat), s.directOk n a = true → s.ready (s.needsOf (2 ^ 48 + a) 1) = true → s.io.places = [] → s.pool.bad = [] →
    s.linePoisoned (a / 64 * 64) = false →
    ∃ u, exec (.cxlMemAccess t n a none) s = .next u ∧ .cxlData (1 + n) (some (u.gRead (a / 64 * 64) 64)) ∈ u.egress
      ∧ ((s.gblk (a / blkBytes)).xts = false → ∀ b, (b < s.galleryPhys (a / 64 * 64) ∨ s.galleryPhys (a / 64 * 64) + 64 ≤ b) →
        u.memByte b = s.memByte b)
      ∧ ((∀ m < 16, m ≠ n → (s.biasOf (a / 4096)).mask.testBit m = false) →
        u.pool.mem = s.pool.mem ∧ u.gRead (a / 64 * 64) 64 = s.gRead (a / 64 * 64) 64))
  ∧ (∀ (s : State) (t n a : Nat) (bs : List Byte), s.directOk n a = true → s.ready (s.needsOf (2 ^ 48 + a) 1) = true → s.io.places = [] →
    s.pool.bad = [] → a % 64 + bs.length ≤ 64 → bs ≠ [] →
    s.linePoisoned (a / 64 * 64) = false → (s.gblk (a / blkBytes)).xts = false →
    ∃ u, exec (.cxlMemAccess t n a (some bs)) s = .next u ∧ u.gRead a bs.length = bs ∧
      ∀ b, (b < s.galleryPhys a ∨ s.galleryPhys a + bs.length ≤ b) → u.memByte b = s.memByte b)

/-! ### Slots, placements and plain descriptors (R131, R155 to R162, R210) -/

/-- A fetched slot that is not current is fetched again, or waits for its doorbell after the eighth time; a current one moves the fetch index on
(R156, R157); its bytes are those of the flits that pass both their checks, in order (R129). The zero-length read before an entry comes back and the entry is written (R122). A fetch without a completion is noted to be
repeated, its slot neither skipped nor completed (R131).
A local piece of a transfer, within one line of Gallery memory without encryption, is committed: its bytes read back, the placement is over and
the descriptor has one piece fewer to wait for (R26, R45). -/
def Obligations.AccessesComplete : Prop :=
  (∀ (s : State) (t tag q : Nat) (rq : Bool) (b : List Byte) (fs : List LinkFlit) (d : DRing) (x : LinkRead),
    Tbl.find s.io.reads tag = some x → x.why = .fetch q rq → s.dring q rq = some d → s.takes q = true →
    (Desc.ofBytes b).seq ≠ d.fetch % 2 ^ 32 → (foldFlits (s.link x.loc.link).ecrc fs).bytes = b → x.len ≤ b.length →
    ∃ u e, exec (.descriptorFetchReturn t tag b) s = .next u ∧ exec (.linkReadCompletion t tag (.data fs)) s = .next u ∧
      u.dring q rq = some e ∧ e.fetch = d.fetch ∧ u.qm.recs = s.qm.recs ∧
      (if d.stale < 8 then e.stale = d.stale + 1 ∧ e.seqWait = d.seqWait else e.seqWait = true ∧ e.busy = false))
  ∧ (∀ (s : State) (t tag q : Nat) (rq : Bool) (b : List Byte) (d : DRing) (x : LinkRead), Tbl.find s.io.reads tag = some x →
    x.why = .fetch q rq → s.dring q rq = some d → s.takes q = true → (Desc.ofBytes b).seq = d.fetch % 2 ^ 32 →
    ∃ u e, exec (.descriptorFetchReturn t tag b) s = .next u ∧ u.dring q rq = some e ∧ e.fetch = (d.fetch + 1) % 2 ^ 32)
  ∧ (∀ (s : State) (t tag n r : Nat) (fs : List LinkFlit) (x : LinkRead) (e : Entry), Tbl.find s.io.reads tag = some x → x.why = .piece n 0 →
    Tbl.find s.io.builds n = some ⟨[none], .entry r e, none⟩ → (s.takeRead tag).piecesLeft n = false → (s.ring r).state = .active →
    (s.ring r).held = [] → s.tailOpen (s.ring r) = true → (s.ring r).split = false →
    (∀ p, e.owner = some p → (s.part p).gen = e.gen) → (∀ k ∈ s.io.builds, k.1 ≠ n → k.2.why.entryOf ≠ some e.recId) →
    x.len ≤ (foldFlits (s.link x.loc.link).ecrc fs).bytes.length →
    ∃ u, exec (.linkReadCompletion t tag (.data fs)) s = .next u ∧
      .linkWrite (s.ring r).slot (entryBytes e (s.ring r).tail (s.ring r).log2) ∈ u.egress ∧
      ((∀ y ∈ s.qm.recs, y.2.desc.op ≠ Op.PLACEMENT_FENCE) → (u.ring r).tail = ((s.ring r).tail + 1) % 2 ^ 32))
  ∧ (∀ (s : State) (t tag q : Nat) (rq : Bool) (d : DRing) (x : LinkRead), Tbl.find s.io.reads tag = some x → x.why = .fetch q rq →
    s.dring q rq = some d → x.at0 + (s.link x.loc.link).timeout ≤ t → (s.link x.loc.link).fails < 2 →
    ∃ u e, exec (.readCompletionTimeout t tag) s = .next u ∧ u.dring q rq = some e ∧ e.retry = true ∧ e.fetch = d.fetch
      ∧ u.qm.recs = s.qm.recs ∧ (u.link x.loc.link).fails = (s.link x.loc.link).fails + 1)
  ∧ (∀ (s : State) (t id r g : Nat) (p : Placement) (x : Rec) (bs : List Byte), Tbl.find s.io.places id = some p → p.landed = false →
    p.parts = [(2 ^ 48 + g, bs)] → g < 2 ^ 42 → g % 64 + bs.length ≤ 64 → bs ≠ [] → (s.gblk (g / blkBytes)).xts = false →
    p.why = .copy r → p.region = none → s.getRec r = some x → 2 ≤ x.localLeft →
    ∃ u y, exec (.placementAccepted t id) s = .next u ∧ Tbl.find u.io.places id = none ∧ u.gRead g bs.length = bs ∧ u.getRec r = some y
      ∧ y.localLeft = x.localLeft - 1 ∧ y.placed = x.placed + bs.length)

/-- NOP completes with DONE (R159). RECV waits at the end of its queue pair's receives (R210). A PLACEMENT_FENCE covers, from its acceptance on, every
unfinished descriptor of its send ring that concerns its node; it waits while it covers one, and otherwise completes with SUCCESS or, where covered
descriptors failed, with FENCE_INCOMPLETE and their number (R162). -/
def Obligations.PlainDescriptors : Prop :=
  (∀ (s : State) (t r : Nat) (x : Rec), s.recReady r Op.NOP = some x → s.takesEntry x x.links →
    ∃ u, exec (.nop t r) s = .next u ∧ s.ends u r x Ty.DONE Stat.SUCCESS 0 0)
  ∧ (∀ (s : State) (t r : Nat) (x : Rec), s.recReady r Op.RECV = some x →
    ∃ u, exec (.recv t r) s = .next u ∧ (u.qp x.queue).recvs = (s.qp x.queue).recvs ++ [r] ∧ u.waits r)
  ∧ (∀ (s : State) (t r : Nat) (x : Rec), s.recReady r Op.PLACEMENT_FENCE = some x → x.cover = [] → (s.qp x.queue).state = .active →
    (∀ p ∈ s.qm.recs, p.1 ≠ r → p.2.desc.op ≠ Op.PLACEMENT_FENCE) → s.takesEntry x x.links →
    ∃ u, exec (.placementFence t r) s = .next u ∧
      s.ends u r x Ty.DONE (if x.failed = 0 then Stat.SUCCESS else Stat.FENCE_INCOMPLETE) 0 (if x.failed = 0 then 0 else word x.failed))
  ∧ (∀ (s : State) (t r : Nat) (x : Rec), s.recReady r Op.PLACEMENT_FENCE = some x → x.cover ≠ [] →
    (∀ p ∈ s.qm.recs, p.1 ≠ r → p.2.desc.op ≠ Op.PLACEMENT_FENCE) →
    ∃ u y, exec (.placementFence t r) s = .next u ∧ u.getRec r = some y ∧ y.cover = x.cover ∧ y.phase = .running ∧ u.egress = s.egress)
  ∧ (∀ (s : State) (q : Nat) (d : DRing) (desc : Desc), isAdm q = false → (s.qp q).state = .active → (s.qp q).ethPort = none →
    desc.op = Op.PLACEMENT_FENCE → descOk desc false false = true → (s.qp q).beacon = false →
    s.refusedBy s.io.nextId (Rec.new q false d.fetch (s.qp q).part (s.part (s.qp q).part).gen desc s.now d.since) = none →
    s.flag F.CNT_SAMPLE_CFG_ENABLE = false →
    ∃ y, (s.acceptData q false d desc).getRec s.io.nextId = some y ∧
      y.failed = (if desc.fenceAll = true then (s.qp q).failAll else Tbl.get 0 (s.qp q).failBy desc.fenceNode) ∧
      ∀ p ∈ s.recsOf q, p.2.rq = false → p.2.fenceable = true → fenceHits desc p.2 s.node = true → p.1 ∈ y.cover)

/-! ### Kilpin Transport: the sending side (R179 to R203, R212, R230 to R239) -/

/-- A WRITE to one remote extent and a SEND are one message, a READ from one remote range within 64 KiB one read request, each with the
descriptor's operands and not begun (R179, R212); a WRITE that waited for a flight entry makes its message once there is one (R193). The node's
route has not been withdrawn since the acceptance (R201). -/
def Obligations.TransfersMakeMessages : Prop :=
  (∀ (s : State) (t r n : Nat) (x : Rec) (e : Extent), s.recReady r Op.WRITE = some x → x.dst = [e] → e.node = some n →
    (∀ y ∈ x.src, y.node = none) → s.flightFree n → s.routed n = true →
    ∃ u m, exec (.write t r) s = .next u ∧ u.msg (s.nextMsgId n) = some m ∧ m.kind = .write ∧ m.node = n ∧ m.recId = r ∧ m.len = e.len
      ∧ m.raddr = e.addr ∧ m.key = e.key ∧ m.inc = e.inc ∧ m.begun = false)
  ∧ (∀ (s : State) (t r n : Nat) (x : Rec) (e : Extent), s.getRec r = some x → isAdm x.queue = false → x.desc.op = Op.WRITE →
    x.phase = .running → x.started = false → x.dst = [e] → e.node = some n → (∀ y ∈ x.src, y.node = none) → s.flightFree n → s.routed n = true →
    ∃ u m, exec (.flightEntryAvailable t r) s = .next u ∧ u.msg (s.nextMsgId n) = some m ∧ m.kind = .write ∧ m.node = n ∧ m.recId = r
      ∧ m.len = e.len ∧ m.raddr = e.addr ∧ m.key = e.key ∧ m.begun = false)
  ∧ (∀ (s : State) (t r : Nat) (x : Rec), s.recReady r Op.SEND = some x → (∀ y ∈ x.src ++ x.dst, y.node = none) → s.flightFree x.desc.sendNode →
    s.routed x.desc.sendNode = true →
    ∃ u m, exec (.send t r) s = .next u ∧ u.msg (s.nextMsgId x.desc.sendNode) = some m ∧ m.kind = .send ∧ m.node = x.desc.sendNode
      ∧ m.recId = r ∧ m.len = x.desc.total ∧ m.key = x.desc.sendQkey ∧ m.qpn = x.desc.sendQpn ∧ m.imm = x.desc.w6 ∧ m.begun = false)
  ∧ (∀ (s : State) (t r n : Nat) (x : Rec) (e : Extent), s.recReady r Op.READ = some x → x.src = [e] → e.node = some n →
    (∀ y ∈ x.dst, y.node = none) → 1 ≤ e.len → e.addr % 65536 + e.len ≤ 65536 → s.flightFree n → s.routed n = true →
    ∃ u m, exec (.read t r) s = .next u ∧ u.msg (s.nextMsgId n) = some m ∧ m.kind = .read ∧ m.node = n ∧ m.recId = r ∧ m.len = e.len
      ∧ m.raddr = e.addr ∧ m.key = e.key ∧ m.begun = false)

/-- An atomic on this adapter's Gallery executes once, writes its new value and completes with the old one where FETCH is set (R97, R159); of a
line that ports share the old value is what it holds once their dirty copies are taken (R91, R99). An
ATOMIC_REQ that passes its checks does so too: its entry becomes DELIVERED with the old value, and the sender is answered with ATOMIC_RSP or
ACK (R204, R214). -/
def Obligations.AtomicsExecute : Prop :=
  (∀ (s : State) (t r : Nat) (x : Rec) (e : Extent) (es : List Extent), s.recReady r Op.ATOMIC = some x → x.dst = e :: es → e.node = none →
    winOf e.addr = 1 → s.io.places = [] →
    ((s.at t).atomicRead (bitsN e.addr 0 48) x.desc.aop).firstPoison (bitsN e.addr 0 48) (aopSize x.desc.aop) = none →
    bitsN e.addr 0 48 % 64 + aopSize x.desc.aop ≤ 64 → (s.gblk (bitsN e.addr 0 48 / blkBytes)).xts = false → x.msgs = [] →
    x.status = Stat.SUCCESS → s.cnt.blocks = 0 → s.takesEntry x x.links →
    ∃ u, exec (.atomic t r) s = .next u ∧
      u.gRead (bitsN e.addr 0 48) (aopSize x.desc.aop) = leBytes (aopSize x.desc.aop) (atomicNew x.desc.aop
        (leNat (((s.at t).atomicRead (bitsN e.addr 0 48) x.desc.aop).gRead (bitsN e.addr 0 48) (aopSize x.desc.aop)))
        (x.desc.w3.toNat % 256 ^ aopSize x.desc.aop) x.desc.w4.toNat) ∧
      s.ends u r x Ty.DONE Stat.SUCCESS (aopSize x.desc.aop)
        (if x.desc.fetch = true then word (leNat (((s.at t).atomicRead (bitsN e.addr 0 48) x.desc.aop).gRead (bitsN e.addr 0 48)
          (aopSize x.desc.aop))) else 0))
  ∧ (∀ (s : State) (t i : Nat) (p : Packet), s.arrives p Pk.ATOMIC_REQ → s.node ≠ some p.src → s.rd (rdKey p) = none →
    s.regionCheck p.inc p.key p.addr (aopSize p.aop) false false true = .ok i → (s.part (s.region (keyIdx p.key)).owner).fabricEnc = false →
    p.addr % aopSize p.aop = 0 → s.ready (s.needsOf p.addr 8) = true → winOf p.addr = 1 → s.io.places = [] →
    s.firstPoison (bitsN p.addr 0 48) (aopSize p.aop) = none → (s.gblk (bitsN p.addr 0 48 / blkBytes)).xts = false →
    (s.biasOf (bitsN p.addr 0 48 / 4096)).shared = false → s.pool.bad = [] →
    (s.freeEntry (s.dieOf p.src) p.beacon).isSome = true →
    ∃ u e, exec (.atomicReq t p none []) s = .next u ∧ u.rd (rdKey p) = some e ∧ e.delivered = true ∧
      e.old = word (leNat (s.gRead (bitsN p.addr 0 48) (aopSize p.aop))) ∧
      u.gRead (bitsN p.addr 0 48) (aopSize p.aop) = leBytes (aopSize p.aop) (atomicNew p.aop
        (leNat (s.gRead (bitsN p.addr 0 48) (aopSize p.aop))) (p.w6.toNat % 256 ^ aopSize p.aop) p.w3.toNat) ∧
      ∃ k ∈ u.inqOf (128 + s.dieOf p.src), k.pkt.dst = p.src ∧ k.pkt.msgId = p.msgId ∧
        k.pkt.type = (if p.fetch = true then Pk.ATOMIC_RSP else Pk.ACK) ∧ (p.fetch = true → k.pkt.w6 = e.old))

/-- A waiting message begins, with its horizon parameters and a first copy on its way (R194, R197); a read request begins once it has its response
units (R212), and a message its partition's shaper held back once the bucket is out of debt (R248). A Beacon queue pair without debt
fetches its next slot (R235), and its pacer's next packet goes into the switch at its time (R237, R238). -/
def Obligations.MessagesBegin : Prop :=
  (∀ (s : State) (t id : Nat) (m : Msg), s.msg id = some m → (s.at t).mayBegin m = true → m.kind = .atomic → m.npkts = 1 → m.acked = [] →
    m.bad = [] → m.d = none → m.beacon = false → s.overEth m.node = false → s.node ≠ some m.node →
    ∃ u y, exec (.messageBegin t id) s = .next u ∧ u.msg id = some y ∧ y.begun = true ∧ y.beganAt = max s.now t ∧ y.hz = s.horizon
      ∧ u.copyWaits (s.dieOf m.node) id 0 true)
  ∧ (∀ (s : State) (t id : Nat) (m : Msg), s.msg id = some m → m.kind = .read → m.begun = false → m.units = 0 → s.overEth m.node = false →
    m.unitsNeeded ≤ s.freeUnits (s.dieOf m.node) →
    ∃ u y, exec (.responseUnitsAvailable t id) s = .next u ∧ u.msg id = some y ∧ y.units = m.unitsNeeded)
  ∧ (∀ (s : State) (t p id : Nat) (m : Msg), s.tr.msgs = [(id, m)] → m.part = p → m.kind = .atomic → m.npkts = 1 → m.acked = [] →
    m.bad = [] → m.d = none → m.beacon = false → s.overEth m.node = false → s.node ≠ some m.node → (s.at t).mayBegin m = true →
    ∃ u y, exec (.shaperDebtCleared t p false) s = .next u ∧ u.msg id = some y ∧ y.begun = true ∧ u.copyWaits (s.dieOf m.node) id 0 true)
  ∧ (∀ (s : State) (t q : Nat), (s.qp q).beacon = true → (s.at t).debt (s.qp q) = 0 → (s.at t).mayFetch q false = true →
    s.ready [linkDom (s.qp q).sq.loc.link] = true → isAdm q = false →
    ∃ u, exec (.beaconDebtZero t q) s = .next u ∧ .linkRead s.io.nextId
      { (s.qp q).sq.loc with addr := (s.qp q).sq.loc.addr + (s.qp q).sq.fetch % 2 ^ (s.qp q).sq.log2 * 64 } 64
        ((s.link (s.qp q).sq.loc.link).mode == 2) ∈ u.egress)
  ∧ (∀ (s : State) (t q : Nat) (k : SwPkt) (ks : List SwPkt), Tbl.get [] s.sw.pacer q = k :: ks →
    Tbl.get 0 s.sw.pacerAt q ≤ ((max s.now t : Nat) : Rat) → (k.len : Rat) ≤ (s.at t).injLevel →
    (∀ e ∈ s.tr.msgs, (s.at t).tooLate e.2 = false) →
    ∃ u, exec (.pacerRelease t q) s = .next u ∧ Tbl.get [] u.sw.pacer q = ks ∧ ∃ j ∈ u.inqOf k.input, j.pkt = k.pkt ∧ j.msg = k.msg)

/-- A packet not acknowledged within its timeout is sent again with the timeout doubled up to RTO_MAX, and counted (R196); after a NAK BUSY one
copy of the lowest unacknowledged packet goes out once the wait is over (R199). At d + H the message ends with RETRY_EXCEEDED and its queue
pair enters ERROR (R197, R202). -/
def Obligations.TimersSendAgain : Prop :=
  (∀ (s : State) (t id at0 d : Nat) (m : Msg), s.msg id = some m → m.kind = .read ∨ m.kind = .atomic → m.beacon = false → s.node ≠ some m.node →
    Tbl.find m.sent 0 = some at0 → m.d = some d → 0 ∉ m.acked → 0 ∉ m.bad → at0 + Tbl.get s.rtoInit m.tmo 0 ≤ max s.now t → max s.now t ≤ m.lastSend d →
    ∃ u y, exec (.rtoExpiry t id 0) s = .next u ∧ u.msg id = some y ∧ Tbl.find y.sent 0 = none ∧
      Tbl.find y.tmo 0 = some (min (2 * Tbl.get s.rtoInit m.tmo 0) s.rtoMax) ∧ u.copyWaits (s.dieOf m.node) id 0 false ∧
      u.fld F.TRN_COUNT_COUNT 3 = (s.fld F.TRN_COUNT_COUNT 3 + 1) % 2 ^ 64)
  ∧ (∀ (s : State) (t id at0 w : Nat) (m : Msg), s.msg id = some m → m.kind = .read ∨ m.kind = .atomic → m.beacon = false →
    s.node ≠ some m.node → m.busy = some (at0, w) → m.busyPsn = none → m.npkts = 1 → m.acked = [] → m.bad = [] → at0 + w ≤ max s.now t →
    (∀ d, m.d = some d → max s.now t ≤ m.lastSend d) →
    ∃ u y, exec (.busyBackoff t id) s = .next u ∧ u.msg id = some y ∧ y.busyPsn = some 0 ∧
      ∃ f, u.copyWaits (s.dieOf m.node) id 0 f)
  ∧ (∀ (s : State) (t id r d : Nat) (m : Msg) (x : Rec), s.lastMsg r x id m → m.d = some d → d + m.hz ≤ max s.now t → s.takesEntry x x.links →
    m.queue = x.queue → (s.qp x.queue).state = .active → (∀ y ∈ s.recsOf x.queue, y.1 = r) →
    ∃ u, exec (.retryHorizonEnd t id) s = .next u ∧ (u.qp x.queue).state = .error ∧
      s.ends u r x Ty.DONE Stat.RETRY_EXCEEDED (if x.desc.op = Op.ATOMIC then 0 else x.placed + m.placedBytes) 0)

/-! ### Kilpin Transport: answers and arriving requests (R195, R198 to R214) -/

/-- An ACK sets the bits of the packets it shows, and ends the message with SUCCESS when all are set; an answer for a message that the die does not
hold changes nothing but the round-trip estimates (R198). ATOMIC_RSP ends the atomic with the old value (R214);
NAK REVOKED, DENIED and RECV_REFUSED and an ERROR_RSP end the message with the status of R199, and NAK BUSY holds it back. An ERROR_RSP to a
read request of which more packets are outstanding leaves those to come: the request has noted its failure (R102, R131). -/
def Obligations.AnswersAct : Prop :=
  (∀ (s : State) (t : Nat) (p : Packet) (m : Msg), s.arrives p Pk.ACK → s.msg p.msgId = some m → m.node = p.src → m.kind ≠ .read →
    m.bad = [] → (m.acked ++ (ackPsnsOf p).filter (fun i => decide (i < m.npkts))).eraseDups.length ≠ m.npkts →
    ∃ v y, exec (.ack t p) s = .next (if m.kind = .col then (v.progress m.plan m.step).colAdvance m.plan else v) ∧ v.msg p.msgId = some y ∧
      (∀ i ∈ m.acked, i ∈ y.acked) ∧ ∀ i ∈ ackPsnsOf p, i < m.npkts → i ∈ y.acked)
  ∧ (∀ (s : State) (t r : Nat) (p : Packet) (m : Msg) (x : Rec), s.arrives p Pk.ACK → s.lastMsg r x p.msgId m → m.node = p.src →
    m.kind = .write ∨ m.kind = .send → x.desc.op = Op.WRITE ∨ x.desc.op = Op.SEND → s.takesEntry x x.links →
    m.bad = [] → m.err = none → (m.acked ++ (ackPsnsOf p).filter (fun i => decide (i < m.npkts))).eraseDups.length = m.npkts →
    ∃ u, exec (.ack t p) s = .next u ∧ u.msg p.msgId = none ∧ s.ends u r x Ty.DONE Stat.SUCCESS x.desc.total x.data)
  ∧ (∀ (s : State) (t : Nat) (p : Packet) (m : Msg), s.arrives p Pk.ACK → s.msg p.msgId = some m → m.node = p.src → m.kind ≠ .read →
    m.bad = [] → (m.acked ++ (ackPsnsOf p).filter (fun i => decide (i < m.npkts))).eraseDups.length = m.npkts →
    (∀ x ∈ s.qm.recs, x.2.source = 0) →
    ∃ v, exec (.ack t p) s = .next (if m.kind = .col then (v.progress m.plan m.step).colAdvance m.plan else v) ∧ v.msg p.msgId = none)
  ∧ (∀ (s : State) (t : Nat) (p : Packet) (aes : Option AesHit) (c : Instr), s.msg p.msgId = none →
    (s.arrives p Pk.ACK ∧ c = .ack t p) ∨ (s.arrives p Pk.NAK ∧ c = .nak t p) ∨ (s.arrives p Pk.ATOMIC_RSP ∧ c = .atomicRsp t p) ∨
      (s.arrives p Pk.ERROR_RSP ∧ c = .errorRsp t p) ∨ (s.arrives p Pk.READ_RSP ∧ c = .readRsp t p aes) →
    ∃ u, exec c s = .next u ∧
      u = { s.at t with
        sw := { s.sw with ejected := u.sw.ejected }
        tr := { s.tr with flights := u.tr.flights } })
  ∧ (∀ (s : State) (t r : Nat) (p : Packet) (m : Msg) (x : Rec), s.arrives p Pk.ATOMIC_RSP → s.lastMsg r x p.msgId m → m.node = p.src →
    m.kind = .atomic → x.desc.op = Op.ATOMIC → s.takesEntry x x.links →
    ∃ u, exec (.atomicRsp t p) s = .next u ∧ u.msg p.msgId = none ∧
      s.ends u r x Ty.DONE Stat.SUCCESS (aopSize x.desc.aop) (if x.desc.fetch = true then p.w6 else x.data))
  ∧ (∀ (s : State) (t r : Nat) (p : Packet) (m : Msg) (x : Rec), s.arrives p Pk.NAK → s.lastMsg r x p.msgId m → m.node = p.src →
    p.nakReason = Nk.REVOKED ∨ p.nakReason = Nk.DENIED ∨ p.nakReason = Nk.RECV_REFUSED → s.takesEntry x x.links →
    ∃ u, exec (.nak t p) s = .next u ∧ s.failsWith u r x p.msgId m (if p.nakReason = Nk.REVOKED then Stat.REGION_REVOKED
      else if p.nakReason = Nk.DENIED then Stat.REGION_DENIED else Stat.RECEIVE_REFUSED) 0)
  ∧ (∀ (s : State) (t : Nat) (p : Packet) (m : Msg), s.arrives p Pk.NAK → s.msg p.msgId = some m → m.node = p.src → p.nakReason = Nk.BUSY →
    ∃ u y, exec (.nak t p) s = .next u ∧ u.msg p.msgId = some y ∧ y.busy = some (max s.now t, max (s.rto (Tbl.find s.tr.flights m.node)) (p.nakHint * 1000))
      ∧ y.busyPsn = none ∧ y.acked = m.acked)
  ∧ (∀ (s : State) (t r : Nat) (p : Packet) (m : Msg) (x : Rec), s.arrives p Pk.ERROR_RSP → s.lastMsg r x p.msgId m → m.node = p.src →
    p.nakReason ≤ 1 → s.takesEntry x x.links →
    (m.kind = .read → m.err = none ∧ p.psn ∉ m.acked ∧ p.psn ∉ m.bad ∧ m.acked.length + m.bad.length + 1 = m.rspCount) →
    ∃ u, exec (.errorRsp t p) s = .next u ∧
      s.failsWith u r x p.msgId m (if p.nakReason = 0 then Stat.MEMORY_ERROR else Stat.PORT_ERROR) (if p.nakReason = 0 then p.w4 else 0))
  ∧ (∀ (s : State) (t : Nat) (p : Packet) (m : Msg), s.arrives p Pk.ERROR_RSP → s.msg p.msgId = some m → m.node = p.src → m.kind = .read →
    m.err = none → p.nakReason = 0 → p.psn ∉ m.acked → p.psn ∉ m.bad → m.acked.length + m.bad.length + 1 ≠ m.rspCount →
    ∃ u y, exec (.errorRsp t p) s = .next u ∧ u.msg p.msgId = some y ∧ y.bad = m.bad ++ [p.psn] ∧ y.acked = m.acked
      ∧ y.err = some (Stat.MEMORY_ERROR, p.w4) ∧ u.qm.recs = s.qm.recs)

/-- The first packet of a WRITE or SEND that passes its checks takes an ASSEMBLING entry, counts there, and its bytes go on their way to the address
it names, or to the buffer of the oldest waiting RECV, which it binds (R204 to R207, R210). Where the place sleeps, the WRITE waits, accepted
and counted in its region (R69, R482). A Keeper message of one packet is delivered to the
Lamp room (R205, R219). -/
def Obligations.RequestsArePlaced : Prop :=
  (∀ (s : State) (t i : Nat) (p : Packet), s.arrives p Pk.WRITE_DATA → s.rd (rdKey p) = none →
    s.regionCheck p.inc p.key p.addr p.plen false true false = .ok i → (s.part (s.region (keyIdx p.key)).owner).fabricEnc = false →
    s.ready (s.needsOf p.addr p.plen) = true → s.partsPoison [(p.addr, p.pay)] = none → s.pool.bad = [] → (s.freeEntry (s.dieOf p.src) p.beacon).isSome = true →
    p.msgLen ≤ p.plen ∨ (s.freeBitmap (s.dieOf p.src) p.beacon).isSome = true →
    ∃ u e y, exec (.writeData t p none []) s = .next u ∧ u.rd (rdKey p) = some e ∧ e.delivered = false ∧ e.psns = [p.psn] ∧ e.bytes = p.plen
      ∧ e.len = p.msgLen ∧ Tbl.find u.io.places s.io.nextId = some y ∧ y.parts = [(p.addr, p.pay)] ∧ (u.region i).busy = (s.region i).busy + 1
      ∧ u.pool.mem = s.pool.mem)
  ∧ (∀ (s : State) (t r : Nat) (p : Packet), s.arrives p Pk.SEND_DATA → s.rd (rdKey p) = none → s.receiveCheck p = .ok r →
    (s.part (s.qp p.destQpn).part).fabricEnc = false → s.ready (s.recvNeeds r p) = true → s.partsPoison (s.recvParts r p p.pay) = none →
    s.pool.bad = [] → (s.freeEntry (s.dieOf p.src) p.beacon).isSome = true → p.msgLen ≤ p.plen ∨ (s.freeBitmap (s.dieOf p.src) p.beacon).isSome = true →
    ∃ u e y, exec (.sendData t p none) s = .next u ∧ u.rd (rdKey p) = some e ∧ e.delivered = false ∧ e.psns = [p.psn] ∧ e.bytes = p.plen
      ∧ e.recv = some r ∧ (u.qp p.destQpn).recvs = (s.qp p.destQpn).recvs.erase r ∧ Tbl.find u.io.places s.io.nextId = some y
      ∧ y.parts = s.recvParts r p p.pay ∧ u.pool.mem = s.pool.mem)
  ∧ (∀ (s : State) (t i : Nat) (p : Packet), s.arrives p Pk.WRITE_DATA → s.rd (rdKey p) = none →
    s.regionCheck p.inc p.key p.addr p.plen false true false = .ok i → (s.part (s.region (keyIdx p.key)).owner).fabricEnc = false →
    s.ready (s.needsOf p.addr p.plen) = false →
    ∃ u ds, exec (.writeData t p none []) s = .next u ∧ u.rd (rdKey p) = none ∧ (u.region i).busy = (s.region i).busy + 1
      ∧ (ds, Work.accepted p p.pay (s.take p).1 i) ∈ u.waiting ∧ u.pool.mem = s.pool.mem)
  ∧ (∀ (s : State) (t : Nat) (p : Packet), s.arrives p Pk.MGT_DATA → s.rd (rdKey p) = none → p.msgLen = p.plen → p.destQpn = 0 →
    16 ≤ p.plen → bits (wordAt p.pay 0) 52 4 = 1 → 1 ≤ bits (wordAt p.pay 0) 56 8 → bits (wordAt p.pay 0) 56 8 ≤ 0x0D →
    (s.freeEntry (s.dieOf p.src) p.beacon).isSome = true →
    ∃ u e, exec (.mgtData t p) s = .next u ∧ u.rd (rdKey p) = some e ∧ e.delivered = true ∧
      u.tr.inbox = s.tr.inbox ++ [(p.src, 0, p.pay)])

/-- A READ_REQ of one packet from Gallery memory is answered with those bytes, and leaves no entry (R213); a READ_RSP that its request waits for is
staged and goes on its way to the request's place (R212, R213). -/
def Obligations.ReadsAreAnswered : Prop :=
  (∀ (s : State) (t i : Nat) (p : Packet), s.arrives p Pk.READ_REQ → s.node ≠ some p.src →
    s.regionCheck p.inc p.key p.addr p.msgLen true false false = .ok i → (s.part (s.region (keyIdx p.key)).owner).fabricEnc = false →
    s.ready (s.needsOf p.addr p.msgLen) = true → winOf p.addr = 1 → s.io.places = [] → s.firstPoison (bitsN p.addr 0 48) p.msgLen = none →
    s.pool.bad = [] → cutCount p.addr p.msgLen p.pshift = 1 → p.want.testBit 0 = true →
    ∃ u, exec (.readReq t p none []) s = .next u ∧ u.tr.rds = s.tr.rds ∧ ∃ k ∈ u.inqOf (128 + s.dieOf p.src), k.pkt.type = Pk.READ_RSP ∧
      k.pkt.dst = p.src ∧ k.pkt.msgId = p.msgId ∧ k.pkt.psn = 0 ∧ k.pkt.pay = u.gRead (bitsN p.addr 0 48) p.msgLen
      ∧ ((∀ l ∈ linesOf (bitsN p.addr 0 48) p.msgLen, (s.biasOf (l / 4096)).shared = false) →
        u.pool.mem = s.pool.mem ∧ k.pkt.pay = s.gRead (bitsN p.addr 0 48) p.msgLen))
  ∧ (∀ (s : State) (t : Nat) (p : Packet) (m : Msg), s.arrives p Pk.READ_RSP → s.msg p.msgId = some m → m.node = p.src →
    m.lacks p.psn p.plen = true → s.pool.bad = [] →
    s.ready (s.partsNeeds (layOut (cutExt m.dst (cutAt m.raddr m.len m.pshift p.psn).1 (cutAt m.raddr m.len m.pshift p.psn).2) p.pay)) = true →
    s.partsPoison (layOut (cutExt m.dst (cutAt m.raddr m.len m.pshift p.psn).1 (cutAt m.raddr m.len m.pshift p.psn).2) p.pay) = none →
    ∃ u y z, exec (.readRsp t p none) s = .next u ∧ u.msg p.msgId = some y ∧ y.staged = m.staged ++ [p.psn] ∧ y.acked = m.acked ∧
      Tbl.find u.io.places s.io.nextId = some z ∧
      z.parts = layOut (cutExt m.dst (cutAt m.raddr m.len m.pshift p.psn).1 (cutAt m.raddr m.len m.pshift p.psn).2) p.pay)

/-- The ACK of one placement leaves when it falls due, showing its PSN with the TS and the mark of its copy, and nothing stays due (R195, R208). A DELIVERED entry is freed after 4 ms (R204); an
ASSEMBLING one is then abandoned, counted, and its RECV returns to the head of its queue pair's receives (R211). -/
def Obligations.EntriesAcknowledgeAndExpire : Prop :=
  (∀ (s : State) (t k psn ts : Nat) (ece : Bool) (e : Rd), s.rd k = some e → e.due = [(psn, ts, ece)] → e.dueAt ≤ max s.now t →
    s.node ≠ some e.src → e.src < 2 ^ 14 → e.msgId < 2 ^ 32 → psn < 2 ^ 11 →
    ∃ u y, exec (.ackDelayTimer t k) s = .next u ∧ u.rd k = some y ∧ y.due = [] ∧ ∃ j ∈ u.inqOf (128 + s.dieOf e.src), j.pkt.type = Pk.ACK ∧
      j.pkt.dst = e.src ∧ j.pkt.msgId = e.msgId ∧ j.pkt.ts = ts % 2 ^ 48 ∧ j.pkt.ece = ece ∧ ackPsnsOf j.pkt = [psn])
  ∧ (∀ (s : State) (t k : Nat) (e : Rd), s.rd k = some e → e.delivered = true → e.since + tDup ≤ max s.now t →
    ∃ u, exec (.rdEntryExpire t k) s = .next u ∧ u.rd k = none)
  ∧ (∀ (s : State) (t k r : Nat) (e : Rd), s.rd k = some e → e.delivered = false → e.since + tDup ≤ max s.now t → e.recv = some r →
    ∃ u, exec (.assemblingAbandon t k) s = .next u ∧ u.rd k = none ∧ (u.qp e.qpn).recvs = r :: (s.qp e.qpn).recvs ∧
      u.fld F.TRN_COUNT_COUNT 9 = (s.fld F.TRN_COUNT_COUNT 9 + 1) % 2 ^ 64)

/-! ### Fabric links (R256 to R276) -/

/-- Training (R264 to R268): ENABLE with the engine ON starts DETECT, lane lock ALIGN, codeword alignment NEGOTIATE with a TRAIN flit; the peer's
TRAIN leads to FAILED without a common version, to MGT_ONLY with the reason of R266, or to MEASURE in the highest common version; each ECHO is
answered; the 64th answer gives the delay δ and SYNC. -/
def Obligations.PortsTrain : Prop :=
  (∀ (s : State) (t p : Nat) (w : Word), p < s.nPorts → bit (s.reg .FAB_PORT_CFG p) 31 = false → bit w 31 = true → s.engineOn p = true →
    s.writesNow .FAB_PORT_CFG p w → (s.port p).state = .disabled → ∃ u, exec (.fabPortEnable t p w) s = .next u ∧ (u.port p).state = .detect)
  ∧ (∀ (s : State) (t p : Nat), (s.port p).state = .detect → s.engineOn p = true →
    ∃ u, exec (.fabLaneLock t p) s = .next u ∧ (u.port p).state = .align)
  ∧ (∀ (s : State) (t p : Nat), (s.port p).state = .align →
    ∃ u bs, exec (.fabAlignDone t p) s = .next u ∧ (u.port p).state = .negotiate ∧ .flit p bs ∈ u.egress ∧ bs.getD 7 0 = 8 ∧ bs.length = 64)
  ∧ (∀ (s : State) (t p v node port dim dir reserve : Nat) (valid fs : Bool), (s.port p).state = .negotiate →
    ∃ u, exec (.train t p v valid node port dim dir reserve fs) s = .next u ∧
      (if Nat.land s.fabVersions v % 4 = 0 then (u.port p).state = .failed ∧ (u.port p).reason = 1
       else (u.port p).version = (if (Nat.land s.fabVersions v).testBit 1 = true then 0x11 else 0x10) ∧
        match s.identityBad p ⟨v, valid, node, port, dim, dir, reserve⟩ with
        | some r => (u.port p).state = .mgtOnly ∧ (u.port p).reason = r
        | none => (u.port p).state = .measure ∧ (u.port p).peerNode = (if valid = true then node else 0)
            ∧ .flit p (ctlFlit 3 (leBytes 6 (max s.now t % 2 ^ 48))) ∈ u.egress))
  ∧ (∀ (s : State) (t p time : Nat), (s.port p).state = .measure ∨ (s.port p).state = .sync →
    ∃ u, exec (.echo t p time) s = .next u ∧ .flit p (ctlFlit 4 (leBytes 6 (time % 2 ^ 48) ++ [0, 0] ++ leBytes 6 0)) ∈ u.egress)
  ∧ (∀ (s : State) (t p echoed hold : Nat) (a : Rat), (s.port p).state = .measure → (s.port p).echoes = 63 → (s.port p).minDelay = some a →
    ∃ u, exec (.echoRsp t p echoed hold) s = .next u ∧ (u.port p).state = (if (s.port p).frameSeen = true then .up else .sync) ∧
      (u.port p).delay = (min a ((((max s.now t + 2 ^ 48 - echoed) % 2 ^ 48 - hold : Nat) : Rat) / 2)).ceil.toNat)

/-- An UP port that loses lock, meets UE_LIMIT or is told to retrain goes back to DETECT and counts it, or to FAILED past RETRAIN_LIMIT in one second
(R267); a FAILED port whose RETRAIN is written starts again (R264); loss of a laser takes the four ports of its engine down with REASON LASER
(R254). -/
def Obligations.PortsRetrain : Prop :=
  (∀ (s : State) (t p : Nat), (s.port p).state = .up →
    ∃ u, exec (.fabLockLost t p) s = .next u ∧ (u.port p).retrains = satAdd (s.port p).retrains 1 8 ∧
      (if ((s.port p).history.filter (fun a => decide (max s.now t < a + 1000000000))).length < max 1 (s.fld F.FAB_LINK_CFG_RETRAIN_LIMIT)
       then (u.port p).state = .detect else (u.port p).state = .failed ∧ (u.port p).reason = 5))
  ∧ (∀ (s : State) (t p : Nat), (s.port p).state = .up →
    max 1 (s.fld F.FAB_LINK_CFG_UE_LIMIT) ≤ ((s.port p).ueTimes.filter (fun a => decide (max s.now t < a + 1000000))).length →
    (s.port p).history = [] →
    ∃ u, exec (.ueLimitReached t p) s = .next u ∧ (u.port p).state = .detect ∧ (u.port p).retrains = satAdd (s.port p).retrains 1 8)
  ∧ (∀ (s : State) (t p : Nat) (w : Word), p < s.nPorts → bit (s.reg .FAB_PORT_CFG p) 31 = true → bit w 31 = true → bit w 29 = true →
    (s.port p).history = [] → s.writesNow .FAB_PORT_CFG p w →
    ∃ u, exec (.fabPortRetrain t p w) s = .next u ∧
      ((s.port p).state = .up → (u.port p).state = .detect ∧ (u.port p).retrains = satAdd (s.port p).retrains 1 8) ∧
      ((s.port p).state = .failed → s.engineOn p = true → (u.port p).state = .detect ∧ (u.port p).reason = 0))
  ∧ (∀ (s : State) (t e : Nat), e < s.nEngines →
    ∃ u, exec (.laserLost t e false) s = .next u ∧ (u.engine e).laserLow = true ∧
      ∀ p ∈ List.range' (4 * e) 4, (s.port p).state ≠ .disabled → (u.port p).state = .failed)

/-- Credits (R260, R262, R271): a CREDIT flit brings each returned count to the counter it shows, modulo 2^20; an AUDIT flit brings each accepted
count to its counter and frees the difference; CREDIT goes out within 16 codewords, HEALTH each millisecond in version 1.1, and an arriving
HEALTH is kept. A bad codeword is counted (R258, R261); a header-only packet in a good one enters the port's input list. -/
def Obligations.LinkFlits : Prop :=
  (∀ (s : State) (t p : Nat) (cs : List Nat), (s.port p).carries = true →
    ∃ u, exec (.credit t p cs) s = .next u ∧ ∀ i < 20, Tbl.get 0 (u.port p).ret i % 2 ^ 20 = cs.getD i 0 % 2 ^ 20 ∧
      Tbl.get 0 (s.port p).ret i ≤ Tbl.get 0 (u.port p).ret i)
  ∧ (∀ (s : State) (t p : Nat) (cs : List Nat), (s.port p).carries = true →
    ∃ u, exec (.audit t p cs) s = .next u ∧ ∀ i < 20, Tbl.get 0 (u.port p).rx i % 2 ^ 20 = cs.getD i 0 % 2 ^ 20 ∧
      Tbl.get 0 (u.port p).freed i + Tbl.get 0 (s.port p).rx i = Tbl.get 0 (s.port p).freed i + Tbl.get 0 (u.port p).rx i)
  ∧ (∀ (s : State) (t p : Nat), (s.port p).carries = true → 256 ≤ 5 * (max s.now t - (s.port p).creditAt) →
    ∃ u, exec (.creditFlitTimer t p) s = .next u ∧ .flit p (ctlFlit 1 (ctrBytes (s.port p).freed)) ∈ u.egress ∧ (u.port p).creditAt = max s.now t)
  ∧ (∀ (s : State) (t p c n : Nat), (s.port p).carries = true → (s.port p).version = 0x11 →
    ∃ u, exec (.health t p c n) s = .next u ∧ (u.port p).peerCorrected = c % 2 ^ 32 ∧ (u.port p).peerUncorrectable = n % 2 ^ 32)
  ∧ (∀ (s : State) (t p : Nat), (s.port p).carries = true → (s.port p).version = 0x11 → (s.port p).healthAt + 1000000 ≤ max s.now t →
    ∃ u, exec (.healthFlitTimer t p) s = .next u ∧
      .flit p (ctlFlit 9 (leBytes 4 (s.port p).corrected ++ leBytes 4 (s.port p).uncorrectable)) ∈ u.egress)
  ∧ (∀ (s : State) (t p : Nat) (c : Codeword), p < s.nPorts → (s.port p).carries = true → cwBad c = true →
    ∃ u, exec (.codewordReceived t p c) s = .next u ∧ (u.port p).uncorrectable = satAdd (s.port p).uncorrectable 1 32)
  ∧ (∀ (s : State) (t p : Nat) (c : Codeword) (b : List Byte) (rest : List (List Byte)), p < s.nPorts → (s.port p).state = .up → cwBad c = false →
    (s.port p).rxHead = none → (s.port p).parseLost = false → c.slots = b :: rest → (∀ y ∈ rest, (y.getD 7 0).toNat / 16 = 0) →
    (b.getD 7 0).toNat / 16 ≠ 0 → (Packet.ofBytes b).plen = 0 → (Packet.ofBytes b).enc = false →
    (aged (Packet.ofBytes b) 1 (s.port p).delay).isSome = true →
    ∃ u, exec (.codewordReceived t p c) s = .next u ∧ ∃ k ∈ u.inqOf p, k.pkt = Packet.ofBytes b)

/-! ### The switch and the scheduler (R221 to R229, R234, R242, R251, R275, R281 to R288) -/

/-- A packet for this node leaves the switch, one without a route is discarded and counted, one with a single candidate that has credit goes to that
output's list (R281 to R284); a waiting packet past its lifetime is discarded and counted (R192, R284). An output that can start takes the
next head and is busy for its length (R225, R226). A frame boundary lets the waiting calendar changes take effect and sends AUDIT (R260, R275).
A stop bars every output that it covers (R288). -/
def Obligations.SwitchMoves : Prop :=
  (∀ (s : State) (t i k : Nat) (x : SwPkt) (q : Packet), (s.inqOf i)[k]? = some x → x.msg = none → x.eject = false →
    ((s.inqOf i).take k).any (fun y => y.inVc == x.inVc) = false → s.node = some x.pkt.dst → s.ready (s.ejectDoms x) = true →
    (if x.pkt.type = Pk.COL_DATA then (s.colRoute x).all (fun r => decide (255 ≤ r.2.2)) else s.half || s.dieOf x.pkt.src == inputDie i) = true → aged x.pkt 1 (max s.now t - x.at0 + x.delta) = some q →
    ∃ u, exec (.switchPacketArrival t i k) s = .next u ∧ (x.at0, q) ∈ u.sw.ejected ∧ u.inqOf i = (s.inqOf i).eraseIdx k)
  ∧ (∀ (s : State) (t i k : Nat) (x : SwPkt), (s.inqOf i)[k]? = some x → x.msg = none → x.eject = false →
    ((s.inqOf i).take k).any (fun y => y.inVc == x.inVc) = false → s.node ≠ some x.pkt.dst → x.pkt.type ≠ Pk.COL_DATA →
    s.overEth x.pkt.dst = false → s.hasRoute x.pkt.dst = false →
    ∃ u, exec (.switchPacketArrival t i k) s = .next u ∧ u.fld F.SWT_COUNT_COUNT 0 = (s.fld F.SWT_COUNT_COUNT 0 + 1) % 2 ^ 64
      ∧ u.inqOf i = (s.inqOf i).eraseIdx k)
  ∧ (∀ (s : State) (t i k : Nat) (x : SwPkt) (c : Cand), (s.inqOf i)[k]? = some x → x.msg = none → x.eject = false →
    ((s.inqOf i).take k).any (fun y => y.inVc == x.inVc) = false → s.node ≠ some x.pkt.dst → x.pkt.type ≠ Pk.COL_DATA →
    s.overEth x.pkt.dst = false → s.hasRoute x.pkt.dst = true → s.candidates x.pkt = [c] → s.barred c.o x = false →
    (s.poolFor c.o c.vc x.pkt.flits c.escape).isSome = true → (s.half || outputDie c.o == inputDie i) = true →
    ∃ u, exec (.switchPacketArrival t i k) s = .next u ∧ u.inqOf i = (s.inqOf i).eraseIdx k ∧
      ∃ l ∈ (u.out c.o).lists, ∃ j ∈ l.2, j.pkt = x.pkt ∧ j.vc = c.vc ∧ j.out = some c.o)
  ∧ (∀ (s : State) (t i key k : Nat) (x : SwPkt), i < 256 → (s.inqOf i)[k]? = some x → x.frame = [] →
    aged x.pkt (b2n x.dimIn.isSome) (max s.now t - x.at0 + x.delta) = none →
    ∃ u, exec (.ageLimitDiscard t i key k) s = .next u ∧ u.inqOf i = (s.inqOf i).eraseIdx k ∧
      u.fld F.TRN_COUNT_COUNT 2 = (s.fld F.TRN_COUNT_COUNT 2 + 1) % 2 ^ 64)
  ∧ (∀ (s : State) (t o : Nat) (h : Nat × Nat × SwPkt) (d : Tbl Nat), o < 128 → (s.out o).busyTo < ((max s.now t : Nat) : Rat) + 1 →
    (s.at t).nextHead o = some (h, d) → h.2.2.frame = [] → h.2.2.msg = none → (∀ e ∈ s.tr.msgs, (s.at t).tooLate e.2 = false) →
    (aged h.2.2.pkt (b2n h.2.2.dimIn.isSome) (max s.now t - h.2.2.at0 + h.2.2.delta)).isSome = true →
    ∃ u q res m, exec (.outputPacketStart t o none 0) s = .next u ∧ .packet o q res ∈ u.egress ∧ q.pay = h.2.2.pkt.pay ∧
      q.msgId = h.2.2.pkt.msgId ∧ ((max s.now t : Nat) : Rat) ≤ m ∧ m < ((max s.now t : Nat) : Rat) + 1 ∧
      (u.out o).busyTo = m + (s.lenAt o h.2.2 : Rat) / (s.rateOf o : Rat))
  ∧ (∀ (s : State) (t o : Nat), o < 128 → (s.port o).carries = true →
    ∃ u, exec (.frameBoundary t o) s = .next u ∧ .flit o (ctlFlit 2 (ctrBytes (s.port o).sent)) ∈ u.egress ∧
      ((s.out o).calNext ≠ [] → (u.out o).cal = (s.out o).calAfter ∧ (u.out o).calNext = []))
  ∧ (∀ (s : State) (t : Nat) (w : Word), s.writesNow .SWT_ROUTE_CTRL 0 w →
    ∃ u, exec (.swtRouteStop t w) s = .next u ∧ u.fld F.SWT_ROUTE_CTRL_STOP = bits w 0 6 ∧ (bit w 31 = true → ∀ o k, u.barred o k = true) ∧
      ∀ o k, o < 128 → (bits w 0 6).testBit (s.portDim o) = true → k.dimIn ≠ some (s.portDim o) → u.barred o k = true)

/-- Writes that R221, R234 and R242 guard take effect when they may and are ignored when they may not; the depth and delay of every queue of every
output are sampled each PERIOD, captured by a write to SCH_SAMPLE_SEL, and cleared after the capture (R251). -/
def Obligations.SchedulerSettings : Prop :=
  (∀ (s : State) (t : Nat) (w : Word), s.serving = true → ∃ u, exec (.schBeaconInjWrite t w) s = .next u ∧
    (if bits w 32 32 < s.beaconTotal then u = s.at t else u.fld F.SCH_BEACON_INJ_RATE = bits w 32 32))
  ∧ (∀ (s : State) (t j : Nat) (w : Word), s.serving = true → s.outFitted j = true → ∃ u, exec (.schBeaconPortWrite t j w) s = .next u ∧
    (if 128 ≤ j ∧ j < 136 then (bits w 32 16 ≠ 0 ∨ bits w 0 32 ≠ 0 → u = s.at t)
     else if s.allowanceOk j (bits w 32 16 * 64) (bits w 0 32) (fun k => Tbl.get 0 (s.out j).calAfter k == 0) = true
       then u.fld F.SCH_BEACON_PORT_BURST j = bits w 32 16 ∧ u.fld F.SCH_BEACON_PORT_RATE j = bits w 0 32
       else u = s.at t))
  ∧ (∀ (s : State) (t : Nat) (w : Word), s.serving = true → ∃ u, exec (.trnRetryHorizonWrite t w) s = .next u ∧
    (if horizonOk (min (max (bits w 0 11) 400) 2000 * 1000) (s.fld F.TRN_ETH_NETDELAY_NETDELAY) = true ∧
        (∀ e ∈ s.qm.qps, e.2.state = .free ∨ e.2.beacon = false ∨
          horizonFits e.2.burst e.2.rate (min (max (bits w 0 11) 400) 2000 * 1000) = true)
     then u.fld F.TRN_RETRY_HORIZON_HORIZON = bits w 0 11 else u = s.at t))
  ∧ (∀ (s : State) (t : Nat) (w : Word), s.serving = true → ∃ u, exec (.trnEthNetdelayWrite t w) s = .next u ∧
    (if horizonOk s.horizon (bits w 0 10) = true then u.fld F.TRN_ETH_NETDELAY_NETDELAY = bits w 0 10 else u = s.at t))
  ∧ (∀ (s : State) (t : Nat), s.sw.sampleAt + max 100 (s.fld F.SCH_SAMPLE_CFG_PERIOD) ≤ max s.now t → Tbl.rising s.sw.outs = true →
    ∃ u, exec (.schSamplePeriod t) s = .next u ∧ ∀ o x q, Tbl.find s.sw.outs o = some x → q < 64 →
      Tbl.get QSample.none (u.out o).samples q = x.sample (s.lenAt o) (max s.now t) q)
  ∧ (∀ (s : State) (t : Nat) (w : Word) (v : QSample), s.serving = true → Tbl.get QSample.none (s.out (bits w 8 8)).samples (bits w 0 6) = v →
    ∃ u, exec (.schSampleSelWrite t w) s = .next u ∧
      u.reg .SCH_SAMPLE_DATA = word (v.maxDelay * 2 ^ 48 + v.delay * 2 ^ 32 + v.maxDepth * 2 ^ 16 + v.depth) ∧
      Tbl.get QSample.none (u.out (bits w 8 8)).samples (bits w 0 6) = if bit w 31 = true then { v with maxDepth := 0, maxDelay := 0 } else v)

/-! ### Groups and plans (R326 to R342, R360, R361, R367) -/

/-- GROUP_CREATE takes the lowest free number, if its die's masked stacks hold the area, and makes it ACTIVE with the GEN operand (R327, R328);
GROUP_DESTROY frees an ACTIVE group without plans and answers BAD_STATE of one with plans (R327, R366); GROUP_QUERY writes the group's four
words (R367); GROUP_ABORT moves an ACTIVE group with plans to ABORTING in the next generation, which it answers, and stops every invocation
(R360, R367); when all have ended the group is ACTIVE again with every INV at 0 (R327, R360 step 5). -/
def Obligations.GroupsLive : Prop :=
  (∀ (s : State) (t r g : Nat) (x : Rec), s.begins r Op.GROUP_CREATE x → s.takesEntry x x.links →
    s.groupsHeld x.desc.part < (s.part x.desc.part).groups → g < s.nGroups → (s.group g).state = .free → (∀ h < g, (s.group h).state ≠ .free) →
    s.blocksHeld x.desc.part + bits x.desc.w2 0 22 ≤ (s.part x.desc.part).blocks →
    bits x.desc.w2 0 22 ≤ s.freeOn ((maskBits (bits x.desc.w3 0 20) 20).filter (fun k => decide (k < s.nStacks) && stackDie k == s.dieOf g)) →
    ∃ u, exec (.groupCreate t r) s = .next u ∧ u.group g = ⟨.active, x.desc.part, bits x.desc.w4 0 16, bits x.desc.w2 0 22, 0⟩
      ∧ s.replies u r x Stat.SUCCESS (word g))
  ∧ (∀ (s : State) (t r : Nat) (x : Rec), s.begins r Op.GROUP_DESTROY x → s.takesEntry x x.links →
    (s.group (bits x.desc.w2 0 12)).state = .active → (s.group (bits x.desc.w2 0 12)).part = x.desc.part →
    ∃ u, exec (.groupDestroy t r) s = .next u ∧
      if s.plansOf (bits x.desc.w2 0 12) = [] then (u.group (bits x.desc.w2 0 12)).state = .free ∧ s.replies u r x Stat.SUCCESS 0 ∧
        (Tbl.rising s.pool.blks = true → ∀ b i, (s.blk b).use = .groupArea (bits x.desc.w2 0 12) i → (s.blk b).state = .internal →
          (u.blk b).state = .freeing)
      else u.group (bits x.desc.w2 0 12) = s.group (bits x.desc.w2 0 12) ∧ s.replies u r x Stat.BAD_STATE 0)
  ∧ (∀ (s : State) (t r : Nat) (x : Rec) (a : Extent), s.begins r Op.GROUP_QUERY x → s.takesEntry x (linksOf x.xtra) → x.resultTo s a 32 →
    (s.group (bits x.desc.w2 0 12)).state = .free ∨ (s.group (bits x.desc.w2 0 12)).part = x.desc.part →
    ∃ u, exec (.groupQuery t r) s = .next u ∧ s.replies u r x Stat.SUCCESS 0 ∧ .linkWrite (s.locOf x.part a.addr)
      (wordBytes (word ((s.group (bits x.desc.w2 0 12)).state.code * 2 ^ 60 + (s.group (bits x.desc.w2 0 12)).gen % 2 ^ 16 * 2 ^ 32
          + (s.plansOf (bits x.desc.w2 0 12)).length % 2 ^ 16))
        ++ wordBytes (word ((s.group (bits x.desc.w2 0 12)).area % 2 ^ 22)) ++ wordBytes (s.group (bits x.desc.w2 0 12)).last
        ++ wordBytes (word ((s.plansOf (bits x.desc.w2 0 12)).filter (fun e => e.2.running)).length)) ∈ u.egress)
  ∧ (∀ (s : State) (t r : Nat) (x : Rec), s.begins r Op.GROUP_ABORT x →
    (s.group (bits x.desc.w2 0 12)).state = .active → (s.group (bits x.desc.w2 0 12)).part = x.desc.part → s.plansOf (bits x.desc.w2 0 12) ≠ [] →
    ∃ u, exec (.groupAbort t r) s = .next u ∧ u.aborts (bits x.desc.w2 0 12) (s.group (bits x.desc.w2 0 12)).gen 4 4095 65535 ∧
      (∀ k y, u.plan k = some y → y.group = bits x.desc.w2 0 12 → y.running = false ∧ y.queue = []) ∧
      (s.takesEntry x x.links → (∀ e ∈ s.plansOf (bits x.desc.w2 0 12), e.2.run = none ∧ e.2.queue = []) →
        s.replies u r x Stat.SUCCESS (word (((s.group (bits x.desc.w2 0 12)).gen + 1) % 65536))))
  ∧ (∀ (s : State) (t g : Nat), (s.group g).state = .aborting →
    (∀ e ∈ s.plansOf g, s.colPlacing e.1 = false ∧ (s.plan e.1).any (·.running) = false ∧ e.2.queue = []) →
    ∃ u, exec (.groupAbortEnd t g) s = .next u ∧ (u.group g).state = .active ∧ (u.group g).gen = (s.group g).gen ∧
      ∀ k y, u.plan k = some y → y.group = g → y.inv = 0 ∧ y.run = none)

/-- An image that PLAN_LOAD has read and that fails a check is answered PLAN_REJECTED with the first failing check's REASON and index, and no
plan and no calendar changes; one that passes takes a free slot of the group's die with its body, arrays and INV 0 (R340, R341).
PLAN_UNLOAD of an idle plan removes it and completes; of a running one it waits, and a COLLECTIVE finds the plan being unloaded; the end of the
invocation then completes it (R342). PLAN_QUERY writes the plan's four words (R367). -/
def Obligations.PlansLoadAndUnload : Prop :=
  (∀ (s v : State) (t r : Nat) (x : Rec) (b : List Byte), s.begins r Op.PLAN_LOAD x → s.takesEntry x x.links →
    ((s.at t).admWait r).gather x.part x.src (.admin r) = (v, some (.bytes b)) →
    ∃ u, exec (.planLoad t r) s = .next u ∧
      match v.planBad x.desc.part (bits x.desc.w4 0 12) b with
      | some (n, i) => s.replies u r x Stat.PLAN_REJECTED (word (n * 2 ^ 60 + i)) ∧ u.col = s.col ∧ ∀ o, (u.out o).calNext = (s.out o).calNext
      | none => ∃ k y, s.plan k = none ∧ u.plan k = some y ∧ (s.half = true ∨ k % 2 = bits x.desc.w4 0 12 % 2) ∧ y.body = imgBody b
          ∧ y.part = x.desc.part ∧ y.group = bits x.desc.w4 0 12 ∧ y.inv = 0 ∧ y.run = none ∧ y.arrays.length = (imgBody b).arrays)
  ∧ (∀ (s : State) (t r : Nat) (x : Rec) (p : Plan), s.begins r Op.PLAN_UNLOAD x → s.plan (bits x.desc.w2 0 14) = some p → p.state ≠ .loading →
    p.part = x.desc.part → p.queue = [] →
    ∃ u, exec (.planUnload t r) s = .next u ∧
      if p.running = true then u.waits r ∧ u.plan (bits x.desc.w2 0 14) = some { p with state := .unloading, unloaders := p.unloaders ++ [r] }
      else u.plan (bits x.desc.w2 0 14) = none ∧ (p.unloaders = [] → s.takesEntry x x.links → s.replies u r x Stat.SUCCESS 0))
  ∧ (∀ (s : State) (t k r : Nat) (x : Rec) (p : Plan), s.plan k = some p → p.state = .unloading → p.running = false → p.unloaders = [r] →
    s.getRec r = some x → isAdm x.queue = true → s.takesEntry x x.links →
    ∃ u, exec (.planUnloadResume t k) s = .next u ∧ u.plan k = none ∧ s.replies u r x Stat.SUCCESS 0)
  ∧ (∀ (s : State) (t r : Nat) (x : Rec) (a : Extent) (p : Plan), s.begins r Op.PLAN_QUERY x → s.takesEntry x (linksOf x.xtra) → x.resultTo s a 32 →
    s.plan (bits x.desc.w2 0 14) = some p → p.part = x.desc.part →
    ∃ u, exec (.planQuery t r) s = .next u ∧ s.replies u r x Stat.SUCCESS 0 ∧ .linkWrite (s.locOf x.part a.addr)
      (wordBytes (word (p.body.id * 2 ^ 32 + p.inv % 2 ^ 32))
        ++ wordBytes (word ((if p.state = .unloading then 2 else if p.running = true then 1 else 0) * 2 ^ 60 + p.group % 2 ^ 12))
        ++ wordBytes (word ((p.run.map (fun y => if y.ended then 0 else y.done.length)).getD 0 % 2 ^ 16))
        ++ wordBytes (word (p.arrays.head?.getD 0 % 512))) ∈ u.egress)

/-! ### Running a collective (R343 to R360) -/

/-- A COLLECTIVE that names no plan ends with PERMISSION_DENIED, one of another generation with GROUP_ABORTED of cause STALE_GEN, and one that passes
the checks waits for its invocation (R343). The invocation starts with INV one higher, its signature, and every step without AFTER started
(R345, R354); it ends with INV and the bytes written (R357). A pass whose bytes are present is begun, and its rounded result goes on its way
to the destination (R295, R345, R356); an array fault aborts the group with cause ARRAY (R321, R359). -/
def Obligations.InvocationsRun : Prop :=
  (∀ (s : State) (t r : Nat) (x : Rec), s.recReady r Op.COLLECTIVE = some x → s.plan (bits x.desc.w2 0 14) = none → s.takesEntry x x.links →
    ∃ u, exec (.collective t r) s = .next u ∧ s.ends u r x Ty.COLLECTIVE Stat.PERMISSION_DENIED 0 0)
  ∧ (∀ (s : State) (t r : Nat) (x : Rec) (y : Plan), s.recReady r Op.COLLECTIVE = some x → s.plan (bits x.desc.w2 0 14) = some y →
    y.part = x.part → y.state = .loaded → s.unloadFetched (bits x.desc.w2 0 14) y.part = false → bits x.desc.w2 32 12 = y.group →
    bits x.desc.w2 48 16 ≠ (s.group y.group).gen → s.takesEntry x x.links →
    ∃ u, exec (.collective t r) s = .next u ∧ u.col = s.col ∧
      s.ends u r x Ty.COLLECTIVE Stat.GROUP_ABORTED 0 (abortData 8 4095 65535 (s.group y.group).gen))
  ∧ (∀ (s : State) (t r : Nat) (x : Rec) (y : Plan) (e : List (List Extent)), s.recReady r Op.COLLECTIVE = some x →
    s.plan (bits x.desc.w2 0 14) = some y → y.part = x.part → y.state = .loaded → s.unloadFetched (bits x.desc.w2 0 14) y.part = false →
    bits x.desc.w2 32 12 = y.group → bits x.desc.w2 48 16 = (s.group y.group).gen → (s.group y.group).state = .active → bits x.desc.w5 0 40 = y.body.count → y.body.kind ≠ 5 →
    s.colTranslate x.part x.desc (y.body.sizes 0) = .ok e →
    (∀ l ∈ linksOf (e.getD 0 [] ++ e.getD 1 [] ++ e.getD 2 []), (s.link l).lost = false) →
    ∃ u, exec (.collective t r) s = .next u ∧ u.waits r ∧ u.plan (bits x.desc.w2 0 14) = some { y with queue := y.queue ++ [r] })
  ∧ (∀ (s : State) (t k c : Nat) (y : Plan) (d : Rec), s.plan k = some y → y.running = false → (s.group y.group).state = .active →
    (s.colQueue y).head? = some c → s.getRec c = some d → d.phase = .waiting → s.ready (s.colDoms k y (d.src ++ d.dst)) = true →
    ∃ u z r, exec (.invocationStart t k) s = .next u ∧ u.plan k = some z ∧ z.inv = (y.inv + 1) % 2 ^ 32 ∧ z.run = some r ∧ r.recId = c ∧
      r.sig = colSig y.body d.desc ∧ ∀ i st, y.body.steps[i]? = some st → st.afterA = 0xFFFF → st.afterB = 0xFFFF → st.stream = false →
        st.toStream = false → i ∈ r.started)
  ∧ (∀ (s : State) (t k : Nat) (y : Plan) (r : Run) (c : Rec), s.runOf k = some (y, r) → (∀ i < y.body.steps.length, i ∈ r.done) →
    y.body.kind ≠ 5 → r.drops = [] → s.getRec r.recId = some c → s.takesEntry c c.links →
    ∃ u, exec (.invocationEnd t k) s = .next u ∧ u.runOf k = none ∧
      s.ends u r.recId { c with node := 0 } Ty.COLLECTIVE Stat.SUCCESS r.bytes (word (y.inv % 2 ^ 32 * 2 ^ 32)))
  ∧ (∀ (s : State) (t k i : Nat) (y : Plan) (r : Run) (st : PStep), s.runOf k = some (y, r) → y.body.steps[i]? = some st → st.op = 3 →
    i ∈ r.started → Tbl.get 0 r.next i < st.passes → Tbl.has r.cur i = false → r.missing y.body i st (Tbl.get 0 r.next i) = [] →
    s.arrayFree ((y.arrays[st.aux]?).getD 0) = true → s.clean →
    ∃ u z v p, exec (.passBegin t k i []) s = .next u ∧ u.runOf k = some (z, v) ∧ Tbl.get 0 v.next i = Tbl.get 0 r.next i + 1 ∧
      Tbl.find v.cur i = some p ∧ p.idx = Tbl.get 0 r.next i)
  ∧ (∀ (s : State) (t k i : Nat) (y : Plan) (r : Run) (st : PStep) (p : Pass) (cs : List (List Byte × List Byte)), s.runOf k = some (y, r) →
    y.body.steps[i]? = some st → Tbl.find r.cur i = some p → p.contribs = some cs → s.clean →
    ∃ u w, exec (.passEnd t k i 0) s = .next u ∧ Tbl.find u.io.places s.io.nextId = some w ∧
      w.parts = layOut (s.spaceExts y r st.dstSpace st.dstSlot
          (y.body.ranges st.dstSpace st.dstSlot (st.dstOff + passElems * p.idx) (st.passLen p.idx)))
        (packCodes y.body.ctl.outFmt (reducePass y.body.control y.body.seed (st.elem + passElems * p.idx) (st.passLen p.idx) cs).codes
          ++ (reducePass y.body.control y.body.seed (st.elem + passElems * p.idx) (st.passLen p.idx) cs).scales.map (BitVec.ofNat 8)))
  ∧ (∀ (s : State) (t k i kind : Nat) (y : Plan) (r : Run) (st : PStep) (p : Pass), s.runOf k = some (y, r) → y.body.steps[i]? = some st →
    Tbl.find r.cur i = some p → p.contribs.isSome = true → (s.group y.group).state = .active → kind = 1 ∨ kind = 2 →
    ∃ u, exec (.passEnd t k i kind) s = .next u ∧ u.aborts y.group (s.group y.group).gen 6 y.body.self i ∧ u.runOf k = none ∧
      ((s.physArray ((y.arrays[st.aux]?).getD 0)).getD 1023) ∈ u.arr.failed)

/-- At the end of its route a DATA packet that a started RECV waits for, of its signature and within its window, is noted in the receive map and
goes on its way to its place; a copy of one placed is acknowledged again; a differing signature aborts the group and names its sender
(R352, R353, R355). A READY for the next invocation is kept and acknowledged (R346, R347). An ABORT of the current generation aborts the
group with its cause, member and step, and is acknowledged (R360). A step that waits LAG_LIMIT is reported once, and one that waits
ABORT_AFTER aborts the group with cause POLICY (R358). -/
def Obligations.CollectivePacketsAct : Prop :=
  (∀ (s : State) (t k : Nat) (p : Packet) (x : Plan) (r : Run) (st : PStep), s.colArrives p 0 k x → x.run = some r → r.ended = false →
    p.inv = x.inv → x.ended p = false → x.body.steps[p.colStep]? = some st → st.recvOf p.origin = true → p.colStep ∈ r.started → p.w6 = r.sig →
    p.colOff / 4096 ∉ Tbl.get [] r.maps p.colStep → p.colOff + p.plen ≤ Tbl.get 0 r.grants p.colStep → 1 ≤ p.plen → st.toStream = false →
    s.pool.bad = [] → s.partsPoison (s.colParts x r st p p.pay) = none →
    ∃ u z v w, exec (.colData t p none) s = .next u ∧ u.runOf k = some (z, v) ∧ p.colOff / 4096 ∈ Tbl.get [] v.maps p.colStep ∧
      Tbl.find u.io.places s.io.nextId = some w ∧ w.parts = s.colParts x r st p p.pay ∧ u.pool.mem = s.pool.mem)
  ∧ (∀ (s : State) (t k : Nat) (p : Packet) (x : Plan) (r : Run) (st : PStep), s.colArrives p 0 k x → x.run = some r →
    p.inv = x.inv → x.ended p = false → x.body.steps[p.colStep]? = some st → st.recvOf p.origin = true → p.colStep ∈ r.started → p.w6 = r.sig →
    p.colOff / 4096 ∈ Tbl.get [] r.maps p.colStep → p.colOff / 4096 ∈ Tbl.get [] r.met p.colStep →
    ∃ u, exec (.colData t p none) s = .next u ∧ s.acks u p ∧ u.col = s.col ∧ u.io.places = s.io.places ∧
      u.fld F.COL_COUNT_COUNT 3 = (s.fld F.COL_COUNT_COUNT 3 + 1) % 2 ^ 64)
  ∧ (∀ (s : State) (t k : Nat) (p : Packet) (x : Plan) (r : Run) (st : PStep), s.colArrives p 0 k x → x.run = some r →
    p.inv = x.inv → x.ended p = false → x.body.steps[p.colStep]? = some st → st.recvOf p.origin = true → p.colStep ∈ r.started → p.w6 ≠ r.sig →
    (s.group x.group).state = .active →
    ∃ u, exec (.colData t p none) s = .next u ∧ u.aborts x.group (s.group x.group).gen 1 p.origin p.colStep ∧ u.runOf k = none)
  ∧ (∀ (s : State) (t k i : Nat) (p : Packet) (x : Plan), s.colArrives p 1 k x → x.run = none → p.inv = (x.inv + 1) % 2 ^ 32 →
    x.body.sendFor p.origin p.colStep = some i →
    ∃ u z, exec (.colReady t p none) s = .next u ∧ u.plan k = some z ∧ (∃ e ∈ z.readys, e.1 = p.inv ∧ e.2.1 = i ∧ p.colOff ≤ e.2.2) ∧ s.acks u p)
  ∧ (∀ (s : State) (t k : Nat) (p : Packet) (x : Plan), s.colArrives p 2 k x → (s.group x.group).state = .active →
    ∃ u, exec (.colAbort t p none) s = .next u ∧ s.acks u p ∧
      u.aborts x.group (s.group x.group).gen p.cause (bits p.w4 0 12) (bits p.w4 12 16) ∧ u.runOf k = none)
  ∧ (∀ (s : State) (t k i t0 m : Nat) (x : Plan) (r : Run) (c : Rec), s.lagOf k i = some (x, r, t0, m) → t0 + x.body.lag * 1000 ≤ max s.now t →
    i ∉ r.noticed → s.getRec r.recId = some c → s.takesEntry c [] → m < 4096 → i < 65536 →
    ∃ u z v, exec (.lagLimitTimer t k i) s = .next u ∧ u.runOf k = some (z, v) ∧ i ∈ v.noticed ∧
      s.entryWrite { c with node := x.body.nodes.getD m 0 } Ty.NOTICE Stat.LAGGING 0
        (word (x.inv % 2 ^ 32 * 2 ^ 32 + m * 2 ^ 20 + i * 16)) ∈ u.egress)
  ∧ (∀ (s : State) (t k i t0 m : Nat) (x : Plan) (r : Run), s.lagOf k i = some (x, r, t0, m) → x.body.abort ≠ 0 →
    t0 + x.body.abort * 1000 ≤ max s.now t → (s.group x.group).state = .active →
    ∃ u, exec (.abortAfterTimer t k i) s = .next u ∧ u.aborts x.group (s.group x.group).gen 2 m i ∧ u.runOf k = none)

/-! ### Ethernet (R369 to R395) -/

/-- The frame of an ETH_SEND and the frames of an ETH_SEGMENT are queued on the port of their queue pair, tagged, with their offloads applied, padded
and closed with an FCS (R374, R377), or refused where the partition may not send them (R375). An ETH_RECV waits for a frame (R378). A good
frame that matches a filter of an active queue pair goes to its oldest RECV, and one that matches none is counted and dropped (R379 to
R382); one that finds no RECV within RX_HOLD is dropped (R382). The last frame that leaves completes its descriptor; one that fails its check
leaves with an inverted FCS and is sent once more (R376, R392). -/
def Obligations.EthernetFramesMove : Prop :=
  (∀ (s v : State) (t r e : Nat) (x : Rec) (b : List Byte), s.recReady r Op.ETH_SEND = some x → (s.qp x.queue).ethPort = some e →
    ((s.at t).putRec r { x with phase := .running }).gather x.part x.src (.ethFrame r) = (v, some (.bytes b)) → (s.ethPort e).up = true →
    s.takesEntry x x.links →
    ∃ u f, exec (.ethSend t r) s = .next u ∧
      f = (offload (bit x.desc.w3 46) (bit x.desc.w3 45) (if bit x.desc.w3 47 = true then addTag (bits x.desc.w3 48 16) b else b)).1 ∧
      if s.maySend e x.part f = true then ∃ l ∈ (u.out (128 + e)).lists, ∃ k ∈ l.2, k.frame = closeFrame f ∧ k.recId = some r
      else s.ends u r x Ty.DONE Stat.PERMISSION_DENIED 0 0)
  ∧ (∀ (s v : State) (t r e : Nat) (x : Rec) (b : List Byte), s.recReady r Op.ETH_SEGMENT = some x → (s.qp x.queue).ethPort = some e →
    ((s.at t).putRec r { x with phase := .running }).gather x.part x.src (.ethFrame r) = (v, some (.bytes b)) → (s.ethPort e).up = true →
    x.part = 0 → x.desc.op = Op.ETH_SEGMENT →
    ∃ u, exec (.ethSegment t r) s = .next u ∧ ∀ i < ceilDiv x.desc.len (segMss x.desc), ∃ l ∈ (u.out (128 + e)).lists, ∃ k ∈ l.2, k.recId = some r ∧
      k.frame = closeFrame (if bit x.desc.w5 37 = true then addTag (bits x.desc.w6 0 16)
          (segment x.desc (b.take (hdrLen x.desc)) (b.drop (hdrLen x.desc)) i (ceilDiv x.desc.len (segMss x.desc)))
        else segment x.desc (b.take (hdrLen x.desc)) (b.drop (hdrLen x.desc)) i (ceilDiv x.desc.len (segMss x.desc))))
  ∧ (∀ (s : State) (t r e : Nat) (x : Rec), s.recReady r Op.ETH_RECV = some x → (s.qp x.queue).ethPort = some e →
    (∀ f ∈ (s.ethPort e).held, f.qpn ≠ x.queue) →
    ∃ u, exec (.ethRecv t r) s = .next u ∧ (u.qp x.queue).recvs = (s.qp x.queue).recvs ++ [r] ∧ u.waits r)
  ∧ (∀ (s : State) (t e i r : Nat) (f : EthFrame) (w0 w1 : Word) (x : Rec), (s.ethPort e).up = true → (s.dom (portDom e)).state = .on →
    64 ≤ f.bytes.length → f.bytes.length ≤ 9216 → f.ended = false → f.codeErr = false → f.crcBad = false → fcsOk f.bytes = true →
    frameType f.bytes ≠ 0x8808 → s.isKt e f.bytes = false → s.filterFor e f.bytes = some (i, w0, w1) → bit w0 62 = false →
    (s.qp (bits w1 0 16)).state = .active → (s.qp (bits w1 0 16)).part = bits w0 56 6 → (s.qp (bits w1 0 16)).ethPort = some e →
    (s.qp (bits w1 0 16)).rq.isSome = true → s.fld F.SCH_PART_POLICE_RATE (bits w0 56 6) = 0 → (s.ethPort e).held = [] →
    f.bytes.length ≤ s.fld F.ETH_PFC_THRESH_LIMIT e (s.prioOf e f.bytes) * 1024 → (s.qp (bits w1 0 16)).recvs.head? = some r →
    s.getRec r = some x → (delivered (s.qp (bits w1 0 16)) f.bytes).length ≤ x.desc.len →
    s.pool.bad = [] → s.partsPoison (layOut (cutExt x.dst 0 (delivered (s.qp (bits w1 0 16)) f.bytes).length) (delivered (s.qp (bits w1 0 16)) f.bytes)) = none →
    ∃ u w, exec (.ethFrameReceived t e f) s = .next u ∧ Tbl.find u.io.places s.io.nextId = some w ∧
      w.parts = layOut (cutExt x.dst 0 (delivered (s.qp (bits w1 0 16)) f.bytes).length) (delivered (s.qp (bits w1 0 16)) f.bytes) ∧
      u.fld F.ETH_COUNT_COUNT e 0 = (s.fld F.ETH_COUNT_COUNT e 0 + 1) % 2 ^ 64)
  ∧ (∀ (s : State) (t e : Nat) (f : EthFrame), (s.ethPort e).up = true → (s.dom (portDom e)).state = .on → 18 ≤ f.bytes.length →
    f.ended = false → frameType f.bytes ≠ 0x8808 → s.isKt e f.bytes = false → s.filterFor e f.bytes = none →
    ∃ u, exec (.ethFrameReceived t e f) s = .next u ∧ u.fld F.ETH_COUNT_COUNT e 3 = (s.fld F.ETH_COUNT_COUNT e 3 + 1) % 2 ^ 64 ∧
      u.ethPort e = s.ethPort e ∧ u.io = s.io ∧ u.pool = s.pool)
  ∧ (∀ (s : State) (t e : Nat) (f : HeldFrame) (fs : List HeldFrame), (s.ethPort e).held = f :: fs →
    f.at0 + s.fld F.ETH_RX_CFG_RX_HOLD e * 1000 ≤ max s.now t →
    ∃ u, exec (.rxHoldExpiry t e) s = .next u ∧ (u.ethPort e).held = fs ∧
      u.fld F.ETH_COUNT_COUNT e 4 = (s.fld F.ETH_COUNT_COUNT e 4 + 1) % 2 ^ 64)
  ∧ (∀ (s : State) (t e r : Nat) (k : SwPkt) (x : Rec), (s.out (128 + e)).cur = some k → (s.out (128 + e)).busyTo ≤ ((max s.now t : Nat) : Rat) →
    k.recId = some r → s.getRec r = some x → x.left = 1 → x.desc.op = Op.ETH_SEND → s.takesEntry x x.links →
    ∃ u, exec (.ethFrameTxDone t e false) s = .next u ∧ .frame e k.frame ∈ u.egress ∧
      s.ends u r x Ty.DONE Stat.SUCCESS (x.desc.len + if bit x.desc.w3 47 = true then 4 else 0) 0)
  ∧ (∀ (s : State) (t e r : Nat) (k : SwPkt) (x : Rec), (s.out (128 + e)).cur = some k → (s.out (128 + e)).busyTo ≤ ((max s.now t : Nat) : Rat) →
    k.recId = some r → s.getRec r = some x → k.psn ∉ x.aux →
    ∃ u, exec (.ethFrameTxDone t e true) s = .next u ∧
      .frame e (k.frame.take (k.frame.length - 4) ++ (k.frame.drop (k.frame.length - 4)).map (fun b => ~~~b)) ∈ u.egress ∧
      ∀ b, (s.qp x.queue).ethPort = some e → (s.ethPort e).up = true → linksOf x.src = [] → s.clean →
        (framesOf x.desc (x.src.flatMap (fun a => s.mRead a.addr a.len))).1[k.psn]? = some b →
        (∃ y, u.getRec r = some y ∧ y.aux = k.psn :: x.aux) ∧
          ∃ l ∈ (u.out (128 + e)).lists, ∃ j, l.2.head? = some j ∧ j.frame = closeFrame b ∧ j.recId = some r ∧ j.psn = k.psn)

/-- A held-off priority's PFC frame is repeated each PFC_REFRESH, and a pause ends at its time (R386, R387). A port trains when ENABLE is written to
1, is UP when its training ends, and loses its queued frames, pauses and XOFF state when the link falls (R370, R393). A write to word 1 commits a
filter entry (R379). The gates stop at the end of a cycle, take ETH_GATE_STOP then, restart after their check, and follow their list
(R390, R391); an offset is added to the timer only while they are stopped (R389). A matching frame wakes port die 0 (R395). -/
def Obligations.EthernetPortsRun : Prop :=
  (∀ (s : State) (t e p a : Nat), Tbl.find (s.ethPort e).xoff p = some a → a + max 1 (s.fld F.ETH_RX_CFG_PFC_REFRESH e) * 1000 ≤ max s.now t →
    (s.out (128 + e)).cur = none → (s.ethPort e).pfcDue = [] →
    ∃ u, exec (.pfcRefreshTimer t e p) s = .next u ∧ .frame e (s.pfcFrame e [(p, 65535)]) ∈ u.egress ∧
      Tbl.find (u.ethPort e).xoff p = some (max s.now t))
  ∧ (∀ (s : State) (t e p : Nat) (a : Rat), Tbl.find (s.ethPort e).pauses p = some a → a ≤ ((max s.now t : Nat) : Rat) →
    ∃ u, exec (.pfcPauseExpiry t e p) s = .next u ∧ Tbl.find (u.ethPort e).pauses p = none ∧
      ∀ q, q ≠ p → Tbl.find (u.ethPort e).pauses q = Tbl.find (s.ethPort e).pauses q)
  ∧ (∀ (s : State) (t e : Nat), (s.ethPort e).training = true →
    ∃ u, exec (.ethLinkUp t e) s = .next u ∧ (u.ethPort e).up = true ∧ (u.ethPort e).training = false)
  ∧ (∀ (s : State) (t e : Nat) (far : Bool), (s.ethPort e).up = true →
    ∃ u, exec (.ethLinkDown t e far) s = .next u ∧ (u.ethPort e).up = false ∧ (u.ethPort e).remoteFault = far ∧ (u.ethPort e).pauses = [] ∧
      (u.ethPort e).xoff = [] ∧ (u.out (128 + e)).lists = [] ∧ (u.ethPort e).held = (s.ethPort e).held ∧
      u.fld F.ETH_PORT_STATUS_LINK_DOWNS e = satAdd (s.fld F.ETH_PORT_STATUS_LINK_DOWNS e) 1 16 ∧
      ∀ l ∈ (s.out (128 + e)).lists, ∀ k ∈ l.2, ∀ r y, k.recId = some r → u.getRec r = some y → y.phase = .ended)
  ∧ (∀ (s : State) (t e : Nat) (w : Word), e < s.nEth → bit w 31 = true → s.serving = true → s.start.lampOut = false →
    ∃ u, exec (.ethPortEnable t e w) s = .next u ∧
      if bit (s.reg .ETH_PORT_CFG e) 31 = true then u.fld F.ETH_PORT_CFG_SPEED e = s.fld F.ETH_PORT_CFG_SPEED e
      else if bits w 0 3 = 5 then u = s.at t
      else (bits w 0 2 ≤ 1 → (u.ethPort e).training = true ∧ u.fld F.ETH_PORT_CFG_SPEED e = bits w 0 2) ∧
        (2 ≤ bits w 0 2 → u.fld F.ETH_PORT_CFG_SPEED e = s.fld F.ETH_PORT_CFG_SPEED e ∧
          (bits (s.reg .ETH_PORT_CFG e) 0 3 ≠ 5 → (u.ethPort e).training = true)))
  ∧ (∀ (s : State) (t e f : Nat) (w : Word), e < s.nEth → f < 256 → s.serving = true →
    ∃ u w1, exec (.ethFilterCommit t e f w) s = .next u ∧ Tbl.find (u.ethPort e).filters f = some (s.reg .ETH_FILTER_W0 e f, w1) ∧
      bits w1 0 16 = bits w 0 16 ∧ ∀ g, g ≠ f → Tbl.find (u.ethPort e).filters g = Tbl.find (s.ethPort e).filters g)
  ∧ (∀ (s : State) (t e : Nat) (w : Word), e < s.nEth → bit w 31 = false → s.flag F.ETH_GATE_CTRL_STOPPED e = false → s.writesNow .ETH_GATE_CTRL e w →
    ∃ u a, exec (.ethGateStop t e w) s = .next u ∧ u.flag F.ETH_GATE_CTRL_RUN e = false ∧ (u.ethPort e).stopAt = some a ∧
      (u.ethPort e).gates = (s.ethPort e).gates ∧ (s.ethPort e).start ≤ a ∧
      ((s.ethPort e).start ≤ (s.at t).ethTimer e → (s.at t).ethTimer e < a ∧ (a - (s.ethPort e).start) % s.gateCycle e = 0))
  ∧ (∀ (s : State) (t e a : Nat), (s.ethPort e).stopAt = some a → a ≤ (s.at t).ethTimer e →
    ∃ u, exec (.gateStopTakesHold t e) s = .next u ∧ u.flag F.ETH_GATE_CTRL_STOPPED e = true ∧
      (u.ethPort e).gates = s.fld F.ETH_GATE_STOP_GATES e ∧ (u.ethPort e).stopAt = none)
  ∧ (∀ (s : State) (t e : Nat) (w : Word), e < s.nEth → bit w 31 = true → s.flag F.ETH_GATE_CTRL_STOPPED e = true → s.writesNow .ETH_GATE_CTRL e w →
    ∃ u, exec (.ethGateRestart t e w) s = .next u ∧ u.fld F.ETH_GATE_CTRL_LEN e = bits w 0 9 ∧
      if (List.range 64).all (fun q => match longestOpen (u.gateList e) (s.gateCycle e) q with
          | none => true
          | some n => n == 0 || decide (9236 ≤ n * s.ethRate e)) = true
      then u.flag F.ETH_GATE_CTRL_RUN e = true ∧ u.flag F.ETH_GATE_CTRL_STOPPED e = false ∧ u.flag F.ETH_GATE_CTRL_ERROR e = false ∧
        (s.at t).ethTimer e + 1000 ≤ (u.ethPort e).start ∧ ∃ k, (u.ethPort e).start = (s.reg .ETH_GATE_BASE e).toNat + k * s.gateCycle e
      else u.flag F.ETH_GATE_CTRL_ERROR e = true ∧ u.flag F.ETH_GATE_CTRL_STOPPED e = true)
  ∧ (∀ (s : State) (t e : Nat), s.flag F.ETH_GATE_CTRL_STOPPED e = false → (s.ethPort e).start ≤ (s.at t).ethTimer e →
    ∃ u, exec (.gateEntryStart t e) s = .next u ∧
      (u.ethPort e).gates = gatesAt (s.gateList e) (((s.at t).ethTimer e - (s.ethPort e).start) % s.gateCycle e))
  ∧ (∀ (s : State) (t e : Nat) (w : Word), e < s.nEth → s.writesNow .ETH_TIMER_ADJ e w →
    ∃ u, exec (.ethTimerAdjWrite t e w) s = .next u ∧
      if s.flag F.ETH_GATE_CTRL_STOPPED e = true then u.ethTimer e = ((s.at t).ethTimer e + w.toNat) % 2 ^ 64
      else u = { s.at t with io := u.io })
  ∧ (∀ (s : State) (t : Nat) (f : EthFrame), s.flag F.ETH_WAKE_CFG_ENABLE = true →
    (s.dom (portDom 0)).state = .off ∨ (s.dom (portDom 0)).state = .retain → s.fld F.LAMP_STATUS_STAGE ≠ 8 → s.wakeSources f.bytes ≠ 0 →
    ∃ u, exec (.ethWakeMatch t f) s = .next u ∧ u.reg .ETH_WAKE_STATUS = word (2 ^ 31 + s.wakeSources f.bytes) ∧
      (u.dom (portDom 0)).state = .waking)

/-! ### Partitions (R397 to R409, R430) -/

/-- PART_CREATE of a FREE number, and PART_QUOTA, ask for their 64 B record; a good record makes the partition ACTIVE in the next generation, and a
new quota replaces the old one unless it would take away what is held (R402, R403). PART_QUERY writes the record and what is held (R430).
PART_RESET and an FLR of a host-link VF stop an ACTIVE partition: RESETTING, the next generation, no region OPEN, no message of a data descriptor
left, every other partition as before; a second one joins (R405, R406, R409). When the link reads are back, its queue pairs and rings are FREE
and it is ACTIVE again (R406 steps 5 to 8); PART_DESTROY ends in FREE with the generation kept (R404, R408). -/
def Obligations.PartitionsLive : Prop :=
  (∀ (s : State) (t r : Nat) (x : Rec), s.admStart r Op.PART_CREATE = some x → (s.part x.desc.part).state = .free →
    ∃ u k, exec (.partCreate t r) s = .next u ∧ u.waits r ∧ .linkRead k ⟨0, 0, x.desc.w2.toNat⟩ 64 ((s.link 0).mode == 2) ∈ u.egress)
  ∧ (∀ (s v : State) (r : Nat) (x : Rec) (q : Desc), (s.part x.desc.part).state = .free → s.recordBad q = none → s.sumBad x.desc.part q = none →
    s.takePool x.desc.part 0 (poolBlocks (Part.ofQuota q).pagesWanted) = some v →
    ((s.partCreate r x q).part x.desc.part).state = .active ∧ ((s.partCreate r x q).part x.desc.part).quota = q ∧
      ((s.partCreate r x q).part x.desc.part).gen = ((s.part x.desc.part).gen + 1) % 65536)
  ∧ (∀ (s : State) (t r : Nat) (x : Rec), s.begins r Op.PART_QUOTA x →
    ∃ u k, exec (.partQuota t r) s = .next u ∧ u.waits r ∧ .linkRead k ⟨0, 0, x.desc.w2.toNat⟩ 64 ((s.link 0).mode == 2) ∈ u.egress)
  ∧ (∀ (s v : State) (r : Nat) (x : Rec) (q : Desc), s.recordBad q = none → s.sumBad x.desc.part q = none →
    (s.inUse x.desc.part q = true → (s.partQuota r x q).part x.desc.part = s.part x.desc.part) ∧
    (s.inUse x.desc.part q = false →
      s.takePool x.desc.part (poolBlocks (s.part x.desc.part).pages) (poolBlocks (Part.ofQuota q).pagesWanted) = some v →
      ((s.partQuota r x q).part x.desc.part) = { s.part x.desc.part with quota := q, pages := (Part.ofQuota q).pagesWanted }))
  ∧ (∀ (s : State) (t r : Nat) (x : Rec), s.begins r Op.PART_QUERY x → s.takesEntry x x.links →
    ∃ u, exec (.partQuery t r) s = .next u ∧ s.replies u r x Stat.SUCCESS 0 ∧
      .linkWrite ⟨0, 0, x.desc.w7.toNat⟩ (descBytes (s.part x.desc.part).quota ++ s.holdings x.desc.part) ∈ u.egress)
  ∧ (∀ (s : State) (t r : Nat) (x : Rec), s.begins r Op.PART_RESET x →
    ∃ u, exec (.partReset t r) s = .next u ∧ (u.part x.desc.part).state = .resetting ∧ (∀ q, q ≠ x.desc.part → u.part q = s.part q) ∧
      if (s.part x.desc.part).state = .active then
        (u.part x.desc.part).gen = ((s.part x.desc.part).gen + 1) % 65536 ∧ (u.part x.desc.part).cmds = [r] ∧
        (∀ i, (s.region i).owner = x.desc.part → (u.region i).state ≠ .open) ∧
        ∀ e ∈ u.tr.msgs, e.2.part = x.desc.part → e.2.kind = .col ∨ e.2.kind = .mgt
      else (u.part x.desc.part).gen = (s.part x.desc.part).gen ∧ (u.part x.desc.part).cmds = (s.part x.desc.part).cmds ++ [r])
  ∧ (∀ (s : State) (t f : Nat), 1 ≤ f → f < 64 → (s.part f).state = .active →
    ∃ u, exec (.flr t 0 f) s = .next u ∧ (u.part f).state = .resetting ∧ (u.part f).gen = ((s.part f).gen + 1) % 65536 ∧ (u.part f).cmds = [] ∧
      u.fld F.PRT_COUNT_COUNT 2 = (s.fld F.PRT_COUNT_COUNT 2 + 1) % 2 ^ 64)
  ∧ (∀ (s : State) (t p : Nat), (s.part p).state = .resetting → s.readsOf p = false →
    ∃ u, exec (.partResetReadsDone t p) s = .next u ∧ (u.part p).state = .active ∧ (u.part p).gen = (s.part p).gen ∧ (u.part p).halted = false ∧
      (u.part p).faults = 0 ∧ (u.part p).cmds = [] ∧ (∀ n, (s.qp n).part = p → (u.qp n).state = .free) ∧
      (∀ n < 65536, (s.ring n).part = p → (u.ring n).state = .free))
  ∧ (∀ (s : State) (t r : Nat) (x : Rec), s.begins r Op.PART_DESTROY x → (s.part x.desc.part).state = .active →
    ∃ u, exec (.partDestroy t r) s = .next u ∧
      if x.desc.part = 0 then u.part 0 = s.part 0
      else (u.part x.desc.part).state = .destroying ∧ (u.part x.desc.part).gen = ((s.part x.desc.part).gen + 1) % 65536)
  ∧ (∀ (s : State) (t p : Nat), (s.part p).state = .destroying → s.readsOf p = false → s.ownBlocks p = [] →
    (∀ e ∈ s.pool.freeing, e.2.part ≠ p) →
    ∃ u, exec (.partResetReadsDone t p) s = .next u ∧ (u.part p).state = .free ∧ (u.part p).gen = (s.part p).gen)

/-! ### Keepers (R410 to R430) -/

/-- KEEPER_SET makes a WORKER, a MIRROR where MIRROR_OK allows it, or an active member that copies its record to the other one (R419, R430). FOG_PUBLISH
is refused on a worker, mirrored first by a pair, held without quorum, and published at once alone (R418, R421); REDIRECT_SET writes its entry
(R429). A member counts its LIGHTs (R412, R416); a mirror with quorum over a silent active member takes over in the next term (R421); a worker
that hears neither member is an orphan (R417). A command without quorum ends after 100 ms (R421); software that does not write KPR_SW_ALIVE
loses the role (R422). A worker follows the highest term (R414); a higher term makes an active member a WORKER, and a WAITING one that
hears its mirror is PAIRED (R419). The mirror records each change, and the active member applies it once acknowledged (R418). -/
def Obligations.KeepersDecide : Prop :=
  (∀ (s : State) (t r : Nat) (x : Rec), s.admStart r Op.KEEPER_SET = some x → s.takesEntry x x.links → s.kpr.copier = none →
    bits x.desc.w2 60 4 ≤ 2 →
    ∃ u, exec (.keeperSet t r) s = .next u ∧
      if bits x.desc.w2 60 4 = 2 ∧ s.flag F.KPR_CFG_MIRROR_OK = false then u.kpr = s.kpr ∧ s.replies u r x Stat.NOT_KEEPER 0
      else u.kpr.kgroup = bits x.desc.w2 48 12 ∧ u.kpr.other = some (bits x.desc.w2 0 14) ∧ u.kpr.size = bits x.desc.w3 0 9 ∧
        (bits x.desc.w2 60 4 = 0 → u.kpr.role = .worker ∧ s.replies u r x Stat.SUCCESS 0) ∧
        (bits x.desc.w2 60 4 = 2 → u.kpr.role = .mirror ∧ s.replies u r x Stat.SUCCESS 0) ∧
        (bits x.desc.w2 60 4 = 1 → u.kpr.role = .solo ∧ u.kpr.copier = some r ∧ u.kpr.active = s.node ∧ u.waits r))
  ∧ (∀ (s : State) (t r : Nat) (x : Rec), s.admStart r Op.FOG_PUBLISH = some x → s.takesEntry x x.links →
    ∃ u, exec (.fogPublish t r) s = .next u ∧
      (s.kpr.role.isActive = false → u.kpr = s.kpr ∧ s.replies u r x Stat.NOT_KEEPER 0) ∧
      (s.kpr.role = .waiting → u.waits r ∧ u.kpr.held = s.kpr.held ++ [.fog x.desc.w2 0 (some r)] ∧ u.kpr.fogSeq = s.kpr.fogSeq) ∧
      (s.kpr.role = .paired → u.waits r ∧ u.kpr.fogSeq = s.kpr.fogSeq ∧ (s.kpr.seq, .fog x.desc.w2 0 (some r)) ∈ u.kpr.syncs) ∧
      (s.kpr.role = .solo → s.kpr.copier = none → bits x.desc.w2 60 4 = 2 →
        u.kpr.fogSeq = (s.kpr.fogSeq + 1) % 2 ^ 32 ∧ s.replies u r x Stat.SUCCESS (word ((s.kpr.fogSeq + 1) % 2 ^ 32))))
  ∧ (∀ (s : State) (t r : Nat) (x : Rec), s.admStart r Op.REDIRECT_SET = some x → s.takesEntry x x.links → s.kpr.role.isActive = true →
    Tbl.has s.tr.redirs (bits x.desc.w2 32 32) = true ∨ s.tr.redirs.length < 4096 →
    ∃ u, exec (.redirectSet t r) s = .next u ∧ s.replies u r x Stat.SUCCESS 0 ∧
      Tbl.find u.tr.redirs (bits x.desc.w2 32 32) = (if bit x.desc.w6 0 = true then some ⟨bits x.desc.w2 0 16, bits x.desc.w4 0 50,
        bits x.desc.w3 0 14, bits x.desc.w3 32 32, bits x.desc.w3 16 16, bits x.desc.w5 0 50⟩ else none) ∧
      ∀ k, k ≠ bits x.desc.w2 32 32 → Tbl.find u.tr.redirs k = Tbl.find s.tr.redirs k)
  ∧ (∀ (s : State) (t : Nat), s.kpr.role ≠ .worker → s.kpr.lightAt + s.lightPeriod ≤ max s.now t → s.kpr.seq < 2 ^ 32 →
    ∃ u, exec (.lightPeriod t) s = .next u ∧ u.kpr.lightAt = max s.now t ∧
      u.kpr.seq = (s.kpr.seq + s.lightNodes.length + (if s.kpr.other.isSome = true then 1 else 0)) % 2 ^ 32 ∧
      ∀ n ∈ s.lightNodes, Tbl.has u.kpr.answers n = true)
  ∧ (∀ (s : State) (t n : Nat), s.kpr.role = .mirror → s.kpr.other = some n → (s.at t).silent n = true → (s.at t).quorum = true →
    ∃ u, exec (.keeperSilence t n) s = .next u ∧ u.kpr.role = .solo ∧ u.kpr.term = (s.kpr.term + 1) % 2 ^ 32 ∧ u.kpr.active = s.node)
  ∧ (∀ (s : State) (t n : Nat), s.kpr.role = .worker → n ∈ s.members → (∀ m ∈ s.members, (s.at t).silent m = true) →
    ∃ u, exec (.keeperSilence t n) s = .next u ∧ u.kpr = { s.kpr with orphan := true })
  ∧ (∀ (s : State) (t r : Nat) (x : Rec), s.getRec r = some x → isAdm x.queue = true → x.desc.op = Op.FOG_PUBLISH → x.phase = .waiting →
    s.kpr.role = .waiting → x.aux.getD 0 0 + 100000000 ≤ max s.now t → s.takesEntry x x.links →
    ∃ u, exec (.noQuorumTimeout t r) s = .next u ∧ s.replies u r x Stat.NO_QUORUM 0 ∧ u.kpr.fogSeq = s.kpr.fogSeq ∧ u.kpr.fogs = s.kpr.fogs)
  ∧ (∀ (s : State) (t : Nat), s.kpr.role ≠ .worker → s.fld F.KPR_CFG_SW_LIMIT ≠ 0 →
    s.kpr.swAt + s.fld F.KPR_CFG_SW_LIMIT * 1000000 ≤ max s.now t →
    ∃ u, exec (.swWatchExpiry t) s = .next u ∧ u.kpr.role = .worker ∧ u.kpr.syncs = [] ∧ u.kpr.held = [])
  ∧ (∀ (s : State) (t : Nat), s.serving = true → ∃ u, exec (.kprSwAliveWrite t) s = .next u ∧ u.kpr = { s.kpr with swAt := max s.now t })
  ∧ (∀ (s v : State) (t k : Nat) (m : KMsg), s.takeMsg k 0x01 = some (m, v) → m.kgroup = s.kpr.kgroup →
    ∃ u, exec (.light t k) s = .next u ∧
      (s.kpr.role = .worker → bits (wordAt m.body 1) 60 4 = 1 ∨ bits (wordAt m.body 1) 60 4 = 2 → s.kpr.term < m.term →
        u.kpr.active = some m.src ∧ u.kpr.term = m.term ∧ u.kpr.other = some (bits (wordAt m.body 1) 0 14) ∧ u.kpr.orphan = false ∧
          Tbl.find u.kpr.heard m.src = some (max s.now t)) ∧
      (s.kpr.role.isActive = true → s.kpr.term < m.term → u.kpr.role = .worker ∧ u.kpr.term = m.term ∧ u.kpr.active = some m.src))
  ∧ (∀ (s v : State) (t k : Nat) (m : KMsg), s.takeMsg k 0x02 = some (m, v) → s.kpr.role ≠ .worker → (s.mapEntry m.src).kgroup = s.kpr.kgroup →
    ∃ u, exec (.lightAnswer t k) s = .next u ∧ Tbl.find u.kpr.answers m.src = some (max s.now t, bit (wordAt m.body 0) 47))
  ∧ (∀ (s v : State) (t k : Nat) (m : KMsg), s.takeMsg k 0x03 = some (m, v) → m.kgroup = s.kpr.kgroup → s.kpr.role = .waiting →
    s.kpr.other = some m.src →
    ∃ u, exec (.pairLight t k) s = .next u ∧
      if s.kpr.term < m.term then u.kpr.role = .worker ∧ u.kpr.term = m.term else u.kpr.role = .paired)
  ∧ (∀ (s v : State) (t k n : Nat) (m : KMsg) (w : Word), s.takeMsg k 0x0A = some (m, v) → s.kpr.other = some m.src → s.kpr.role = .mirror →
    m.body ≠ [] → Change.ofBytes m.body = some (.fog w n none) →
    ∃ u, exec (.mirrorSync t k) s = .next u ∧ u.kpr.fogSeq = (s.kpr.fogSeq + 1) % 2 ^ 32 ∧ u.kpr.fogs.length = s.kpr.fogs.length + 1)
  ∧ (∀ (s v : State) (t k : Nat) (m : KMsg) (c : Change), s.takeMsg k 0x0A = some (m, v) → s.kpr.other = some m.src → m.body = [] →
    Tbl.find s.kpr.syncs m.seq = some c →
    ∃ u, exec (.mirrorSync t k) s = .next u ∧ Tbl.find u.kpr.syncs m.seq = none)

/-- An adapter without a node ID asks for one each millisecond on its MGT_ONLY ports and takes the one assigned; its neighbour passes the JOIN on, and
the ASSIGN back (R415). A report is merged at the active member with its reporter (R425); a port out of UP for LINK_HOLD is a suspect named
by its lower end, reported once an interval (R423, R424); a probe that is not answered brings the verdict (R425). A fog signal of NODE_DEAD
marks the node and aborts the groups that name it, and a repeat is only counted (R427); a MAP_UPDATE gives the map its version and entry
(R414). A directory change is recorded (R418); an ORDER of the followed member is accepted as a command, and ORDER_DONE comes back (R413). -/
def Obligations.KeepersReport : Prop :=
  (∀ (s : State) (t : Nat), s.node = none → s.kpr.joinAt + 1000000 ≤ max s.now t → 5 ≤ s.stage → s.stage ≠ 8 →
    ∃ u, exec (.joinTimer t) s = .next u ∧ u.kpr.joinAt = max s.now t ∧ u.kpr.seq = (s.kpr.seq + 1) % 2 ^ 32 ∧
      ∀ p ∈ s.doors, ∃ bs, u.mgtQueued (65536 + p) 0 bs ∧ mtypeOf bs = 0x04)
  ∧ (∀ (s v : State) (t k : Nat) (m : KMsg), s.takeMsg k 0x04 = some (m, v) →
    ∃ u, exec (.join t k) s = .next u ∧
      if s.kpr.role.isActive = true then u.kpr.joins = s.kpr.joins ++ [(s.node.getD 0, s.joinPort m.src, m.raw)]
      else u.kpr.joins = s.kpr.joins ∧ u.kpr.seq = (if s.kpr.active.isSome = true then (s.kpr.seq + 1) % 2 ^ 32 else s.kpr.seq))
  ∧ (∀ (s v : State) (t k : Nat) (m : KMsg), s.takeMsg k 0x05 = some (m, v) →
    ∃ u, exec (.relay t k) s = .next u ∧
      (mtypeOf (m.body.drop 8) = 0x04 → s.kpr.role.isActive = true → m.kgroup = s.kpr.kgroup →
        u.kpr.joins = s.kpr.joins ++ [(m.src, bits (wordAt m.body 0) 0 7, m.body.drop 8)]) ∧
      (mtypeOf (m.body.drop 8) = 0x06 → s.fromActive m = true → (s.port (bits (wordAt m.body 0) 0 7)).state = .mgtOnly → (∀ n, s.node = some n → n < 16384) →
        u.mgtQueued (65536 + bits (wordAt m.body 0) 0 7) 0 (m.body.drop 8)))
  ∧ (∀ (s v : State) (t k : Nat) (m : KMsg), s.takeMsg k 0x06 = some (m, v) → s.node = none → 65536 ≤ m.src →
    ∃ u, exec (.assign t k) s = .next u ∧ u.node = some (bits (wordAt m.body 0) 50 14) ∧ u.nv.lastNode = some (bits (wordAt m.body 0) 50 14) ∧
      u.kpr.kgroup = bits (wordAt m.body 0) 38 12 ∧ u.kpr.term = bits (wordAt m.body 1) 0 32)
  ∧ (∀ (s v : State) (t k : Nat) (m : KMsg), s.takeMsg k 0x07 = some (m, v) → s.kpr.role.isActive = true → (s.mapEntry m.src).kind ≠ 0 →
    (s.mapEntry m.src).kgroup = s.kpr.kgroup → s.kpr.susp.length < 1024 →
    ∃ u, exec (.report t k) s = .next u ∧ u.fld F.KPR_COUNT_COUNT 3 = (s.fld F.KPR_COUNT_COUNT 3 + 1) % 2 ^ 64 ∧
      ∃ x ∈ u.kpr.susp, x.kind = bits (wordAt m.body 0) 60 4 ∧ x.node = bits (wordAt m.body 0) 46 14 ∧ x.port = bits (wordAt m.body 0) 39 7 ∧
        m.src ∈ x.sources)
  ∧ (∀ (s : State) (t p own : Nat), s.node = some own → (s.port p).downAt.isSome = true → (s.at t).heldDown p = true → (s.port p).peerValid = true →
    own < (s.port p).peerNode → (∀ y ∈ s.kpr.supp, ¬ (y.kind = 2 ∧ y.node = own ∧ y.port = p)) → s.kpr.supp.length < 255 →
    ∃ u, exec (.linkHoldExpiry t p) s = .next u ∧ (u.port p).downAt = none ∧
      ∃ y ∈ u.kpr.supp, y.kind = 2 ∧ y.node = own ∧ y.port = p ∧ y.at0 = max s.now t)
  ∧ (∀ (s : State) (t i : Nat) (x : Suppress), s.kpr.supp[i]? = some x → x.kept = false → x.at0 + s.suppressTime ≤ max s.now t →
    s.kpr.role.isActive = false →
    ∃ u, exec (.suppressIntervalEnd t i) s = .next u ∧
      if x.held = 0 then u.kpr.supp = s.kpr.supp.eraseIdx i
      else u.kpr.supp = s.kpr.supp.set i { x with at0 := max s.now t, held := 0 } ∧
        u.fld F.KPR_COUNT_COUNT 0 = (s.fld F.KPR_COUNT_COUNT 0 + 1) % 2 ^ 64)
  ∧ (∀ (s : State) (t i a : Nat) (x : Suspect), s.kpr.susp[i]? = some x → x.probeAt = some a → x.verdict = false → x.kind = 1 →
    a + s.fld F.KPR_LC_CFG_PROBE_WAIT * 1000 ≤ max s.now t → s.kpr.role = .solo → s.kpr.copier = none →
    ∃ u y, exec (.probeWaitExpiry t i) s = .next u ∧ u.kpr.susp[i]? = some y ∧ y.verdict = true ∧ u.kpr.fogSeq = (s.kpr.fogSeq + 1) % 2 ^ 32 ∧
      u.fld F.KPR_COUNT_COUNT 4 = (s.fld F.KPR_COUNT_COUNT 4 + 1) % 2 ^ 64)
  ∧ (∀ (s v : State) (t k n : Nat) (m : KMsg), s.takeMsg k 0x08 = some (m, v) → s.fromActive m = true → bits (wordAt m.body 0) 60 4 = 1 →
    bits (wordAt m.body 0) 46 14 = n → s.node ≠ some n →
    ∃ u, exec (.fog t k) s = .next u ∧
      if (1, n, bits (wordAt m.body 0) 39 7, bits (wordAt m.body 0) 0 16) ∈ s.kpr.acted then
        u.dmap = s.dmap ∧ u.col = s.col ∧ u.fld F.KPR_COUNT_COUNT 6 = (s.fld F.KPR_COUNT_COUNT 6 + 1) % 2 ^ 64
      else (u.mapEntry n).dead = true ∧ u.fld F.KPR_COUNT_COUNT 5 = (s.fld F.KPR_COUNT_COUNT 5 + 1) % 2 ^ 64 ∧
        ∀ j x, s.plan j = some x → n ∈ x.body.nodes → (s.group x.group).state = .active → (u.group x.group).state = .aborting)
  ∧ (∀ (s v : State) (t k n : Nat) (m : KMsg) (e : MapEntry), s.takeMsg k 0x09 = some (m, v) → s.fromActive m = true →
    mapEntries ((m.body.drop 8).length / 48) (m.body.drop 8) = [(n, e)] → e.kind ≠ 0 →
    ∃ u, exec (.mapUpdate t k) s = .next u ∧ u.kpr.version = bits (wordAt m.body 0) 0 32 ∧
      u.mapEntry n = (if (s.mapEntry n).epoch = e.epoch ∧ (s.mapEntry n).kind ≠ 0 ∧ (s.mapEntry n).dead = true then { e with dead := true } else e) ∧
      ∀ i, i ≠ n → u.mapEntry i = s.mapEntry i)
  ∧ (∀ (s v : State) (t k : Nat) (m : KMsg), s.takeMsg k 0x0B = some (m, v) → s.kpr.role = .solo → s.kpr.copier = none →
    (s.mapEntry m.src).kgroup = s.kpr.kgroup → bits (wordAt m.body 0) 60 4 = 1 →
    ∃ u, exec (.directory t k) s = .next u ∧ u.kpr.dir = s.kpr.dir ++ [m.body.drop 8] ∧ u.kpr.notes = s.kpr.notes ++ [(m.src, m.body)])
  ∧ (∀ (s v : State) (t k : Nat) (m : KMsg), s.takeMsg k 0x0C = some (m, v) → s.fromActive m = true → 64 ≤ m.body.length →
    s.admOk (Desc.ofBytes m.body) = true → s.start.lampOut = false → admRanges2 (Desc.ofBytes m.body) = ([], []) →
    admHost (Desc.ofBytes m.body).op = false →
    ∃ u y, exec (.order t k) s = .next u ∧ u.getRec s.io.nextId = some y ∧ y.desc = Desc.ofBytes m.body ∧ y.source = 1 ∧ y.srcQpn = m.src ∧
      y.phase = .accepted)
  ∧ (∀ (s v : State) (t k : Nat) (m : KMsg), s.takeMsg k 0x0D = some (m, v) → s.kpr.role.isActive = true →
    (s.mapEntry m.src).kgroup = s.kpr.kgroup →
    ∃ u, exec (.orderDone t k) s = .next u ∧ u.kpr.dones = s.kpr.dones ++ [(m.src, m.body)])

/-! ### Starts, resets and the image (R437 to R461, R490 to R493, R526, R528) -/

/-- 1 ms after MAIN_PG rises a start begins (R526): it counts itself under a new epoch and incarnation, sets VARIANT, checks the image and brings up
the dies and stacks (R436, R437, R439). An erased image area, or counters that cannot be written, bring lamp out (R436, R445, R447). A wave
powers two array groups, whose logical arrays are the working physical ones in order (R293, R438). With the last wave the START entry is
written while there is room, and partition 0 exists (R447, R450, R452); the last engine's wave ends the start at READY or LAMP_OUT (R437). -/
def Obligations.StartsRun : Prop :=
  (∀ (s : State) (t : Nat), s.pwr.pgAt = none → ∃ u, exec (.mainPgRise t) s = .next u ∧ u.pwr.pgAt = some (max s.now t) ∧ u.start = s.start)
  ∧ (∀ (s : State) (t a : Nat) (x : StartInput), s.pwr.pgAt = some a → a + 1000000 ≤ max s.now t → s.stage = 0 → s.start.running = false →
    s.pwr.atWarn = [] → s.soundStart x → (∀ k < 20, (s.stack k).state ≠ .evacuating) →
    ∃ u, exec (.supplyGood t x) s = .next u ∧ u.atArrays ∧ u.start.warm = false ∧ u.nv.rtc = 0 ∧ u.nv.rtcAt = max s.now t
      ∧ u.nv.epoch = (s.nv.epoch + 1) % 65536 ∧ u.nv.starts = (s.nv.starts + 1) % 2 ^ 32 ∧ u.nv.inc = (s.nv.inc + 1) % 65536
      ∧ (x.imageOk = true → s.nv.image = [] → u.start.lampOut = true ∧ u.fld F.LAMP_STATUS_REASON = Img.NO_IMAGE)
      ∧ (x.imageOk = false → u.start.lampOut = true ∧ u.fld F.LAMP_STATUS_REASON = Img.NOR_ERROR))
  ∧ (∀ (s : State) (t w : Nat), s.start.running = true → s.stage = 3 → w = s.start.waves.length → w < s.sized 8 → s.nv.ledger = [] → s.arr.failed = [] →
    ∃ u, exec (.arrayWave t w []) s = .next u ∧ u.start.waves = s.start.waves ++ [w] ∧ (u.dom (arrayDom (2 * w))).state = .on
      ∧ (u.dom (arrayDom (2 * w + 1))).state = .on
      ∧ ∀ j < 32, u.physArray (64 * w + j) = some (68 * w + j) ∧ u.physArray (64 * w + 32 + j) = some (68 * w + 34 + j))
  ∧ (∀ (s : State) (t : Nat), s.start.running = true → s.stage = 3 → s.start.waves.length = s.sized 8 →
    ∃ u, exec (.selfTestDone t) s = .next u ∧ (u.stage = 5 ∨ u.stage = 6 ∨ u.stage = 7) ∧
      if s.start.lampOut = true then (u.part 0).state = .active ∧ (∀ p < s.nPorts, u.flag F.FAB_PORT_CFG_ENABLE p = true) ∧
        (s.start.entries = [] → s.nv.ledger.length + 4096 < ledgerSlots →
          u.nv.ledger = s.nv.ledger ++ [(s.at t).ledgerEntry 0 0 (b2n s.start.warm) s.chip.pop])
      else u.fld F.LAMP_IMAGE_VERSION = imgVersion s.nv.image)
  ∧ (∀ (s : State) (t e : Nat), s.start.running = true → s.stage = 5 → s.start.engines = [e] → (s.engine e).failed = false →
    ∃ u, exec (.engineWave t []) s = .next u ∧ (u.dom (engineDom e)).state = .on ∧ u.start.running = false ∧
      u.stage = (if s.start.lampOut = true then 7 else 6) ∧
      ∀ p ∈ List.range' (4 * e) 4, (s.port p).state = .disabled → s.flag F.FAB_PORT_CFG_ENABLE p = true → (u.port p).state = .detect)

/-- A supply loss leaves the configuration memory, the Lamp-room store and the pins (R490, R528), and a loss of STANDBY as much; an image that was
being written is no image any more (R454). A device reset is asked for with the key of LAMP_RESET, and by DEVICE_RESET (R491); another key does
nothing. It leaves what R492 and R493 say, the Gallery allocations among it. -/
def Obligations.LossesAndResets : Prop :=
  (∀ (s : State) (t : Nat), ∃ u, exec (.supplyLoss t) s = .next u ∧ u.nv = (if s.fld F.SEC_STAGE_STATE = 4 then { s.nv with image := [] } else s.nv)
    ∧ u.regs = [] ∧ u.pool = State.reset.pool ∧ u.qm = State.reset.qm ∧ u.tr = State.reset.tr ∧ u.col = State.reset.col ∧ u.sec = State.reset.sec
    ∧ u.parts = [] ∧ u.faultqs = [] ∧ u.node = none ∧ u.doms = [] ∧ u.start = Start.reset ∧ u.pwr.pgAt = none ∧ u.pending = s.pending)
  ∧ (∀ (s : State) (t : Nat), ∃ u, exec (.standbyLoss t) s = .next u ∧
    u.nv = (if s.fld F.SEC_STAGE_STATE = 4 then { s.nv with image := [] } else s.nv)
    ∧ u.regs = [] ∧ u.pool = State.reset.pool ∧ u.qm = State.reset.qm ∧ u.parts = [] ∧ u.faultqs = [] ∧ u.pwr = State.reset.pwr)
  ∧ (∀ (s : State) (t : Nat) (w : Word) (x : StartInput), bits w 16 16 ≠ 0xD5E7 ∨ bit w 0 = false → exec (.lampResetWrite t w x) s = .next (s.at t))
  ∧ (∀ (s : State) (t : Nat) (w : Word) (x : StartInput), bits w 16 16 = 0xD5E7 → bit w 0 = true → s.pwr.atWarn = [] → s.soundStart x →
    s.poolGone = false → Tbl.rising s.parts = true →
    ∃ u, exec (.lampResetWrite t w x) s = .next u ∧ s.resetLeaves u ∧ u.stage = 3 ∧
      (s.pool.freeing = [] → (∀ e ∈ s.pool.gmap, e.2.alloc = true → (s.part e.2.owner).lives = true) → u.pool.gmap = s.pool.gmap))
  ∧ (∀ (s : State) (t r : Nat) (x : Rec) (y : StartInput), s.begins r Op.DEVICE_RESET x → s.pwr.atWarn = [] → s.soundStart y → s.poolGone = false →
    Tbl.rising s.parts = true → ∃ u, exec (.deviceReset t r y) s = .next u ∧ s.resetLeaves u ∧ u.stage = 3)

/-- A die at its trip limit ends service: every stack goes into RETAIN and every other domain OFF, but for failed ones, a THERMAL_TRIP record is
written, STAGE reads OUT_OF_SERVICE (R489); below its limit a die does nothing. A device reset asked for while a die is at or above WARN_AT
waits, whichever way it was asked for, and begins when every die is below. -/
def Obligations.TripsEndService : Prop :=
  (∀ (s : State) (t die temp : Nat), die ≤ 30 →
    ∃ u, exec (.thermalTrip t die temp) s = .next u ∧
      if tripAt die ≤ temp then s.leavesService u ∧ u.recorded 7 0x71 die temp 0 ∧ u.flag F.PWR_THERMAL_TRIPPED = true ∧ u.pwr.trip = true ∧
        die ∈ u.pwr.atWarn
      else u = s.at t)
  ∧ (∀ (s : State) (t : Nat) (w : Word) (x : StartInput), bits w 16 16 = 0xD5E7 → bit w 0 = true → s.pwr.atWarn ≠ [] →
    exec (.lampResetWrite t w x) s = .next { s.at t with pwr := { s.pwr with waiting := some true } })
  ∧ (∀ (s : State) (t r : Nat) (x : Rec) (y : StartInput), s.begins r Op.DEVICE_RESET x → s.pwr.atWarn ≠ [] →
    ∃ u, exec (.deviceReset t r y) s = .next u ∧ u.pwr = { s.pwr with waiting := some true } ∧ u.parts = s.parts ∧ u.nv = s.nv ∧ u.stage = s.stage)
  ∧ (∀ (s : State) (t : Nat) (x : StartInput), s.pwr.waiting = none →
    exec (.dieBelowWarnAt t x) s = .next { s.at t with pwr := { s.pwr with atWarn := [] } })
  ∧ (∀ (s : State) (t : Nat) (x : StartInput), s.pwr.waiting = some true → s.soundStart x → s.poolGone = false → Tbl.rising s.parts = true →
    ∃ u, exec (.dieBelowWarnAt t x) s = .next u ∧ s.resetLeaves u ∧ u.stage = 3 ∧ u.pwr.waiting = none)


/-- IMAGE_STAGE takes blocks for the first piece of an image and stores each piece; it answers with the bytes still missing (R453). IMAGE_COMMIT of a
whole staged image begins its verification, of a verified one its writing, and is BAD_STATE otherwise (R453, R473). A verification ends in VERIFIED
or WRITING, or in REJECTED with the reason (R445, R453). A writing ends in IDLE with the image in place, or NOR_ERROR with none (R454); in lamp
out a success starts the adapter again (R448). IMAGE_DISCARD empties the area unless it is being written (R453). -/
def Obligations.ImagesMove : Prop :=
  (∀ (s v : State) (t r : Nat) (x : Rec) (b : List Byte), s.begins r Op.IMAGE_STAGE x →
    ((s.at t).admWait r).gather x.part x.src (.admin r) = (v, some (.bytes b)) →
    ∃ u, exec (.imageStage t r) s = .next u ∧
      (s.stg? = .staging → s.fld F.SEC_STAGE_SOURCE = 0 → s.stg.total = bits x.desc.w5 0 27 → s.takesEntry x x.links →
        u.stg.runs = addRun s.stg.runs (bits x.desc.w4 0 27) (bits x.desc.w4 0 27 + b.length) ∧ u.stg? = .staging
          ∧ s.replies u r x Stat.SUCCESS (word (s.stg.total - runBytes (addRun s.stg.runs (bits x.desc.w4 0 27) (bits x.desc.w4 0 27 + b.length))))) ∧
      (∀ w, s.stgFree = true → bits x.desc.w4 0 27 = 0 → v.stgTake (bits x.desc.w5 0 27) false = some w →
        u.stg? = .staging ∧ u.fld F.SEC_STAGE_SOURCE = 0 ∧ u.stg.total = bits x.desc.w5 0 27 ∧ u.stg.runs = [(0, b.length)]) ∧
      (s.stgFree = false → (s.stg? ≠ .staging ∨ s.fld F.SEC_STAGE_SOURCE ≠ 0 ∨ s.stg.total ≠ bits x.desc.w5 0 27) → s.takesEntry x x.links →
        u.stg = s.stg ∧ s.replies u r x Stat.BAD_STATE 0))
  ∧ (∀ (s : State) (t r : Nat) (x : Rec), s.begins r Op.IMAGE_COMMIT x → s.takesEntry x x.links →
    ∃ u, exec (.imageCommit t r) s = .next u ∧
      if s.stg? = .verified then u.stg? = .writing ∧ u.stg.commit = some r ∧ u.nv.image = [] ∧ u.waits r
      else if s.stg? = .staging ∧ s.fld F.SEC_STAGE_SOURCE = 0 ∧ runBytes s.stg.runs = s.stg.total then
        u.stg? = .verifying ∧ u.stg.commit = some r ∧ u.nv.image = s.nv.image ∧ u.waits r
      else u.stg = s.stg ∧ u.nv.image = s.nv.image ∧ s.replies u r x Stat.BAD_STATE 0)
  ∧ (∀ (s : State) (t : Nat), s.stg? = .verifying → s.pool.bad = [] →
    ∃ u, exec (.imageVerifyDone t) s = .next u ∧
      if s.stagedCheck = 0 then u.stg.digest = imgDigest s.staged ∧
        (if s.stg.commit.isSome = true ∨ s.stg.auto = true then u.stg? = .writing ∧ u.nv.image = [] else u.stg? = .verified ∧ u.nv.image = s.nv.image)
      else u.stg? = .rejected ∧ u.fld F.SEC_STAGE_REASON = s.stagedCheck ∧ u.nv.image = s.nv.image ∧
        ∀ r x, s.stg.commit = some r → s.mayReply r x → s.replies u r x Stat.IMAGE_REJECTED (word (s.stagedCheck * 2 ^ 60)))
  ∧ (∀ (s : State) (t : Nat) (ok : Bool) (x : StartInput), s.stg? = .writing → s.start.lampOut = false → s.pool.bad = [] →
    ∃ u, exec (.imageWriteDone t ok x) s = .next u ∧ u.stg? = .idle ∧
      if (ok && s.stgGood 0 s.stg.total && imgDigest (s.staged.take (imgLen s.staged)) == s.stg.digest) = true then
        u.nv.image = s.staged.take (imgLen s.staged) ∧ ∀ r y, s.stg.commit = some r → s.mayReply r y → s.replies u r y Stat.SUCCESS 0
      else u.nv.image = s.nv.image ∧ ∀ r y, s.stg.commit = some r → s.mayReply r y → s.replies u r y Stat.NOR_ERROR 0)
  ∧ (∀ (s : State) (t : Nat) (x : StartInput), s.stg? = .writing → s.start.lampOut = true → s.pool.bad = [] → s.stgGood 0 s.stg.total = true →
    imgDigest (s.staged.take (imgLen s.staged)) = s.stg.digest → s.pwr.atWarn = [] → s.soundStart x →
    ∃ u, exec (.imageWriteDone t true x) s = .next u ∧ u.nv.image = s.staged.take (imgLen s.staged) ∧ u.start.warm = true
      ∧ u.nv.epoch = (s.nv.epoch + 1) % 65536)
  ∧ (∀ (s : State) (t r : Nat) (x : Rec), s.begins r Op.IMAGE_DISCARD x → s.takesEntry x x.links → s.stg.commit = none →
    ∃ u, exec (.imageDiscard t r) s = .next u ∧
      if s.stg? = .writing then u.stg = s.stg ∧ u.stg? = .writing ∧ s.replies u r x Stat.BAD_STATE 0
      else u.stg? = .idle ∧ u.stg.total = 0 ∧ s.replies u r x Stat.SUCCESS 0)

/-- The distribution of an image: the active member sends its manifest and waits (R461); a worker takes the manifest of its active member, an adapter in
lamp out one that came through a neighbour's port, when R457 or R459 holds, and a neighbour passes on what names its port (R458). A chunk is placed
on its digest, and the last one brings the verification (R458, R460). A worker asks for what it lacks each 5 ms, and gives up after 100 requests
(R460); the member answers with repair chunks and gathers the STATUS of every worker, or ends after 10 s (R460, R461). -/
def Obligations.ImagesAreDistributed : Prop :=
  (∀ (s v : State) (t r : Nat) (x : Rec) (b : List Byte), s.begins r Op.IMAGE_DISTRIBUTE x → s.kpr.role.isActive = true → s.stg? = .verified →
    s.stg.dist = none → ((s.at t).admWait r).gather x.part x.src (.admin r) = (v, some (.bytes b)) → manForm b = true → manLen b = s.stg.total →
    ∃ u, exec (.imageDistribute t r) s = .next u ∧ u.waits r ∧ u.stg.dist = some r ∧ u.stg.distMan = b ∧ u.stg.sentAt = max s.now t ∧
      ∀ n ∈ manChildren b (s.node.getD 0), s.node ≠ some n → u.mgtQueued n 1 (distBytes 1 (manifestId b) 0 false (s.node.getD 0) b))
  ∧ (∀ (s : State) (t r : Nat) (x : Rec), s.begins r Op.IMAGE_DISTRIBUTE x → s.takesEntry x x.links → s.kpr.role.isActive = false →
    ∃ u, exec (.imageDistribute t r) s = .next u ∧ u.stg = s.stg ∧ s.replies u r x Stat.NOT_KEEPER 0)
  ∧ (∀ (s v w : State) (t k : Nat) (m : DMsg), (s.at t).takeDist k 1 = some (m, v) →
    (if s.start.lampOut = true then 65536 ≤ m.src else m.src < 65536 ∧ m.relay = 255 ∧ s.kpr.active = some m.origin) → s.stgFree = true →
    v.stgTake (manLen m.body) true = some w →
    ∃ u, exec (.manifest t k) s = .next u ∧
      if s.manifestOk m.body = true then
        u.stg? = .staging ∧ u.fld F.SEC_STAGE_SOURCE = 1 ∧ u.stg.total = manLen m.body ∧ u.stg.man = m.body ∧ u.stg.got = [] ∧
          u.stg.auto = s.start.lampOut
      else u.stg = s.stg ∧ u.stg? = s.stg?)
  ∧ (∀ (s v : State) (t k : Nat) (m : DMsg), s.takeDist k 1 = some (m, v) → m.src < 65536 → m.relay = 255 → s.start.lampOut = false →
    s.kpr.active = some m.origin → s.stgFree = false ∨ s.manifestOk m.body = false → s.node ≠ some m.origin →
    ∃ u, exec (.manifest t k) s = .next u ∧ u.stg = s.stg ∧ u.mgtQueued m.origin 1 (distBytes 4 (manifestId m.body) 0 false (s.node.getD 0)
      (wordBytes (word (2 ^ 60 + (if s.stgFree = true then Img.MANIFEST else Img.BUSY) * 2 ^ 56)))))
  ∧ (∀ (s v : State) (t k : Nat) (m : DMsg), s.takeDist k 1 = some (m, v) → m.src < 65536 → m.relay ≠ 255 → s.kpr.active = some m.src →
    (s.port m.relay).state = .mgtOnly → (∀ n, s.node = some n → n < 16384) →
    ∃ u, exec (.manifest t k) s = .next u ∧ Tbl.find u.stg.relays m.relay = some m.origin ∧
      u.mgtQueued (65536 + m.relay) 1 m.unrelayed)
  ∧ (∀ (s v : State) (t k : Nat) (m : DMsg), s.takeDist k 2 = some (m, v) → (m.src < 65536 → m.relay = 255) → s.stg? = .staging →
    s.ownManifest m.id = true → s.stg.port = (if 65536 ≤ m.src then some (m.src - 65536) else none) → m.chunk < manChunks s.stg.man →
    m.chunk ∉ s.stg.got →
    ∃ u, exec (.chunk t k) s = .next u ∧
      if m.body.length = chunkLen s.stg.total m.chunk ∧ Config.sha3_512 m.body = manDigest s.stg.man m.chunk then
        u.stg.got = s.stg.got ++ [m.chunk] ∧ u.stg? = (if s.stg.got.length + 1 = manChunks s.stg.man then .verifying else .staging)
      else u.stg = s.stg ∧ u.fld F.SEC_COUNT_COUNT 7 = (s.fld F.SEC_COUNT_COUNT 7 + 1) % 2 ^ 64)
  ∧ (∀ (s : State) (t a : Nat), s.stg? = .staging → s.fld F.SEC_STAGE_SOURCE = 1 → s.stg.lastAt + 5000000 ≤ max s.now t → s.start.lampOut = false →
    s.stg.port = none → s.kpr.active = some a → s.node ≠ some a →
    ∃ u, exec (.distRequestTimer t) s = .next u ∧
      if 100 ≤ s.stg.asks then u.stg? = .rejected ∧ u.fld F.SEC_STAGE_REASON = Img.MANIFEST
      else u.stg.asks = s.stg.asks + 1 ∧ u.stg.lastAt = max s.now t ∧
        u.mgtQueued a 1 (distBytes 3 (manifestId s.stg.man) 0 false (s.node.getD 0) s.wanted))
  ∧ (∀ (s v : State) (t k c : Nat) (m : DMsg), s.takeDist k 3 = some (m, v) → m.src < 65536 → m.relay = 255 → s.node ≠ some m.src →
    s.stg.distMan ≠ [] → manifestId s.stg.distMan = m.id → s.stg? = .verified → s.stg.total = manLen s.stg.distMan → c < manChunks s.stg.distMan →
    ((m.body.getD (c / 8) 0).toNat).testBit (c % 8) = true → s.stgGood (65536 * c) (chunkLen s.stg.total c) = true → s.pool.bad = [] →
    ∃ u, exec (.distRequest t k) s = .next u ∧
      u.mgtQueued m.src 1 (distBytes 2 m.id c true (s.node.getD 0) (s.stgRead (65536 * c) (chunkLen s.stg.total c))))
  ∧ (∀ (s v : State) (t k r : Nat) (m : DMsg), s.takeDist k 4 = some (m, v) → m.src < 65536 → m.relay = 255 → m.origin = m.src → s.stg.dist = some r →
    manifestId s.stg.distMan = m.id → m.src ∈ (manTree s.stg.distMan).map (·.2) →
    ∃ u, exec (.distStatus t k) s = .next u ∧ (if bits (wordAt m.body 0) 60 4 = 0 then m.src ∈ u.stg.good else m.src ∈ u.stg.bad) ∧
      u.stg.dist = (if ((manTree s.stg.distMan).map (·.2)).all (fun n => u.stg.good.contains n || u.stg.bad.contains n) = true then none else some r))
  ∧ (∀ (s : State) (t r : Nat) (x : Rec), s.stg.dist = some r → s.stg.sentAt + 10000000000 ≤ max s.now t → s.mayReply r x →
    ∃ u, exec (.distributeTimeout t) s = .next u ∧ u.stg.dist = none ∧
      s.replies u r x Stat.SUCCESS (word (s.stg.good.length * 65536 + s.stg.bad.length)))

/-! ### The ledger, the Daymark, keys, samples and management requests (R33, R449, R467 to R474, R496 to R500, R504, R516 to R519) -/

/-- LEDGER_READ and DAYMARK_READ write valid entries, the identity record or a chain (R449, R470, R474). ATTEST signs the answer of R472 over the nonce. -/
def Obligations.DaymarkAnswers : Prop :=
  (∀ (s : State) (t r : Nat) (x : Rec) (a : Extent), s.begins r Op.LEDGER_READ x → s.takesEntry x (linksOf x.xtra) →
    x.resultTo s a (32 * bits x.desc.w3 0 9) → (∀ e ∈ s.nv.ledger, e.length = 4) → 1 ≤ bits x.desc.w3 0 9 → bits x.desc.w2 0 20 + bits x.desc.w3 0 9 ≤ s.nv.ledger.length →
    ∃ u, exec (.ledgerRead t r) s = .next u ∧ s.replies u r x Stat.SUCCESS (word (bits x.desc.w3 0 9)) ∧ .linkWrite (s.locOf x.part a.addr)
      (((s.nv.ledger.drop (bits x.desc.w2 0 20)).take (bits x.desc.w3 0 9)).flatMap (fun e => e.flatMap wordBytes)) ∈ u.egress)
  ∧ (∀ (s : State) (t r : Nat) (x : Rec) (a : Extent) (b : List Byte), s.begins r Op.DAYMARK_READ x → s.takesEntry x (linksOf x.xtra) →
    b = (if bits x.desc.w2 0 4 = 0 then s.identity else Config.certChain (bits x.desc.w2 0 4)).take (bits x.desc.w3 0 15) → x.resultTo s a b.length →
    b ≠ [] → ∃ u, exec (.daymarkRead t r) s = .next u ∧ s.replies u r x Stat.SUCCESS (word b.length) ∧ .linkWrite (s.locOf x.part a.addr) b ∈ u.egress)
  ∧ (∀ (s v : State) (t r : Nat) (x : Rec) (a : Extent) (b : List Byte), s.begins r Op.ATTEST x → s.takesEntry x (linksOf x.xtra) → x.resultTo s a 4992 →
    ((s.at t).admWait r).gather x.part x.src (.admin r) = (v, some (.bytes b)) →
    ∃ u sig, exec (.attest t r) s = .next u ∧ s.replies u r x Stat.SUCCESS 0 ∧ sig.length = 4627 ∧ u.fld F.SEC_COUNT_COUNT 6 = (s.fld F.SEC_COUNT_COUNT 6 + 1) % 2 ^ 64 ∧
      .linkWrite (s.locOf x.part a.addr)
        (padTo 4992 ((s.at t).attestHead (if x.queue < devQueue then x.part else x.desc.part) b ++ sig)) ∈ u.egress)

/-- KEK_ESTABLISH derives the partition's KEK from the ciphertext, its generation and SERIAL, and keeps every loaded key (R467). KEY_LOAD loads what a
blob unwraps to under the KEK: a transport key into its slot, an XTS key into a free handle that it returns; without a KEK, or with a blob that
does not unwrap, it answers KEY_REJECTED, counts it and loads nothing (R468, R469, R477). ERASE empties a slot (R469). -/
def Obligations.KeysAreLoaded : Prop :=
  (∀ (s v : State) (t r : Nat) (x : Rec) (b : List Byte), s.begins r Op.KEK_ESTABLISH x → s.takesEntry x x.links →
    ((s.at t).markGen r x |>.admWait r).gather x.part x.src (.admin r) = (v, some (.bytes b)) →
    ∃ u, exec (.kekEstablish t r) s = .next u ∧ s.replies u r x Stat.SUCCESS 0 ∧ u.sec.tkeys = s.sec.tkeys ∧ u.sec.xts = s.sec.xts ∧
      Tbl.find u.sec.keks x.desc.part = some ((Config.sha3_512 (kekLabel ++ leBytes 1 x.desc.part ++ leBytes 2 (s.part x.desc.part).gen
        ++ leBytes 8 Config.serial ++ Config.mlKemDecaps b)).take 32))
  ∧ (∀ (s v : State) (t r : Nat) (x : Rec) (b : List Byte), s.begins r Op.KEY_LOAD x → s.takesEntry x x.links → bit x.desc.w4 5 = false →
    ((s.at t).markGen r x |>.admWait r).gather x.part x.src (.admin r) = (v, some (.bytes b)) →
    ∃ u, exec (.keyLoad t r) s = .next u ∧
      match (Tbl.find s.sec.keks x.desc.part).bind (fun k => Config.keyUnwrap k b) with
      | none => u.sec = s.sec ∧ s.replies u r x Stat.KEY_REJECTED 0 ∧ u.fld F.SEC_COUNT_COUNT 5 = (s.fld F.SEC_COUNT_COUNT 5 + 1) % 2 ^ 64
      | some k =>
        (b.length = 48 → k.length = 40 → wordAt k 0 = word (0x4B59 * 2 ^ 48 + 2 ^ 40) → s.replies u r x Stat.SUCCESS 0 ∧
          Tbl.find u.sec.tkeys (x.desc.part * 16 + bits x.desc.w4 0 4) = some (k.drop 8) ∧
          (bit x.desc.w4 4 = true → Tbl.find u.sec.tx x.desc.part = some (bits x.desc.w4 0 4)) ∧ u.sec.xts = s.sec.xts) ∧
        (∀ i, b.length = 80 → k.length = 72 → wordAt k 0 = word (0x4B59 * 2 ^ 48 + 2 * 2 ^ 40) → (k.drop 8).take 32 ≠ (k.drop 8).drop 32 → i < 64 →
          (∀ j < i, Tbl.has s.sec.xts (x.desc.part * 64 + j) = true) → Tbl.has s.sec.xts (x.desc.part * 64 + i) = false →
          Tbl.find u.sec.xts (x.desc.part * 64 + i) = some (k.drop 8) ∧ s.replies u r x Stat.SUCCESS (word (s.handleOf x.desc.part i)) ∧
          u.sec.tkeys = s.sec.tkeys))
  ∧ (∀ (s : State) (t r : Nat) (x : Rec), s.begins r Op.KEY_LOAD x → s.takesEntry x x.links → bit x.desc.w4 5 = true → bits x.desc.w5 0 32 = 0 →
    ∃ u, exec (.keyLoad t r) s = .next u ∧ s.replies u r x Stat.SUCCESS 0 ∧ u.sec.keks = s.sec.keks ∧ u.sec.xts = s.sec.xts ∧
      Tbl.find u.sec.tkeys (x.desc.part * 16 + bits x.desc.w4 0 4) = none)

/-- FAULTQ_CREATE gives a partition its fault queue, and BAD_STATE to one that holds one; FAULTQ_DESTROY takes it away (R496, R504). The head of the
Lamp-room queue moves up to its tail and no further (R499, R505). SAMPLE_ALLOC takes the blocks of the sample buffer, SAMPLE_FREE frees it and ends
sampling, SAMPLE_READ writes its records to the RESULT area (R516, R519); CNT_SAMPLE_HEAD takes its new head (R518). The board's
management controller writes and reads registers and gives admin commands (R33). -/
def Obligations.LampQueuesAndSamples : Prop :=
  (∀ (s : State) (t r : Nat) (x : Rec) (e : Extent), s.begins r Op.FAULTQ_CREATE x → s.takesEntry x x.links →
    s.xring x.desc.part x.desc.w2.toNat (2 ^ bits x.desc.w3 59 5 * 32) needW = (Stat.SUCCESS, 0, 0, e) →
    ∃ u, exec (.faultqCreate t r) s = .next u ∧
      if (s.faultq x.desc.part).state = .free then ∃ db, s.replies u r x Stat.SUCCESS (word db) ∧ (u.faultq x.desc.part).state = .active ∧
        (u.faultq x.desc.part).loc = s.locOf x.desc.part e.addr ∧ (u.faultq x.desc.part).log2 = bits x.desc.w3 59 5 ∧
        (u.faultq x.desc.part).vector = bits x.desc.w3 48 11 ∧ (u.faultq x.desc.part).doorbell = db ∧ (u.faultq x.desc.part).tail = 0 ∧
        (u.faultq x.desc.part).head = 0
      else u.faultqs = s.faultqs ∧ s.replies u r x Stat.BAD_STATE 0)
  ∧ (∀ (s : State) (t r : Nat) (x : Rec), s.begins r Op.FAULTQ_DESTROY x → s.takesEntry x x.links → (s.faultq x.desc.part).state ≠ .free →
    x.desc.part < 64 →
    ∃ u, exec (.faultqDestroy t r) s = .next u ∧ (u.faultq x.desc.part).state = .free ∧ s.replies u r x Stat.SUCCESS 0)
  ∧ (∀ (s : State) (t : Nat) (w : Word), ∃ u, exec (.lampFaultHeadWrite t w) s = .next u ∧
      if idxDiff (s.faultq 64).tail (s.faultq 64).head < idxDiff (bits w 0 32) (s.faultq 64).head then u.faultqs = s.faultqs
      else (u.faultq 64).head = bits w 0 32)
  ∧ (∀ (s : State) (t r : Nat) (x : Rec), s.begins r Op.SAMPLE_ALLOC x → s.takesEntry x x.links →
    ∃ u, exec (.sampleAlloc t r) s = .next u ∧
      if s.cnt.blocks ≠ 0 then u.cnt.blocks = s.cnt.blocks ∧ u.pool.blks = s.pool.blks ∧ s.replies u r x Stat.BAD_STATE 0
      else if s.freeOn ((maskBits (bits x.desc.w3 0 20) 20).filter (fun k => decide (k < s.nStacks))) < bits x.desc.w2 0 8 then
        u.cnt.blocks = 0 ∧ u.pool.blks = s.pool.blks ∧ s.replies u r x Stat.NO_GALLERY_SPACE 0
      else u.cnt.blocks = bits x.desc.w2 0 8 ∧ s.replies u r x Stat.SUCCESS (word (bits x.desc.w2 0 8 * 16384)))
  ∧ (∀ (s : State) (t r : Nat) (x : Rec), s.begins r Op.SAMPLE_FREE x → s.takesEntry x x.links →
    ∃ u, exec (.sampleFree t r) s = .next u ∧ u.cnt.blocks = 0 ∧ u.flag F.CNT_SAMPLE_CFG_ENABLE = false ∧ s.replies u r x Stat.SUCCESS 0)
  ∧ (∀ (s : State) (t r : Nat) (x : Rec) (a : Extent), s.begins r Op.SAMPLE_READ x → s.takesEntry x (linksOf x.xtra) → s.cnt.blocks ≠ 0 →
    s.clean → x.resultTo s a (128 * bits x.desc.w3 0 13) → 1 ≤ bits x.desc.w3 0 13 →
    ∃ u, exec (.sampleRead t r) s = .next u ∧ s.replies u r x Stat.SUCCESS (word (bits x.desc.w3 0 13)) ∧ .linkWrite (s.locOf x.part a.addr)
      ((List.range (bits x.desc.w3 0 13)).flatMap (fun i =>
        s.memRead (s.usePhys (fun k => .sample k) ((bits x.desc.w2 0 32 + i) % (s.cnt.blocks * 16384) * 128)) 128)) ∈ u.egress)
  ∧ (∀ (s : State) (t h : Nat), h < 2 ^ 32 → s.serving = true → ∃ u, exec (.cntSampleHeadWrite t h) s = .next u ∧ u.fld F.CNT_SAMPLE_HEAD_HEAD = h)
  ∧ (∀ (s : State) (t a width : Nat), ∃ u, exec (.i3cRequest t (.read a width)) s = .next u ∧
      .i3c ((wordBytes ((s.at t).readAt a width)).take (width / 8)) ∈ u.egress)
  ∧ (∀ (s : State) (t a width : Nat) (w : Word), exec (.i3cRequest t (.write a width w)) s = .next ((s.at t).writeFrom 2 a width w))
  ∧ (∀ (s : State) (t a i j q h : Nat) (w : Word) (r : RegName), regAt a = some (r, i, j) → s.seqOf r i w = some q → Tbl.find s.io.stops q = some h →
      h ≠ 2 → r.place.width = 64 →
      exec (.i3cRequest t (.write a 64 w)) s = .next { s.at t with io := { s.io with late := s.io.late ++ [⟨q, 2, r, i, j, w⟩] } })
  ∧ (∀ (s : State) (t : Nat) (d : Desc), s.admOk d = true → s.start.lampOut = false → admRanges2 d = ([], []) → admHost d.op = false →
    ∃ u y, exec (.i3cRequest t (.admin d)) s = .next u ∧ u.getRec s.io.nextId = some y ∧ y.desc = d ∧ y.source = 2 ∧ y.phase = .accepted)

/-! ### Power, heat and failed units (R478 to R489, R501, R503) -/

/-- An idle domain whose timer has run out enters RETAIN, or OFF where CEILING and R480 allow; with HOLD it stays ON (R481). RETAIN becomes OFF after a
further IDLE_TICKS (R481). A waking domain comes ON, and the blocks of a stack that was OFF are FREE (R487); an array group or an engine that
does not is FAILED and counted (R501). The RTC alarm wakes the domains of PWR_WAKE_SET and is over; a link leaving L1, a training pattern and a
write of HOLD wake their domains (R486, R505, R506). LAMP_RTC_SET loads the RTC (R484). -/
def Obligations.DomainsSleepAndWake : Prop :=
  (∀ (s : State) (t d : Nat), s.domFitted d = true → (s.dom d).state = .on → s.flag F.PWR_DOMAIN_HOLD d = false →
    ((s.dom d).ceil = 1 ∨ (s.dom d).ceil = 2) → (s.at t).idle d = true → (s.at t).idleOver d = true →
    ∃ u, exec (.idleTimerExpiry t d) s = .next u ∧ (u.dom d).idleAt = some (max s.now t) ∧
      (u.dom d).state = (if (s.dom d).ceil = 2 ∧ s.offOk d = true then .off else .retain))
  ∧ (∀ (s : State) (t d : Nat), s.flag F.PWR_DOMAIN_HOLD d = true ∨ (s.dom d).ceil = 0 → exec (.idleTimerExpiry t d) s = .next (s.at t))
  ∧ (∀ (s : State) (t d : Nat), s.domFitted d = true → (s.dom d).state = .retain → s.flag F.PWR_DOMAIN_HOLD d = false →
    (s.dom d).ceil = 2 → (s.at t).idle d = true → (s.at t).offOk d = true → (s.at t).idleOver d = true →
    ∃ u, exec (.retainToOff t d) s = .next u ∧ (u.dom d).state = .off)
  ∧ (∀ (s : State) (t d : Nat), (s.dom d).state = .waking → s.waiting = [] →
    ∃ u, exec (.domainOn t d) s = .next u ∧ (u.dom d).state = .on ∧ (u.dom d).idleAt = some (max s.now t) ∧
      (24 ≤ d → d < 44 → (s.dom d).fromOff = true → ∀ b, b / 65536 = d - 24 → (s.blk b).state ≠ .lost → (u.blk b).state = .free))
  ∧ (∀ (s : State) (t d : Nat), (s.dom d).state = .waking → (s.dom d).wakeAt + wakeMax d (s.dom d).fromOff < max s.now t → s.waiting = [] →
    d < 16 ∨ (44 ≤ d ∧ d < 76) →
    ∃ u, exec (.wakeFailed t d) s = .next u ∧ (u.dom d).state = .failed ∧
      u.fld F.PWR_COUNT_COUNT 2 = (s.fld F.PWR_COUNT_COUNT 2 + 1) % 2 ^ 64 ∧ (d < 16 → ∀ l, l / 32 = d → u.physArray l = none))
  ∧ (∀ (s : State) (t : Nat), s.flag F.LAMP_RTC_ALARM_ENABLE = true → (s.at t).rtc = s.fld F.LAMP_RTC_ALARM_AT →
    ∃ u, exec (.rtcAlarm t) s = .next u ∧ u.flag F.LAMP_RTC_ALARM_ENABLE = false ∧ u.flag F.LAMP_RTC_ALARM_FIRED = true ∧
      (∀ d ∈ s.wakeSet, s.wakeable d → u.wokenBy d 1) ∧
      ((s.link 0).up = true → (s.link 0).lost = false → ((s.link 0).vec 0 (s.fld F.LAMP_RTC_ALARM_VECTOR)).masked = false →
        .msix 0 0 (s.fld F.LAMP_RTC_ALARM_VECTOR) ((s.link 0).vec 0 (s.fld F.LAMP_RTC_ALARM_VECTOR)).addr
          ((s.link 0).vec 0 (s.fld F.LAMP_RTC_ALARM_VECTOR)).data ∈ u.egress))
  ∧ (∀ (s : State) (t l : Nat), s.linkFitted l = true → (s.link l).l1 = true →
    ∃ u, exec (.linkL1Exit t l) s = .next u ∧ (u.link l).l1 = false ∧ (s.wakeable (linkDom l) → u.wokenBy (linkDom l) (if l = 0 then 2 else 3)))
  ∧ (∀ (s : State) (t l : Nat), s.linkFitted l = true → (s.link l).up = true → ∃ u, exec (.linkL1Entry t l) s = .next u ∧ (u.link l).l1 = true)
  ∧ (∀ (s : State) (t p : Nat), p < s.nPorts →
    ∃ u, exec (.fabricLinkWake t p) s = .next u ∧ (s.wakeable (engineDom (p / 4)) → u.wokenBy (engineDom (p / 4)) 5) ∧
      (s.wakeable (quadDom (p / 16)) → u.wokenBy (quadDom (p / 16)) 5))
  ∧ (∀ (s : State) (t d : Nat) (w : Word), d < 84 →
    ∃ u, exec (.pwrHoldWrite t d w) s = .next u ∧ u.flag F.PWR_DOMAIN_HOLD d = bit w 13 ∧ u.fld F.PWR_DOMAIN_CEILING d = bits w 14 2 ∧
      u.fld F.PWR_DOMAIN_IDLE_TICKS d = bits w 16 16 ∧ (bit w 13 = true → s.wakeable d → u.wokenBy d 7))
  ∧ (∀ (s : State) (t v : Nat), ∃ u, exec (.lampRtcSet t v) s = .next u ∧ u.rtc = v % 2 ^ 48)

/-- Heat: a die at WARN_AT sets WARNING, slows its half and is recorded; below, nothing changes; halves return to full rate when their dies have cooled (R488).
An engine at 90 °C fails with its ports (R254, R533). The loss of the 100 MHz reference ends
service, of the optical one every engine (R485). A failed Lantern die or bridge 4 ends service; a port die, or a bridge with its two, takes
its links down (R503). -/
def Obligations.UnitsFail : Prop :=
  (∀ (s : State) (t die temp : Nat), die ≤ 30 → temp < 256 →
    ∃ u, exec (.thermalWarn t die temp) s = .next u ∧
      if s.warnAt ≤ temp then u.flag F.PWR_THERMAL_WARNING = true ∧ u.fld F.PWR_THERMAL_TEMP = temp ∧ u.fld F.PWR_THERMAL_DIE = die ∧
        (∀ h ∈ heatHalves die, h ∈ u.pwr.slow) ∧ die ∈ u.pwr.atWarn ∧
        (s.pwr.slow = [] → u.fld F.PWR_COUNT_COUNT 3 = (s.fld F.PWR_COUNT_COUNT 3 + 1) % 2 ^ 64) ∧
        ((s.faultq 64).owed = false → released (s.faultq 64).tail (s.faultq 64).head (s.faultq 64).log2 = true →
          Tbl.find (u.faultq 64).slots ((s.faultq 64).tail % 1024) =
            some (faultWords (s.faultq 64) 7 0x70 (s.part 0).gen 0 false (max s.now t) die temp 0))
      else u = s.at t)
  ∧ (∀ (s : State) (t : Nat) (cool : List Nat), ∃ u, exec (.thermalWarnClear t cool) s = .next u ∧
    (∀ h, h ∈ u.pwr.slow ↔ h ∈ s.pwr.slow ∧ ∃ d ∈ s.pwr.hot, d ∉ cool ∧ h ∈ heatHalves d) ∧
    u.flag F.PWR_THERMAL_WARNING = !u.pwr.slow.isEmpty)
  ∧ (∀ (s : State) (t e temp : Nat), e < s.nEngines → 90 ≤ temp → s.waiting = [] →
    ∃ u, exec (.engineOverheat t e temp) s = .next u ∧ (u.engine e).failed = true ∧ (u.engine e).temp = temp ∧
      ((s.engine e).failed = false → ∀ p ∈ List.range' (4 * e) 4, (s.port p).state ≠ .disabled → (u.port p).state = .failed))
  ∧ (∀ (s : State) (t : Nat), ∃ u, exec (.refClockLost t false) s = .next u ∧ s.leavesService u ∧ u.recorded 7 0x73 0 0 0 ∧ 0 ∈ u.pwr.lost)
  ∧ (∀ (s : State) (t : Nat), s.waiting = [] → ∃ u, exec (.refClockLost t true) s = .next u ∧ 1 ∈ u.pwr.lost ∧ u.recorded 7 0x73 1 0 0 ∧
    ∀ e < s.nEngines, (u.engine e).failed = true)
  ∧ (∀ (s : State) (t unit detail : Nat), unit < s.nDies → ∃ u, exec (.unitFailedInService t 1 unit detail) s = .next u ∧ u.stage = 8)
  ∧ (∀ (s : State) (t detail : Nat), ∃ u, exec (.unitFailedInService t 7 4 detail) s = .next u ∧ u.outNow)
  ∧ (∀ (s : State) (t unit detail : Nat), unit < s.sized 8 → s.waiting = [] →
    ∃ u, exec (.unitFailedInService t 6 unit detail) s = .next u ∧ ∀ l ∈ State.dieLinks unit, (u.link l).up = false)
  ∧ (∀ (s : State) (t unit detail : Nat), unit < 4 → 2 * unit < s.sized 8 → s.waiting = [] →
    ∃ u, exec (.unitFailedInService t 7 unit detail) s = .next u ∧ ∀ l ∈ State.dieLinks (2 * unit) ++ State.dieLinks (2 * unit + 1), (u.link l).up = false)

/-- The loss of a stack takes every block of it that was in use, and every Gallery block there (R109); a stack that is lost or absent already loses nothing.
A finished block migration moves the contents: the Gallery address reads what it read, and the old block is LOST (R103). -/
def Obligations.StacksAndBlocksAreLost : Prop :=
  (∀ (s : State) (t k : Nat), k < s.nStacks → (s.stack k).state ≠ .absent → (s.stack k).state ≠ .lost → s.areasOn k = [] → s.waiting = [] →
    ∃ u, exec (.stackLost t k) s = .next u ∧ (u.stack k).state = .lost ∧ (u.dom (stackDom k)).state = .failed ∧
      (∀ b, b / 65536 = k → (s.blk b).state ≠ .free → (u.blk b).state = .lost) ∧
      ∀ g, (s.gblk g).alloc = true → (s.gblk g).stack = k → (s.gblk g).state ≠ .freeing → (u.gblk g).state = .lost)
  ∧ (∀ (s : State) (t k : Nat), (s.stack k).state = .absent ∨ (s.stack k).state = .lost → exec (.stackLost t k) s = .next (s.at t))
  ∧ (∀ (s : State) (t b : Nat) (m : Migration), Tbl.find s.pool.migr b = some m → (s.blk b).state = .gallery → m.dst ≠ b → s.waiting = [] →
    (∀ k, (s.stack k).state ≠ .evacuating) → s.flag F.GRT_EVAC_CFG_AUTO = false → Memory.wf s.pool.mem = true →
    (∀ c ∈ s.pool.mem, c.1 / blkBytes ≠ m.dst) →
    ∃ u, exec (.blockMigrationDone t b) s = .next u ∧ (u.blk b).state = .lost ∧ (u.blk m.dst).state = .gallery ∧
      (∀ o < blkBytes, u.memByte (m.dst * blkBytes + o) = s.memByte (b * blkBytes + o)) ∧
      ∀ g, (s.gblk g).alloc = true → physBlk (s.gblk g).stack (s.gblk g).block = b →
        (u.gblk g).stack = m.dst / 65536 ∧ (u.gblk g).block = m.dst % 65536 ∧ (u.gblk g).owner = (s.gblk g).owner)

/-! ### Counters and plain registers (R9, R508 to R515) -/

/-- A wrap sets the overflow bit and sends the interrupt, or is counted by the next counter of a chain (R511). The bank stops at AT and restarts (R514).
CNT_VALUE and CNT_CTRL take what is written, but for a control that names another partition's events for an owned counter (R510, R511). A
window's end shows the bytes of each index in 64 B units and carries the rest (R515). -/
def Obligations.CountersCount : Prop :=
  (∀ (s : State) (t n : Nat), n < 128 → 2 ^ 32 ≤ Tbl.get 0 (s.at t).cnt.vals n →
    ∃ u, exec (.counterWrap t n) s = .next u ∧ Tbl.get 0 u.cnt.vals n = Tbl.get 0 (s.at t).cnt.vals n - 2 ^ 32 ∧
      if n < 127 ∧ s.flag F.CNT_CTRL_CHAIN (n + 1) = true then
        Tbl.get 0 u.cnt.vals (n + 1) = Tbl.get 0 (s.at t).cnt.vals (n + 1) + b2n (s.flag F.CNT_CTRL_ENABLE (n + 1))
      else bit (u.reg (if n < 64 then .CNT_OVF_LO else .CNT_OVF_HI)) (n % 64) = true ∧
        (s.flag F.CNT_CTRL_INT n = true → (s.link 0).lost = false → ((s.link 0).vec 0 (s.fld F.CNT_CFG_VECTOR)).masked = false →
          .msix 0 0 (s.fld F.CNT_CFG_VECTOR) ((s.link 0).vec 0 (s.fld F.CNT_CFG_VECTOR)).addr ((s.link 0).vec 0 (s.fld F.CNT_CFG_VECTOR)).data
            ∈ u.egress))
  ∧ (∀ (s : State) (t a : Nat), a < 2 ^ 48 → s.serving = true →
    ∃ u, exec (.cntStopArm t a) s = .next u ∧ u.fld F.CNT_STOP_AT = a ∧
      if a ≤ max s.now t then u.flag F.CNT_STOP_STOPPED = true ∧ u.flag F.CNT_STOP_ARMED = false else u.flag F.CNT_STOP_ARMED = true)
  ∧ (∀ (s : State) (t : Nat), s.flag F.CNT_STOP_ARMED = true →
    ∃ u, exec (.cntStopReached t) s = .next u ∧
      if s.fld F.CNT_STOP_AT ≤ max s.now t then u.flag F.CNT_STOP_STOPPED = true ∧ u.flag F.CNT_STOP_ARMED = false else u = s.at t)
  ∧ (∀ (s : State) (t : Nat), s.serving = true → ∃ u, exec (.cntRestart t) s = .next u ∧ u.flag F.CNT_STOP_STOPPED = false ∧ u.fld F.CNT_STOP_AT = s.fld F.CNT_STOP_AT)
  ∧ (∀ (s : State) (t n v : Nat), n < 128 → s.serving = true →
    ∃ u, exec (.cntValueWrite t n v) s = .next u ∧ u.cntValue n = v % 2 ^ 32 ∧ ∀ m, m ≠ n → u.cntValue m = (s.at t).cntValue m)
  ∧ (∀ (s : State) (t n : Nat) (w : Word), n < 128 → s.serving = true →
    ∃ u, exec (.cntCtrlWrite t n w) s = .next u ∧
      if bits w 22 6 ≠ 0 ∧ (untagged (bits w 0 8) = true ∨ bits w 8 8 ≠ bits w 22 6) then u = s.at t
      else u.flag F.CNT_CTRL_ENABLE n = bit w 31 ∧ u.flag F.CNT_CTRL_MODE n = bit w 30 ∧ u.flag F.CNT_CTRL_CHAIN n = bit w 29 ∧
        u.flag F.CNT_CTRL_INT n = bit w 28 ∧ u.fld F.CNT_CTRL_OWNER n = bits w 22 6 ∧ u.fld F.CNT_CTRL_UNIT n = bits w 8 8 ∧
        u.fld F.CNT_CTRL_EVENT n = bits w 0 8)
  ∧ (∀ (s : State) (t : Nat), max s.now t % (s.cnt.window * 1000) = 0 → s.cnt.winAt < max s.now t → Tbl.rising s.cnt.tx = true →
    Tbl.rising s.cnt.rx = true →
    ∃ u, exec (.bwWindowEnd t) s = .next u ∧ u.fld F.CNT_BW_CFG_WINDOW_SEQ = (s.fld F.CNT_BW_CFG_WINDOW_SEQ + 1) % 2 ^ 32 ∧
      u.cnt.window = min 10000 (max 1 (s.fld F.CNT_BW_CFG_WINDOW)) ∧
      ∀ j < 163, u.fld F.CNT_BW_TX j = Tbl.get 0 s.cnt.tx j / 64 % 2 ^ 32 ∧ u.fld F.CNT_BW_RX j = Tbl.get 0 s.cnt.rx j / 64 % 2 ^ 32 ∧
        Tbl.get 0 u.cnt.tx j = Tbl.get 0 s.cnt.tx j % 64 ∧ Tbl.get 0 u.cnt.rx j = Tbl.get 0 s.cnt.rx j % 64)

/-- A register write of the host, of the register's own width, sets every RW field of a register without rules of its own, and leaves every other
register (R9, R10); a write where nothing answers changes no register (R11), nor does one through an accelerator port to BAR0 (R117). A
64-bit register reads as its two halves (R10). A write to a vector of an MSI-X table sets its address, or its data and its mask; one
that takes the mask off a vector with a message pending sends it (R114). -/
def Obligations.RegistersAreWritten : Prop :=
  (∀ (s : State) (t a i j : Nat) (w : Word) (r : RegName), r ∈ plainRegs → a < partBar → regAt a = some (r, i, j) → s.regServes r i j = true →
    s.io.late = [] →
    ∃ u, exec (.registerWrite t ⟨0, a⟩ r.place.width w) s = .next u ∧
      (∀ f ∈ r.fields, f.acc = .rw → (r = .SCH_WEIGHTS → j = 0 → 32 ≤ f.lo) → bits (u.reg r i j) f.lo f.width = bits w f.lo f.width) ∧
      ∀ r' i' j', (r', i', j') ≠ (r, i, j) → j' < 256 → u.reg r' i' j' = s.reg r' i' j')
  ∧ (∀ (s : State) (t a width : Nat) (w : Word), a < partBar → regAt a = none →
    ∃ u, exec (.registerWrite t ⟨0, a⟩ width w) s = .next u ∧ u.regs = s.regs)
  ∧ (∀ (s : State) (t l a width : Nat) (w : Word), l ≠ 0 → a < partBar → ∃ u, exec (.registerWrite t ⟨l, a⟩ width w) s = .next u ∧ u.regs = s.regs)
  ∧ (∀ (s : State) (a i j : Nat) (r : RegName), a < partBar → a % 8 = 0 → regAt a = some (r, i, j) → regAt (a + 4) = none → r.place.width = 64 →
    s.readAt a 64 = s.readReg r i j ∧ (s.readAt a 32).toNat = (s.readReg r i j).toNat % 2 ^ 32 ∧
      (s.readAt (a + 4) 32).toNat = (s.readReg r i j).toNat / 2 ^ 32)
  ∧ (∀ (s : State) (t l p v : Nat) (w : Word), p < 64 → v < 2048 →
    ∃ u, exec (.registerWrite t ⟨l, vecBar + p * 0x10000 + 16 * v + 8⟩ 64 w) s = .next u ∧
      ((u.link l).vec p v).data = bits w 0 32 ∧ ((u.link l).vec p v).masked = bit w 32 ∧ ((u.link l).vec p v).addr = ((s.link l).vec p v).addr ∧
      (bit w 32 = false → ((s.link l).vec p v).pending = true → (s.link l).lost = false →
        .msix l p v ((s.link l).vec p v).addr (bits w 0 32) ∈ u.egress))

/-! ### Frames, reset and the form of memory -/

/-- Commands that reach one part of the state leave everything else of it as it was (clocks, counters, link training and sleep, heat, plain
settings): every queue, region, partition, key, group, plan and byte of memory among it. -/
def Obligations.PlainCommandsFrame : Prop := ∀ (c : Instr) (s u : State), exec c s = .next u → s.plainFrame u c

/-- Commands that only answer change nothing but the queues the answer goes through; while no sample buffer exists and the RESULT goes to memory behind
links, no byte of Grotto memory (R63, R148, R174, R175, R431, R474, R519). -/
def Obligations.QueriesFrame : Prop :=
  ∀ (c : Instr) (r : Nat) (s u : State), queryRec c = some r → exec c s = .next u →
    s.agrees u ∧ (s.cnt.blocks = 0 → (∀ x, s.getRec r = some x → ∀ e ∈ x.xtra, (linkOf e.addr).isSome = true) →
      ∀ a, u.memByte a = s.memByte a)

/-- At reset no start has run: the stage is DISCOVERY, nothing is powered, no queue, region, partition, group, plan or key exists, every register reads its
reset value, no command waits, and the memory of the stacks is in its canonical form with nothing listed (R12, R437, R490). -/
def Obligations.ResetIsPowerUp : Prop :=
  State.reset.stage = 0 ∧ State.reset.pending = [] ∧ Memory.wf State.reset.pool.mem = true ∧ State.reset.pool.mem = []
    ∧ (∀ d, (State.reset.dom d).state = .off) ∧ (∀ n, (State.reset.qp n).state = .free) ∧ (∀ n, (State.reset.ring n).state = .free)
    ∧ (∀ i, (State.reset.region i).state = .closed) ∧ (∀ p, (State.reset.part p).state = .free) ∧ (∀ g, (State.reset.group g).state = .free)
    ∧ (∀ k, State.reset.plan k = none) ∧ State.reset.node = none ∧ State.reset.sec.keks = [] ∧ (State.reset.faultq 64).state = .active
    ∧ (∀ k, (State.reset.stack k).state = .absent) ∧ (∀ p, (State.reset.port p).state = .disabled)
    ∧ ∀ (r : RegName) (i j : Nat), State.reset.reg r i j = r.reset i j

/-- Every step keeps the memory of the stacks in its canonical form, so that equal memories are equal data. -/
def Obligations.StepKeepsMemoryForm : Prop :=
  ∀ (s u : State), Memory.wf s.pool.mem = true → step s = .next u → Memory.wf u.pool.mem = true
end

