-- ==== Sys2Proof/Laws/State.lean ====
section
/-!
SUPPORT. What each named update of the state leaves alone: one lemma per field per update.
-/
namespace Sys2Proof.Machine

variable (s : State)

-- setReg
@[simp] theorem State.setReg_pending (r : RegName) (i j : Nat) (w : Word) : (s.setReg r i j w).pending = s.pending := by rfl
@[simp] theorem State.setReg_now (r : RegName) (i j : Nat) (w : Word) : (s.setReg r i j w).now = s.now := by rfl
@[simp] theorem State.setReg_free (r : RegName) (i j : Nat) (w : Word) : (s.setReg r i j w).free = s.free := by rfl
@[simp] theorem State.setReg_egress (r : RegName) (i j : Nat) (w : Word) : (s.setReg r i j w).egress = s.egress := by rfl
@[simp] theorem State.setReg_chip (r : RegName) (i j : Nat) (w : Word) : (s.setReg r i j w).chip = s.chip := by rfl
@[simp] theorem State.setReg_nv (r : RegName) (i j : Nat) (w : Word) : (s.setReg r i j w).nv = s.nv := by rfl
@[simp] theorem State.setReg_pool (r : RegName) (i j : Nat) (w : Word) : (s.setReg r i j w).pool = s.pool := by rfl
@[simp] theorem State.setReg_xl (r : RegName) (i j : Nat) (w : Word) : (s.setReg r i j w).xl = s.xl := by rfl
@[simp] theorem State.setReg_io (r : RegName) (i j : Nat) (w : Word) : (s.setReg r i j w).io = s.io := by rfl
@[simp] theorem State.setReg_qm (r : RegName) (i j : Nat) (w : Word) : (s.setReg r i j w).qm = s.qm := by rfl
@[simp] theorem State.setReg_tr (r : RegName) (i j : Nat) (w : Word) : (s.setReg r i j w).tr = s.tr := by rfl
@[simp] theorem State.setReg_sw (r : RegName) (i j : Nat) (w : Word) : (s.setReg r i j w).sw = s.sw := by rfl
@[simp] theorem State.setReg_eth (r : RegName) (i j : Nat) (w : Word) : (s.setReg r i j w).eth = s.eth := by rfl
@[simp] theorem State.setReg_arr (r : RegName) (i j : Nat) (w : Word) : (s.setReg r i j w).arr = s.arr := by rfl
@[simp] theorem State.setReg_col (r : RegName) (i j : Nat) (w : Word) : (s.setReg r i j w).col = s.col := by rfl
@[simp] theorem State.setReg_sec (r : RegName) (i j : Nat) (w : Word) : (s.setReg r i j w).sec = s.sec := by rfl
@[simp] theorem State.setReg_parts (r : RegName) (i j : Nat) (w : Word) : (s.setReg r i j w).parts = s.parts := by rfl
@[simp] theorem State.setReg_dmap (r : RegName) (i j : Nat) (w : Word) : (s.setReg r i j w).dmap = s.dmap := by rfl
@[simp] theorem State.setReg_node (r : RegName) (i j : Nat) (w : Word) : (s.setReg r i j w).node = s.node := by rfl
@[simp] theorem State.setReg_faultqs (r : RegName) (i j : Nat) (w : Word) : (s.setReg r i j w).faultqs = s.faultqs := by rfl
@[simp] theorem State.setReg_doms (r : RegName) (i j : Nat) (w : Word) : (s.setReg r i j w).doms = s.doms := by rfl
@[simp] theorem State.setReg_cnt (r : RegName) (i j : Nat) (w : Word) : (s.setReg r i j w).cnt = s.cnt := by rfl
@[simp] theorem State.setReg_kpr (r : RegName) (i j : Nat) (w : Word) : (s.setReg r i j w).kpr = s.kpr := by rfl
@[simp] theorem State.setReg_start (r : RegName) (i j : Nat) (w : Word) : (s.setReg r i j w).start = s.start := by rfl
@[simp] theorem State.setReg_stg (r : RegName) (i j : Nat) (w : Word) : (s.setReg r i j w).stg = s.stg := by rfl
@[simp] theorem State.setReg_pwr (r : RegName) (i j : Nat) (w : Word) : (s.setReg r i j w).pwr = s.pwr := by rfl
@[simp] theorem State.setReg_waiting (r : RegName) (i j : Nat) (w : Word) : (s.setReg r i j w).waiting = s.waiting := by rfl

-- setFld
@[simp] theorem State.setFld_pending (f : Fld) (v i j : Nat) : (s.setFld f v i j).pending = s.pending := by rfl
@[simp] theorem State.setFld_now (f : Fld) (v i j : Nat) : (s.setFld f v i j).now = s.now := by rfl
@[simp] theorem State.setFld_free (f : Fld) (v i j : Nat) : (s.setFld f v i j).free = s.free := by rfl
@[simp] theorem State.setFld_egress (f : Fld) (v i j : Nat) : (s.setFld f v i j).egress = s.egress := by rfl
@[simp] theorem State.setFld_chip (f : Fld) (v i j : Nat) : (s.setFld f v i j).chip = s.chip := by rfl
@[simp] theorem State.setFld_nv (f : Fld) (v i j : Nat) : (s.setFld f v i j).nv = s.nv := by rfl
@[simp] theorem State.setFld_pool (f : Fld) (v i j : Nat) : (s.setFld f v i j).pool = s.pool := by rfl
@[simp] theorem State.setFld_xl (f : Fld) (v i j : Nat) : (s.setFld f v i j).xl = s.xl := by rfl
@[simp] theorem State.setFld_io (f : Fld) (v i j : Nat) : (s.setFld f v i j).io = s.io := by rfl
@[simp] theorem State.setFld_qm (f : Fld) (v i j : Nat) : (s.setFld f v i j).qm = s.qm := by rfl
@[simp] theorem State.setFld_tr (f : Fld) (v i j : Nat) : (s.setFld f v i j).tr = s.tr := by rfl
@[simp] theorem State.setFld_sw (f : Fld) (v i j : Nat) : (s.setFld f v i j).sw = s.sw := by rfl
@[simp] theorem State.setFld_eth (f : Fld) (v i j : Nat) : (s.setFld f v i j).eth = s.eth := by rfl
@[simp] theorem State.setFld_arr (f : Fld) (v i j : Nat) : (s.setFld f v i j).arr = s.arr := by rfl
@[simp] theorem State.setFld_col (f : Fld) (v i j : Nat) : (s.setFld f v i j).col = s.col := by rfl
@[simp] theorem State.setFld_sec (f : Fld) (v i j : Nat) : (s.setFld f v i j).sec = s.sec := by rfl
@[simp] theorem State.setFld_parts (f : Fld) (v i j : Nat) : (s.setFld f v i j).parts = s.parts := by rfl
@[simp] theorem State.setFld_dmap (f : Fld) (v i j : Nat) : (s.setFld f v i j).dmap = s.dmap := by rfl
@[simp] theorem State.setFld_node (f : Fld) (v i j : Nat) : (s.setFld f v i j).node = s.node := by rfl
@[simp] theorem State.setFld_faultqs (f : Fld) (v i j : Nat) : (s.setFld f v i j).faultqs = s.faultqs := by rfl
@[simp] theorem State.setFld_doms (f : Fld) (v i j : Nat) : (s.setFld f v i j).doms = s.doms := by rfl
@[simp] theorem State.setFld_cnt (f : Fld) (v i j : Nat) : (s.setFld f v i j).cnt = s.cnt := by rfl
@[simp] theorem State.setFld_kpr (f : Fld) (v i j : Nat) : (s.setFld f v i j).kpr = s.kpr := by rfl
@[simp] theorem State.setFld_start (f : Fld) (v i j : Nat) : (s.setFld f v i j).start = s.start := by rfl
@[simp] theorem State.setFld_stg (f : Fld) (v i j : Nat) : (s.setFld f v i j).stg = s.stg := by rfl
@[simp] theorem State.setFld_pwr (f : Fld) (v i j : Nat) : (s.setFld f v i j).pwr = s.pwr := by rfl
@[simp] theorem State.setFld_waiting (f : Fld) (v i j : Nat) : (s.setFld f v i j).waiting = s.waiting := by rfl

-- count
@[simp] theorem State.count_pending (f : Fld) (i j n : Nat) : (s.count f i j n).pending = s.pending := by rfl
@[simp] theorem State.count_now (f : Fld) (i j n : Nat) : (s.count f i j n).now = s.now := by rfl
@[simp] theorem State.count_free (f : Fld) (i j n : Nat) : (s.count f i j n).free = s.free := by rfl
@[simp] theorem State.count_egress (f : Fld) (i j n : Nat) : (s.count f i j n).egress = s.egress := by rfl
@[simp] theorem State.count_chip (f : Fld) (i j n : Nat) : (s.count f i j n).chip = s.chip := by rfl
@[simp] theorem State.count_nv (f : Fld) (i j n : Nat) : (s.count f i j n).nv = s.nv := by rfl
@[simp] theorem State.count_pool (f : Fld) (i j n : Nat) : (s.count f i j n).pool = s.pool := by rfl
@[simp] theorem State.count_xl (f : Fld) (i j n : Nat) : (s.count f i j n).xl = s.xl := by rfl
@[simp] theorem State.count_io (f : Fld) (i j n : Nat) : (s.count f i j n).io = s.io := by rfl
@[simp] theorem State.count_qm (f : Fld) (i j n : Nat) : (s.count f i j n).qm = s.qm := by rfl
@[simp] theorem State.count_tr (f : Fld) (i j n : Nat) : (s.count f i j n).tr = s.tr := by rfl
@[simp] theorem State.count_sw (f : Fld) (i j n : Nat) : (s.count f i j n).sw = s.sw := by rfl
@[simp] theorem State.count_eth (f : Fld) (i j n : Nat) : (s.count f i j n).eth = s.eth := by rfl
@[simp] theorem State.count_arr (f : Fld) (i j n : Nat) : (s.count f i j n).arr = s.arr := by rfl
@[simp] theorem State.count_col (f : Fld) (i j n : Nat) : (s.count f i j n).col = s.col := by rfl
@[simp] theorem State.count_sec (f : Fld) (i j n : Nat) : (s.count f i j n).sec = s.sec := by rfl
@[simp] theorem State.count_parts (f : Fld) (i j n : Nat) : (s.count f i j n).parts = s.parts := by rfl
@[simp] theorem State.count_dmap (f : Fld) (i j n : Nat) : (s.count f i j n).dmap = s.dmap := by rfl
@[simp] theorem State.count_node (f : Fld) (i j n : Nat) : (s.count f i j n).node = s.node := by rfl
@[simp] theorem State.count_faultqs (f : Fld) (i j n : Nat) : (s.count f i j n).faultqs = s.faultqs := by rfl
@[simp] theorem State.count_doms (f : Fld) (i j n : Nat) : (s.count f i j n).doms = s.doms := by rfl
@[simp] theorem State.count_cnt (f : Fld) (i j n : Nat) : (s.count f i j n).cnt = s.cnt := by rfl
@[simp] theorem State.count_kpr (f : Fld) (i j n : Nat) : (s.count f i j n).kpr = s.kpr := by rfl
@[simp] theorem State.count_start (f : Fld) (i j n : Nat) : (s.count f i j n).start = s.start := by rfl
@[simp] theorem State.count_stg (f : Fld) (i j n : Nat) : (s.count f i j n).stg = s.stg := by rfl
@[simp] theorem State.count_pwr (f : Fld) (i j n : Nat) : (s.count f i j n).pwr = s.pwr := by rfl
@[simp] theorem State.count_waiting (f : Fld) (i j n : Nat) : (s.count f i j n).waiting = s.waiting := by rfl

-- countSat
@[simp] theorem State.countSat_pending (f : Fld) (i j n : Nat) : (s.countSat f i j n).pending = s.pending := by rfl
@[simp] theorem State.countSat_now (f : Fld) (i j n : Nat) : (s.countSat f i j n).now = s.now := by rfl
@[simp] theorem State.countSat_free (f : Fld) (i j n : Nat) : (s.countSat f i j n).free = s.free := by rfl
@[simp] theorem State.countSat_egress (f : Fld) (i j n : Nat) : (s.countSat f i j n).egress = s.egress := by rfl
@[simp] theorem State.countSat_chip (f : Fld) (i j n : Nat) : (s.countSat f i j n).chip = s.chip := by rfl
@[simp] theorem State.countSat_nv (f : Fld) (i j n : Nat) : (s.countSat f i j n).nv = s.nv := by rfl
@[simp] theorem State.countSat_pool (f : Fld) (i j n : Nat) : (s.countSat f i j n).pool = s.pool := by rfl
@[simp] theorem State.countSat_xl (f : Fld) (i j n : Nat) : (s.countSat f i j n).xl = s.xl := by rfl
@[simp] theorem State.countSat_io (f : Fld) (i j n : Nat) : (s.countSat f i j n).io = s.io := by rfl
@[simp] theorem State.countSat_qm (f : Fld) (i j n : Nat) : (s.countSat f i j n).qm = s.qm := by rfl
@[simp] theorem State.countSat_tr (f : Fld) (i j n : Nat) : (s.countSat f i j n).tr = s.tr := by rfl
@[simp] theorem State.countSat_sw (f : Fld) (i j n : Nat) : (s.countSat f i j n).sw = s.sw := by rfl
@[simp] theorem State.countSat_eth (f : Fld) (i j n : Nat) : (s.countSat f i j n).eth = s.eth := by rfl
@[simp] theorem State.countSat_arr (f : Fld) (i j n : Nat) : (s.countSat f i j n).arr = s.arr := by rfl
@[simp] theorem State.countSat_col (f : Fld) (i j n : Nat) : (s.countSat f i j n).col = s.col := by rfl
@[simp] theorem State.countSat_sec (f : Fld) (i j n : Nat) : (s.countSat f i j n).sec = s.sec := by rfl
@[simp] theorem State.countSat_parts (f : Fld) (i j n : Nat) : (s.countSat f i j n).parts = s.parts := by rfl
@[simp] theorem State.countSat_dmap (f : Fld) (i j n : Nat) : (s.countSat f i j n).dmap = s.dmap := by rfl
@[simp] theorem State.countSat_node (f : Fld) (i j n : Nat) : (s.countSat f i j n).node = s.node := by rfl
@[simp] theorem State.countSat_faultqs (f : Fld) (i j n : Nat) : (s.countSat f i j n).faultqs = s.faultqs := by rfl
@[simp] theorem State.countSat_doms (f : Fld) (i j n : Nat) : (s.countSat f i j n).doms = s.doms := by rfl
@[simp] theorem State.countSat_cnt (f : Fld) (i j n : Nat) : (s.countSat f i j n).cnt = s.cnt := by rfl
@[simp] theorem State.countSat_kpr (f : Fld) (i j n : Nat) : (s.countSat f i j n).kpr = s.kpr := by rfl
@[simp] theorem State.countSat_start (f : Fld) (i j n : Nat) : (s.countSat f i j n).start = s.start := by rfl
@[simp] theorem State.countSat_stg (f : Fld) (i j n : Nat) : (s.countSat f i j n).stg = s.stg := by rfl
@[simp] theorem State.countSat_pwr (f : Fld) (i j n : Nat) : (s.countSat f i j n).pwr = s.pwr := by rfl
@[simp] theorem State.countSat_waiting (f : Fld) (i j n : Nat) : (s.countSat f i j n).waiting = s.waiting := by rfl

-- writeReg
@[simp] theorem State.writeReg_pending (r : RegName) (i j : Nat) (w : Word) : (s.writeReg r i j w).pending = s.pending := by rfl
@[simp] theorem State.writeReg_now (r : RegName) (i j : Nat) (w : Word) : (s.writeReg r i j w).now = s.now := by rfl
@[simp] theorem State.writeReg_free (r : RegName) (i j : Nat) (w : Word) : (s.writeReg r i j w).free = s.free := by rfl
@[simp] theorem State.writeReg_egress (r : RegName) (i j : Nat) (w : Word) : (s.writeReg r i j w).egress = s.egress := by rfl
@[simp] theorem State.writeReg_chip (r : RegName) (i j : Nat) (w : Word) : (s.writeReg r i j w).chip = s.chip := by rfl
@[simp] theorem State.writeReg_nv (r : RegName) (i j : Nat) (w : Word) : (s.writeReg r i j w).nv = s.nv := by rfl
@[simp] theorem State.writeReg_pool (r : RegName) (i j : Nat) (w : Word) : (s.writeReg r i j w).pool = s.pool := by rfl
@[simp] theorem State.writeReg_xl (r : RegName) (i j : Nat) (w : Word) : (s.writeReg r i j w).xl = s.xl := by rfl
@[simp] theorem State.writeReg_io (r : RegName) (i j : Nat) (w : Word) : (s.writeReg r i j w).io = s.io := by rfl
@[simp] theorem State.writeReg_qm (r : RegName) (i j : Nat) (w : Word) : (s.writeReg r i j w).qm = s.qm := by rfl
@[simp] theorem State.writeReg_tr (r : RegName) (i j : Nat) (w : Word) : (s.writeReg r i j w).tr = s.tr := by rfl
@[simp] theorem State.writeReg_sw (r : RegName) (i j : Nat) (w : Word) : (s.writeReg r i j w).sw = s.sw := by rfl
@[simp] theorem State.writeReg_eth (r : RegName) (i j : Nat) (w : Word) : (s.writeReg r i j w).eth = s.eth := by rfl
@[simp] theorem State.writeReg_arr (r : RegName) (i j : Nat) (w : Word) : (s.writeReg r i j w).arr = s.arr := by rfl
@[simp] theorem State.writeReg_col (r : RegName) (i j : Nat) (w : Word) : (s.writeReg r i j w).col = s.col := by rfl
@[simp] theorem State.writeReg_sec (r : RegName) (i j : Nat) (w : Word) : (s.writeReg r i j w).sec = s.sec := by rfl
@[simp] theorem State.writeReg_parts (r : RegName) (i j : Nat) (w : Word) : (s.writeReg r i j w).parts = s.parts := by rfl
@[simp] theorem State.writeReg_dmap (r : RegName) (i j : Nat) (w : Word) : (s.writeReg r i j w).dmap = s.dmap := by rfl
@[simp] theorem State.writeReg_node (r : RegName) (i j : Nat) (w : Word) : (s.writeReg r i j w).node = s.node := by rfl
@[simp] theorem State.writeReg_faultqs (r : RegName) (i j : Nat) (w : Word) : (s.writeReg r i j w).faultqs = s.faultqs := by rfl
@[simp] theorem State.writeReg_doms (r : RegName) (i j : Nat) (w : Word) : (s.writeReg r i j w).doms = s.doms := by rfl
@[simp] theorem State.writeReg_cnt (r : RegName) (i j : Nat) (w : Word) : (s.writeReg r i j w).cnt = s.cnt := by rfl
@[simp] theorem State.writeReg_kpr (r : RegName) (i j : Nat) (w : Word) : (s.writeReg r i j w).kpr = s.kpr := by rfl
@[simp] theorem State.writeReg_start (r : RegName) (i j : Nat) (w : Word) : (s.writeReg r i j w).start = s.start := by rfl
@[simp] theorem State.writeReg_stg (r : RegName) (i j : Nat) (w : Word) : (s.writeReg r i j w).stg = s.stg := by rfl
@[simp] theorem State.writeReg_pwr (r : RegName) (i j : Nat) (w : Word) : (s.writeReg r i j w).pwr = s.pwr := by rfl
@[simp] theorem State.writeReg_waiting (r : RegName) (i j : Nat) (w : Word) : (s.writeReg r i j w).waiting = s.waiting := by rfl

-- emit
@[simp] theorem State.emit_pending (e : Egress) : (s.emit e).pending = s.pending := by rfl
@[simp] theorem State.emit_now (e : Egress) : (s.emit e).now = s.now := by rfl
@[simp] theorem State.emit_free (e : Egress) : (s.emit e).free = s.free := by rfl
@[simp] theorem State.emit_regs (e : Egress) : (s.emit e).regs = s.regs := by rfl
@[simp] theorem State.emit_chip (e : Egress) : (s.emit e).chip = s.chip := by rfl
@[simp] theorem State.emit_nv (e : Egress) : (s.emit e).nv = s.nv := by rfl
@[simp] theorem State.emit_pool (e : Egress) : (s.emit e).pool = s.pool := by rfl
@[simp] theorem State.emit_xl (e : Egress) : (s.emit e).xl = s.xl := by rfl
@[simp] theorem State.emit_io (e : Egress) : (s.emit e).io = s.io := by rfl
@[simp] theorem State.emit_qm (e : Egress) : (s.emit e).qm = s.qm := by rfl
@[simp] theorem State.emit_tr (e : Egress) : (s.emit e).tr = s.tr := by rfl
@[simp] theorem State.emit_sw (e : Egress) : (s.emit e).sw = s.sw := by rfl
@[simp] theorem State.emit_eth (e : Egress) : (s.emit e).eth = s.eth := by rfl
@[simp] theorem State.emit_arr (e : Egress) : (s.emit e).arr = s.arr := by rfl
@[simp] theorem State.emit_col (e : Egress) : (s.emit e).col = s.col := by rfl
@[simp] theorem State.emit_sec (e : Egress) : (s.emit e).sec = s.sec := by rfl
@[simp] theorem State.emit_parts (e : Egress) : (s.emit e).parts = s.parts := by rfl
@[simp] theorem State.emit_dmap (e : Egress) : (s.emit e).dmap = s.dmap := by rfl
@[simp] theorem State.emit_node (e : Egress) : (s.emit e).node = s.node := by rfl
@[simp] theorem State.emit_faultqs (e : Egress) : (s.emit e).faultqs = s.faultqs := by rfl
@[simp] theorem State.emit_doms (e : Egress) : (s.emit e).doms = s.doms := by rfl
@[simp] theorem State.emit_kpr (e : Egress) : (s.emit e).kpr = s.kpr := by rfl
@[simp] theorem State.emit_start (e : Egress) : (s.emit e).start = s.start := by rfl
@[simp] theorem State.emit_stg (e : Egress) : (s.emit e).stg = s.stg := by rfl
@[simp] theorem State.emit_pwr (e : Egress) : (s.emit e).pwr = s.pwr := by rfl
@[simp] theorem State.emit_waiting (e : Egress) : (s.emit e).waiting = s.waiting := by rfl

-- setPart
@[simp] theorem State.setPart_pending (p : Nat) (x : Part) : (s.setPart p x).pending = s.pending := by rfl
@[simp] theorem State.setPart_now (p : Nat) (x : Part) : (s.setPart p x).now = s.now := by rfl
@[simp] theorem State.setPart_free (p : Nat) (x : Part) : (s.setPart p x).free = s.free := by rfl
@[simp] theorem State.setPart_egress (p : Nat) (x : Part) : (s.setPart p x).egress = s.egress := by rfl
@[simp] theorem State.setPart_regs (p : Nat) (x : Part) : (s.setPart p x).regs = s.regs := by rfl
@[simp] theorem State.setPart_chip (p : Nat) (x : Part) : (s.setPart p x).chip = s.chip := by rfl
@[simp] theorem State.setPart_nv (p : Nat) (x : Part) : (s.setPart p x).nv = s.nv := by rfl
@[simp] theorem State.setPart_pool (p : Nat) (x : Part) : (s.setPart p x).pool = s.pool := by rfl
@[simp] theorem State.setPart_xl (p : Nat) (x : Part) : (s.setPart p x).xl = s.xl := by rfl
@[simp] theorem State.setPart_io (p : Nat) (x : Part) : (s.setPart p x).io = s.io := by rfl
@[simp] theorem State.setPart_qm (p : Nat) (x : Part) : (s.setPart p x).qm = s.qm := by rfl
@[simp] theorem State.setPart_tr (p : Nat) (x : Part) : (s.setPart p x).tr = s.tr := by rfl
@[simp] theorem State.setPart_sw (p : Nat) (x : Part) : (s.setPart p x).sw = s.sw := by rfl
@[simp] theorem State.setPart_eth (p : Nat) (x : Part) : (s.setPart p x).eth = s.eth := by rfl
@[simp] theorem State.setPart_arr (p : Nat) (x : Part) : (s.setPart p x).arr = s.arr := by rfl
@[simp] theorem State.setPart_col (p : Nat) (x : Part) : (s.setPart p x).col = s.col := by rfl
@[simp] theorem State.setPart_sec (p : Nat) (x : Part) : (s.setPart p x).sec = s.sec := by rfl
@[simp] theorem State.setPart_dmap (p : Nat) (x : Part) : (s.setPart p x).dmap = s.dmap := by rfl
@[simp] theorem State.setPart_node (p : Nat) (x : Part) : (s.setPart p x).node = s.node := by rfl
@[simp] theorem State.setPart_faultqs (p : Nat) (x : Part) : (s.setPart p x).faultqs = s.faultqs := by rfl
@[simp] theorem State.setPart_doms (p : Nat) (x : Part) : (s.setPart p x).doms = s.doms := by rfl
@[simp] theorem State.setPart_cnt (p : Nat) (x : Part) : (s.setPart p x).cnt = s.cnt := by rfl
@[simp] theorem State.setPart_kpr (p : Nat) (x : Part) : (s.setPart p x).kpr = s.kpr := by rfl
@[simp] theorem State.setPart_start (p : Nat) (x : Part) : (s.setPart p x).start = s.start := by rfl
@[simp] theorem State.setPart_stg (p : Nat) (x : Part) : (s.setPart p x).stg = s.stg := by rfl
@[simp] theorem State.setPart_pwr (p : Nat) (x : Part) : (s.setPart p x).pwr = s.pwr := by rfl
@[simp] theorem State.setPart_waiting (p : Nat) (x : Part) : (s.setPart p x).waiting = s.waiting := by rfl

-- modPart
@[simp] theorem State.modPart_pending (p : Nat) (f : Part → Part) : (s.modPart p f).pending = s.pending := by rfl
@[simp] theorem State.modPart_now (p : Nat) (f : Part → Part) : (s.modPart p f).now = s.now := by rfl
@[simp] theorem State.modPart_free (p : Nat) (f : Part → Part) : (s.modPart p f).free = s.free := by rfl
@[simp] theorem State.modPart_egress (p : Nat) (f : Part → Part) : (s.modPart p f).egress = s.egress := by rfl
@[simp] theorem State.modPart_regs (p : Nat) (f : Part → Part) : (s.modPart p f).regs = s.regs := by rfl
@[simp] theorem State.modPart_chip (p : Nat) (f : Part → Part) : (s.modPart p f).chip = s.chip := by rfl
@[simp] theorem State.modPart_nv (p : Nat) (f : Part → Part) : (s.modPart p f).nv = s.nv := by rfl
@[simp] theorem State.modPart_pool (p : Nat) (f : Part → Part) : (s.modPart p f).pool = s.pool := by rfl
@[simp] theorem State.modPart_xl (p : Nat) (f : Part → Part) : (s.modPart p f).xl = s.xl := by rfl
@[simp] theorem State.modPart_io (p : Nat) (f : Part → Part) : (s.modPart p f).io = s.io := by rfl
@[simp] theorem State.modPart_qm (p : Nat) (f : Part → Part) : (s.modPart p f).qm = s.qm := by rfl
@[simp] theorem State.modPart_tr (p : Nat) (f : Part → Part) : (s.modPart p f).tr = s.tr := by rfl
@[simp] theorem State.modPart_sw (p : Nat) (f : Part → Part) : (s.modPart p f).sw = s.sw := by rfl
@[simp] theorem State.modPart_eth (p : Nat) (f : Part → Part) : (s.modPart p f).eth = s.eth := by rfl
@[simp] theorem State.modPart_arr (p : Nat) (f : Part → Part) : (s.modPart p f).arr = s.arr := by rfl
@[simp] theorem State.modPart_col (p : Nat) (f : Part → Part) : (s.modPart p f).col = s.col := by rfl
@[simp] theorem State.modPart_sec (p : Nat) (f : Part → Part) : (s.modPart p f).sec = s.sec := by rfl
@[simp] theorem State.modPart_dmap (p : Nat) (f : Part → Part) : (s.modPart p f).dmap = s.dmap := by rfl
@[simp] theorem State.modPart_node (p : Nat) (f : Part → Part) : (s.modPart p f).node = s.node := by rfl
@[simp] theorem State.modPart_faultqs (p : Nat) (f : Part → Part) : (s.modPart p f).faultqs = s.faultqs := by rfl
@[simp] theorem State.modPart_doms (p : Nat) (f : Part → Part) : (s.modPart p f).doms = s.doms := by rfl
@[simp] theorem State.modPart_cnt (p : Nat) (f : Part → Part) : (s.modPart p f).cnt = s.cnt := by rfl
@[simp] theorem State.modPart_kpr (p : Nat) (f : Part → Part) : (s.modPart p f).kpr = s.kpr := by rfl
@[simp] theorem State.modPart_start (p : Nat) (f : Part → Part) : (s.modPart p f).start = s.start := by rfl
@[simp] theorem State.modPart_stg (p : Nat) (f : Part → Part) : (s.modPart p f).stg = s.stg := by rfl
@[simp] theorem State.modPart_pwr (p : Nat) (f : Part → Part) : (s.modPart p f).pwr = s.pwr := by rfl
@[simp] theorem State.modPart_waiting (p : Nat) (f : Part → Part) : (s.modPart p f).waiting = s.waiting := by rfl

-- setLink
@[simp] theorem State.setLink_pending (l : Nat) (x : Link) : (s.setLink l x).pending = s.pending := by rfl
@[simp] theorem State.setLink_now (l : Nat) (x : Link) : (s.setLink l x).now = s.now := by rfl
@[simp] theorem State.setLink_free (l : Nat) (x : Link) : (s.setLink l x).free = s.free := by rfl
@[simp] theorem State.setLink_egress (l : Nat) (x : Link) : (s.setLink l x).egress = s.egress := by rfl
@[simp] theorem State.setLink_regs (l : Nat) (x : Link) : (s.setLink l x).regs = s.regs := by rfl
@[simp] theorem State.setLink_chip (l : Nat) (x : Link) : (s.setLink l x).chip = s.chip := by rfl
@[simp] theorem State.setLink_nv (l : Nat) (x : Link) : (s.setLink l x).nv = s.nv := by rfl
@[simp] theorem State.setLink_pool (l : Nat) (x : Link) : (s.setLink l x).pool = s.pool := by rfl
@[simp] theorem State.setLink_xl (l : Nat) (x : Link) : (s.setLink l x).xl = s.xl := by rfl
@[simp] theorem State.setLink_qm (l : Nat) (x : Link) : (s.setLink l x).qm = s.qm := by rfl
@[simp] theorem State.setLink_tr (l : Nat) (x : Link) : (s.setLink l x).tr = s.tr := by rfl
@[simp] theorem State.setLink_sw (l : Nat) (x : Link) : (s.setLink l x).sw = s.sw := by rfl
@[simp] theorem State.setLink_eth (l : Nat) (x : Link) : (s.setLink l x).eth = s.eth := by rfl
@[simp] theorem State.setLink_arr (l : Nat) (x : Link) : (s.setLink l x).arr = s.arr := by rfl
@[simp] theorem State.setLink_col (l : Nat) (x : Link) : (s.setLink l x).col = s.col := by rfl
@[simp] theorem State.setLink_sec (l : Nat) (x : Link) : (s.setLink l x).sec = s.sec := by rfl
@[simp] theorem State.setLink_parts (l : Nat) (x : Link) : (s.setLink l x).parts = s.parts := by rfl
@[simp] theorem State.setLink_dmap (l : Nat) (x : Link) : (s.setLink l x).dmap = s.dmap := by rfl
@[simp] theorem State.setLink_node (l : Nat) (x : Link) : (s.setLink l x).node = s.node := by rfl
@[simp] theorem State.setLink_faultqs (l : Nat) (x : Link) : (s.setLink l x).faultqs = s.faultqs := by rfl
@[simp] theorem State.setLink_doms (l : Nat) (x : Link) : (s.setLink l x).doms = s.doms := by rfl
@[simp] theorem State.setLink_cnt (l : Nat) (x : Link) : (s.setLink l x).cnt = s.cnt := by rfl
@[simp] theorem State.setLink_kpr (l : Nat) (x : Link) : (s.setLink l x).kpr = s.kpr := by rfl
@[simp] theorem State.setLink_start (l : Nat) (x : Link) : (s.setLink l x).start = s.start := by rfl
@[simp] theorem State.setLink_stg (l : Nat) (x : Link) : (s.setLink l x).stg = s.stg := by rfl
@[simp] theorem State.setLink_pwr (l : Nat) (x : Link) : (s.setLink l x).pwr = s.pwr := by rfl
@[simp] theorem State.setLink_waiting (l : Nat) (x : Link) : (s.setLink l x).waiting = s.waiting := by rfl
@[simp] theorem State.setLink_io_reads (l : Nat) (x : Link) : (s.setLink l x).io.reads = s.io.reads := by rfl
@[simp] theorem State.setLink_io_builds (l : Nat) (x : Link) : (s.setLink l x).io.builds = s.io.builds := by rfl
@[simp] theorem State.setLink_io_places (l : Nat) (x : Link) : (s.setLink l x).io.places = s.io.places := by rfl
@[simp] theorem State.setLink_io_nextId (l : Nat) (x : Link) : (s.setLink l x).io.nextId = s.io.nextId := by rfl
@[simp] theorem State.setLink_io_stops (l : Nat) (x : Link) : (s.setLink l x).io.stops = s.io.stops := by rfl
@[simp] theorem State.setLink_io_late (l : Nat) (x : Link) : (s.setLink l x).io.late = s.io.late := by rfl

-- modLink
@[simp] theorem State.modLink_pending (l : Nat) (f : Link → Link) : (s.modLink l f).pending = s.pending := by rfl
@[simp] theorem State.modLink_now (l : Nat) (f : Link → Link) : (s.modLink l f).now = s.now := by rfl
@[simp] theorem State.modLink_free (l : Nat) (f : Link → Link) : (s.modLink l f).free = s.free := by rfl
@[simp] theorem State.modLink_egress (l : Nat) (f : Link → Link) : (s.modLink l f).egress = s.egress := by rfl
@[simp] theorem State.modLink_regs (l : Nat) (f : Link → Link) : (s.modLink l f).regs = s.regs := by rfl
@[simp] theorem State.modLink_chip (l : Nat) (f : Link → Link) : (s.modLink l f).chip = s.chip := by rfl
@[simp] theorem State.modLink_nv (l : Nat) (f : Link → Link) : (s.modLink l f).nv = s.nv := by rfl
@[simp] theorem State.modLink_pool (l : Nat) (f : Link → Link) : (s.modLink l f).pool = s.pool := by rfl
@[simp] theorem State.modLink_xl (l : Nat) (f : Link → Link) : (s.modLink l f).xl = s.xl := by rfl
@[simp] theorem State.modLink_qm (l : Nat) (f : Link → Link) : (s.modLink l f).qm = s.qm := by rfl
@[simp] theorem State.modLink_tr (l : Nat) (f : Link → Link) : (s.modLink l f).tr = s.tr := by rfl
@[simp] theorem State.modLink_sw (l : Nat) (f : Link → Link) : (s.modLink l f).sw = s.sw := by rfl
@[simp] theorem State.modLink_eth (l : Nat) (f : Link → Link) : (s.modLink l f).eth = s.eth := by rfl
@[simp] theorem State.modLink_arr (l : Nat) (f : Link → Link) : (s.modLink l f).arr = s.arr := by rfl
@[simp] theorem State.modLink_col (l : Nat) (f : Link → Link) : (s.modLink l f).col = s.col := by rfl
@[simp] theorem State.modLink_sec (l : Nat) (f : Link → Link) : (s.modLink l f).sec = s.sec := by rfl
@[simp] theorem State.modLink_parts (l : Nat) (f : Link → Link) : (s.modLink l f).parts = s.parts := by rfl
@[simp] theorem State.modLink_dmap (l : Nat) (f : Link → Link) : (s.modLink l f).dmap = s.dmap := by rfl
@[simp] theorem State.modLink_node (l : Nat) (f : Link → Link) : (s.modLink l f).node = s.node := by rfl
@[simp] theorem State.modLink_faultqs (l : Nat) (f : Link → Link) : (s.modLink l f).faultqs = s.faultqs := by rfl
@[simp] theorem State.modLink_doms (l : Nat) (f : Link → Link) : (s.modLink l f).doms = s.doms := by rfl
@[simp] theorem State.modLink_cnt (l : Nat) (f : Link → Link) : (s.modLink l f).cnt = s.cnt := by rfl
@[simp] theorem State.modLink_kpr (l : Nat) (f : Link → Link) : (s.modLink l f).kpr = s.kpr := by rfl
@[simp] theorem State.modLink_start (l : Nat) (f : Link → Link) : (s.modLink l f).start = s.start := by rfl
@[simp] theorem State.modLink_stg (l : Nat) (f : Link → Link) : (s.modLink l f).stg = s.stg := by rfl
@[simp] theorem State.modLink_pwr (l : Nat) (f : Link → Link) : (s.modLink l f).pwr = s.pwr := by rfl
@[simp] theorem State.modLink_waiting (l : Nat) (f : Link → Link) : (s.modLink l f).waiting = s.waiting := by rfl
@[simp] theorem State.modLink_io_reads (l : Nat) (f : Link → Link) : (s.modLink l f).io.reads = s.io.reads := by rfl
@[simp] theorem State.modLink_io_builds (l : Nat) (f : Link → Link) : (s.modLink l f).io.builds = s.io.builds := by rfl
@[simp] theorem State.modLink_io_places (l : Nat) (f : Link → Link) : (s.modLink l f).io.places = s.io.places := by rfl
@[simp] theorem State.modLink_io_nextId (l : Nat) (f : Link → Link) : (s.modLink l f).io.nextId = s.io.nextId := by rfl
@[simp] theorem State.modLink_io_stops (l : Nat) (f : Link → Link) : (s.modLink l f).io.stops = s.io.stops := by rfl
@[simp] theorem State.modLink_io_late (l : Nat) (f : Link → Link) : (s.modLink l f).io.late = s.io.late := by rfl

-- setBlk
@[simp] theorem State.setBlk_pending (b : Nat) (x : Blk) : (s.setBlk b x).pending = s.pending := by rfl
@[simp] theorem State.setBlk_now (b : Nat) (x : Blk) : (s.setBlk b x).now = s.now := by rfl
@[simp] theorem State.setBlk_free (b : Nat) (x : Blk) : (s.setBlk b x).free = s.free := by rfl
@[simp] theorem State.setBlk_egress (b : Nat) (x : Blk) : (s.setBlk b x).egress = s.egress := by rfl
@[simp] theorem State.setBlk_regs (b : Nat) (x : Blk) : (s.setBlk b x).regs = s.regs := by rfl
@[simp] theorem State.setBlk_chip (b : Nat) (x : Blk) : (s.setBlk b x).chip = s.chip := by rfl
@[simp] theorem State.setBlk_nv (b : Nat) (x : Blk) : (s.setBlk b x).nv = s.nv := by rfl
@[simp] theorem State.setBlk_xl (b : Nat) (x : Blk) : (s.setBlk b x).xl = s.xl := by rfl
@[simp] theorem State.setBlk_io (b : Nat) (x : Blk) : (s.setBlk b x).io = s.io := by rfl
@[simp] theorem State.setBlk_qm (b : Nat) (x : Blk) : (s.setBlk b x).qm = s.qm := by rfl
@[simp] theorem State.setBlk_tr (b : Nat) (x : Blk) : (s.setBlk b x).tr = s.tr := by rfl
@[simp] theorem State.setBlk_sw (b : Nat) (x : Blk) : (s.setBlk b x).sw = s.sw := by rfl
@[simp] theorem State.setBlk_eth (b : Nat) (x : Blk) : (s.setBlk b x).eth = s.eth := by rfl
@[simp] theorem State.setBlk_arr (b : Nat) (x : Blk) : (s.setBlk b x).arr = s.arr := by rfl
@[simp] theorem State.setBlk_col (b : Nat) (x : Blk) : (s.setBlk b x).col = s.col := by rfl
@[simp] theorem State.setBlk_sec (b : Nat) (x : Blk) : (s.setBlk b x).sec = s.sec := by rfl
@[simp] theorem State.setBlk_parts (b : Nat) (x : Blk) : (s.setBlk b x).parts = s.parts := by rfl
@[simp] theorem State.setBlk_dmap (b : Nat) (x : Blk) : (s.setBlk b x).dmap = s.dmap := by rfl
@[simp] theorem State.setBlk_node (b : Nat) (x : Blk) : (s.setBlk b x).node = s.node := by rfl
@[simp] theorem State.setBlk_faultqs (b : Nat) (x : Blk) : (s.setBlk b x).faultqs = s.faultqs := by rfl
@[simp] theorem State.setBlk_doms (b : Nat) (x : Blk) : (s.setBlk b x).doms = s.doms := by rfl
@[simp] theorem State.setBlk_cnt (b : Nat) (x : Blk) : (s.setBlk b x).cnt = s.cnt := by rfl
@[simp] theorem State.setBlk_kpr (b : Nat) (x : Blk) : (s.setBlk b x).kpr = s.kpr := by rfl
@[simp] theorem State.setBlk_start (b : Nat) (x : Blk) : (s.setBlk b x).start = s.start := by rfl
@[simp] theorem State.setBlk_stg (b : Nat) (x : Blk) : (s.setBlk b x).stg = s.stg := by rfl
@[simp] theorem State.setBlk_pwr (b : Nat) (x : Blk) : (s.setBlk b x).pwr = s.pwr := by rfl
@[simp] theorem State.setBlk_waiting (b : Nat) (x : Blk) : (s.setBlk b x).waiting = s.waiting := by rfl
@[simp] theorem State.setBlk_pool_mem (b : Nat) (x : Blk) : (s.setBlk b x).pool.mem = s.pool.mem := by rfl
@[simp] theorem State.setBlk_pool_poison (b : Nat) (x : Blk) : (s.setBlk b x).pool.poison = s.pool.poison := by rfl
@[simp] theorem State.setBlk_pool_ce (b : Nat) (x : Blk) : (s.setBlk b x).pool.ce = s.pool.ce := by rfl
@[simp] theorem State.setBlk_pool_gmap (b : Nat) (x : Blk) : (s.setBlk b x).pool.gmap = s.pool.gmap := by rfl
@[simp] theorem State.setBlk_pool_bias (b : Nat) (x : Blk) : (s.setBlk b x).pool.bias = s.pool.bias := by rfl
@[simp] theorem State.setBlk_pool_stackTbl (b : Nat) (x : Blk) : (s.setBlk b x).pool.stackTbl = s.pool.stackTbl := by rfl
@[simp] theorem State.setBlk_pool_migr (b : Nat) (x : Blk) : (s.setBlk b x).pool.migr = s.pool.migr := by rfl
@[simp] theorem State.setBlk_pool_freeing (b : Nat) (x : Blk) : (s.setBlk b x).pool.freeing = s.pool.freeing := by rfl
@[simp] theorem State.setBlk_pool_xtsKeys (b : Nat) (x : Blk) : (s.setBlk b x).pool.xtsKeys = s.pool.xtsKeys := by rfl
@[simp] theorem State.setBlk_pool_bad (b : Nat) (x : Blk) : (s.setBlk b x).pool.bad = s.pool.bad := by rfl
@[simp] theorem State.setBlk_pool_wrote (b : Nat) (x : Blk) : (s.setBlk b x).pool.wrote = s.pool.wrote := by rfl

-- setGblk
@[simp] theorem State.setGblk_pending (n : Nat) (x : GBlk) : (s.setGblk n x).pending = s.pending := by rfl
@[simp] theorem State.setGblk_now (n : Nat) (x : GBlk) : (s.setGblk n x).now = s.now := by rfl
@[simp] theorem State.setGblk_free (n : Nat) (x : GBlk) : (s.setGblk n x).free = s.free := by rfl
@[simp] theorem State.setGblk_egress (n : Nat) (x : GBlk) : (s.setGblk n x).egress = s.egress := by rfl
@[simp] theorem State.setGblk_regs (n : Nat) (x : GBlk) : (s.setGblk n x).regs = s.regs := by rfl
@[simp] theorem State.setGblk_chip (n : Nat) (x : GBlk) : (s.setGblk n x).chip = s.chip := by rfl
@[simp] theorem State.setGblk_nv (n : Nat) (x : GBlk) : (s.setGblk n x).nv = s.nv := by rfl
@[simp] theorem State.setGblk_xl (n : Nat) (x : GBlk) : (s.setGblk n x).xl = s.xl := by rfl
@[simp] theorem State.setGblk_io (n : Nat) (x : GBlk) : (s.setGblk n x).io = s.io := by rfl
@[simp] theorem State.setGblk_qm (n : Nat) (x : GBlk) : (s.setGblk n x).qm = s.qm := by rfl
@[simp] theorem State.setGblk_tr (n : Nat) (x : GBlk) : (s.setGblk n x).tr = s.tr := by rfl
@[simp] theorem State.setGblk_sw (n : Nat) (x : GBlk) : (s.setGblk n x).sw = s.sw := by rfl
@[simp] theorem State.setGblk_eth (n : Nat) (x : GBlk) : (s.setGblk n x).eth = s.eth := by rfl
@[simp] theorem State.setGblk_arr (n : Nat) (x : GBlk) : (s.setGblk n x).arr = s.arr := by rfl
@[simp] theorem State.setGblk_col (n : Nat) (x : GBlk) : (s.setGblk n x).col = s.col := by rfl
@[simp] theorem State.setGblk_sec (n : Nat) (x : GBlk) : (s.setGblk n x).sec = s.sec := by rfl
@[simp] theorem State.setGblk_parts (n : Nat) (x : GBlk) : (s.setGblk n x).parts = s.parts := by rfl
@[simp] theorem State.setGblk_dmap (n : Nat) (x : GBlk) : (s.setGblk n x).dmap = s.dmap := by rfl
@[simp] theorem State.setGblk_node (n : Nat) (x : GBlk) : (s.setGblk n x).node = s.node := by rfl
@[simp] theorem State.setGblk_faultqs (n : Nat) (x : GBlk) : (s.setGblk n x).faultqs = s.faultqs := by rfl
@[simp] theorem State.setGblk_doms (n : Nat) (x : GBlk) : (s.setGblk n x).doms = s.doms := by rfl
@[simp] theorem State.setGblk_cnt (n : Nat) (x : GBlk) : (s.setGblk n x).cnt = s.cnt := by rfl
@[simp] theorem State.setGblk_kpr (n : Nat) (x : GBlk) : (s.setGblk n x).kpr = s.kpr := by rfl
@[simp] theorem State.setGblk_start (n : Nat) (x : GBlk) : (s.setGblk n x).start = s.start := by rfl
@[simp] theorem State.setGblk_stg (n : Nat) (x : GBlk) : (s.setGblk n x).stg = s.stg := by rfl
@[simp] theorem State.setGblk_pwr (n : Nat) (x : GBlk) : (s.setGblk n x).pwr = s.pwr := by rfl
@[simp] theorem State.setGblk_waiting (n : Nat) (x : GBlk) : (s.setGblk n x).waiting = s.waiting := by rfl
@[simp] theorem State.setGblk_pool_mem (n : Nat) (x : GBlk) : (s.setGblk n x).pool.mem = s.pool.mem := by rfl
@[simp] theorem State.setGblk_pool_poison (n : Nat) (x : GBlk) : (s.setGblk n x).pool.poison = s.pool.poison := by rfl
@[simp] theorem State.setGblk_pool_ce (n : Nat) (x : GBlk) : (s.setGblk n x).pool.ce = s.pool.ce := by rfl
@[simp] theorem State.setGblk_pool_blks (n : Nat) (x : GBlk) : (s.setGblk n x).pool.blks = s.pool.blks := by rfl
@[simp] theorem State.setGblk_pool_bias (n : Nat) (x : GBlk) : (s.setGblk n x).pool.bias = s.pool.bias := by rfl
@[simp] theorem State.setGblk_pool_stackTbl (n : Nat) (x : GBlk) : (s.setGblk n x).pool.stackTbl = s.pool.stackTbl := by rfl
@[simp] theorem State.setGblk_pool_migr (n : Nat) (x : GBlk) : (s.setGblk n x).pool.migr = s.pool.migr := by rfl
@[simp] theorem State.setGblk_pool_freeing (n : Nat) (x : GBlk) : (s.setGblk n x).pool.freeing = s.pool.freeing := by rfl
@[simp] theorem State.setGblk_pool_xtsKeys (n : Nat) (x : GBlk) : (s.setGblk n x).pool.xtsKeys = s.pool.xtsKeys := by rfl
@[simp] theorem State.setGblk_pool_bad (n : Nat) (x : GBlk) : (s.setGblk n x).pool.bad = s.pool.bad := by rfl
@[simp] theorem State.setGblk_pool_wrote (n : Nat) (x : GBlk) : (s.setGblk n x).pool.wrote = s.pool.wrote := by rfl

-- setStack
@[simp] theorem State.setStack_pending (k : Nat) (x : Stack) : (s.setStack k x).pending = s.pending := by rfl
@[simp] theorem State.setStack_now (k : Nat) (x : Stack) : (s.setStack k x).now = s.now := by rfl
@[simp] theorem State.setStack_free (k : Nat) (x : Stack) : (s.setStack k x).free = s.free := by rfl
@[simp] theorem State.setStack_egress (k : Nat) (x : Stack) : (s.setStack k x).egress = s.egress := by rfl
@[simp] theorem State.setStack_regs (k : Nat) (x : Stack) : (s.setStack k x).regs = s.regs := by rfl
@[simp] theorem State.setStack_chip (k : Nat) (x : Stack) : (s.setStack k x).chip = s.chip := by rfl
@[simp] theorem State.setStack_nv (k : Nat) (x : Stack) : (s.setStack k x).nv = s.nv := by rfl
@[simp] theorem State.setStack_xl (k : Nat) (x : Stack) : (s.setStack k x).xl = s.xl := by rfl
@[simp] theorem State.setStack_io (k : Nat) (x : Stack) : (s.setStack k x).io = s.io := by rfl
@[simp] theorem State.setStack_qm (k : Nat) (x : Stack) : (s.setStack k x).qm = s.qm := by rfl
@[simp] theorem State.setStack_tr (k : Nat) (x : Stack) : (s.setStack k x).tr = s.tr := by rfl
@[simp] theorem State.setStack_sw (k : Nat) (x : Stack) : (s.setStack k x).sw = s.sw := by rfl
@[simp] theorem State.setStack_eth (k : Nat) (x : Stack) : (s.setStack k x).eth = s.eth := by rfl
@[simp] theorem State.setStack_arr (k : Nat) (x : Stack) : (s.setStack k x).arr = s.arr := by rfl
@[simp] theorem State.setStack_col (k : Nat) (x : Stack) : (s.setStack k x).col = s.col := by rfl
@[simp] theorem State.setStack_sec (k : Nat) (x : Stack) : (s.setStack k x).sec = s.sec := by rfl
@[simp] theorem State.setStack_parts (k : Nat) (x : Stack) : (s.setStack k x).parts = s.parts := by rfl
@[simp] theorem State.setStack_dmap (k : Nat) (x : Stack) : (s.setStack k x).dmap = s.dmap := by rfl
@[simp] theorem State.setStack_node (k : Nat) (x : Stack) : (s.setStack k x).node = s.node := by rfl
@[simp] theorem State.setStack_faultqs (k : Nat) (x : Stack) : (s.setStack k x).faultqs = s.faultqs := by rfl
@[simp] theorem State.setStack_doms (k : Nat) (x : Stack) : (s.setStack k x).doms = s.doms := by rfl
@[simp] theorem State.setStack_cnt (k : Nat) (x : Stack) : (s.setStack k x).cnt = s.cnt := by rfl
@[simp] theorem State.setStack_kpr (k : Nat) (x : Stack) : (s.setStack k x).kpr = s.kpr := by rfl
@[simp] theorem State.setStack_start (k : Nat) (x : Stack) : (s.setStack k x).start = s.start := by rfl
@[simp] theorem State.setStack_stg (k : Nat) (x : Stack) : (s.setStack k x).stg = s.stg := by rfl
@[simp] theorem State.setStack_pwr (k : Nat) (x : Stack) : (s.setStack k x).pwr = s.pwr := by rfl
@[simp] theorem State.setStack_waiting (k : Nat) (x : Stack) : (s.setStack k x).waiting = s.waiting := by rfl
@[simp] theorem State.setStack_pool_mem (k : Nat) (x : Stack) : (s.setStack k x).pool.mem = s.pool.mem := by rfl
@[simp] theorem State.setStack_pool_poison (k : Nat) (x : Stack) : (s.setStack k x).pool.poison = s.pool.poison := by rfl
@[simp] theorem State.setStack_pool_ce (k : Nat) (x : Stack) : (s.setStack k x).pool.ce = s.pool.ce := by rfl
@[simp] theorem State.setStack_pool_blks (k : Nat) (x : Stack) : (s.setStack k x).pool.blks = s.pool.blks := by rfl
@[simp] theorem State.setStack_pool_gmap (k : Nat) (x : Stack) : (s.setStack k x).pool.gmap = s.pool.gmap := by rfl
@[simp] theorem State.setStack_pool_bias (k : Nat) (x : Stack) : (s.setStack k x).pool.bias = s.pool.bias := by rfl
@[simp] theorem State.setStack_pool_migr (k : Nat) (x : Stack) : (s.setStack k x).pool.migr = s.pool.migr := by rfl
@[simp] theorem State.setStack_pool_freeing (k : Nat) (x : Stack) : (s.setStack k x).pool.freeing = s.pool.freeing := by rfl
@[simp] theorem State.setStack_pool_xtsKeys (k : Nat) (x : Stack) : (s.setStack k x).pool.xtsKeys = s.pool.xtsKeys := by rfl
@[simp] theorem State.setStack_pool_bad (k : Nat) (x : Stack) : (s.setStack k x).pool.bad = s.pool.bad := by rfl
@[simp] theorem State.setStack_pool_wrote (k : Nat) (x : Stack) : (s.setStack k x).pool.wrote = s.pool.wrote := by rfl

-- memWrite
@[simp] theorem State.memWrite_pending (a : Nat) (bs : List Byte) : (s.memWrite a bs).pending = s.pending := by rfl
@[simp] theorem State.memWrite_now (a : Nat) (bs : List Byte) : (s.memWrite a bs).now = s.now := by rfl
@[simp] theorem State.memWrite_free (a : Nat) (bs : List Byte) : (s.memWrite a bs).free = s.free := by rfl
@[simp] theorem State.memWrite_egress (a : Nat) (bs : List Byte) : (s.memWrite a bs).egress = s.egress := by rfl
@[simp] theorem State.memWrite_regs (a : Nat) (bs : List Byte) : (s.memWrite a bs).regs = s.regs := by rfl
@[simp] theorem State.memWrite_chip (a : Nat) (bs : List Byte) : (s.memWrite a bs).chip = s.chip := by rfl
@[simp] theorem State.memWrite_nv (a : Nat) (bs : List Byte) : (s.memWrite a bs).nv = s.nv := by rfl
@[simp] theorem State.memWrite_xl (a : Nat) (bs : List Byte) : (s.memWrite a bs).xl = s.xl := by rfl
@[simp] theorem State.memWrite_io (a : Nat) (bs : List Byte) : (s.memWrite a bs).io = s.io := by rfl
@[simp] theorem State.memWrite_qm (a : Nat) (bs : List Byte) : (s.memWrite a bs).qm = s.qm := by rfl
@[simp] theorem State.memWrite_tr (a : Nat) (bs : List Byte) : (s.memWrite a bs).tr = s.tr := by rfl
@[simp] theorem State.memWrite_sw (a : Nat) (bs : List Byte) : (s.memWrite a bs).sw = s.sw := by rfl
@[simp] theorem State.memWrite_eth (a : Nat) (bs : List Byte) : (s.memWrite a bs).eth = s.eth := by rfl
@[simp] theorem State.memWrite_arr (a : Nat) (bs : List Byte) : (s.memWrite a bs).arr = s.arr := by rfl
@[simp] theorem State.memWrite_col (a : Nat) (bs : List Byte) : (s.memWrite a bs).col = s.col := by rfl
@[simp] theorem State.memWrite_sec (a : Nat) (bs : List Byte) : (s.memWrite a bs).sec = s.sec := by rfl
@[simp] theorem State.memWrite_parts (a : Nat) (bs : List Byte) : (s.memWrite a bs).parts = s.parts := by rfl
@[simp] theorem State.memWrite_dmap (a : Nat) (bs : List Byte) : (s.memWrite a bs).dmap = s.dmap := by rfl
@[simp] theorem State.memWrite_node (a : Nat) (bs : List Byte) : (s.memWrite a bs).node = s.node := by rfl
@[simp] theorem State.memWrite_faultqs (a : Nat) (bs : List Byte) : (s.memWrite a bs).faultqs = s.faultqs := by rfl
@[simp] theorem State.memWrite_doms (a : Nat) (bs : List Byte) : (s.memWrite a bs).doms = s.doms := by rfl
@[simp] theorem State.memWrite_cnt (a : Nat) (bs : List Byte) : (s.memWrite a bs).cnt = s.cnt := by rfl
@[simp] theorem State.memWrite_kpr (a : Nat) (bs : List Byte) : (s.memWrite a bs).kpr = s.kpr := by rfl
@[simp] theorem State.memWrite_start (a : Nat) (bs : List Byte) : (s.memWrite a bs).start = s.start := by rfl
@[simp] theorem State.memWrite_stg (a : Nat) (bs : List Byte) : (s.memWrite a bs).stg = s.stg := by rfl
@[simp] theorem State.memWrite_pwr (a : Nat) (bs : List Byte) : (s.memWrite a bs).pwr = s.pwr := by rfl
@[simp] theorem State.memWrite_waiting (a : Nat) (bs : List Byte) : (s.memWrite a bs).waiting = s.waiting := by rfl
@[simp] theorem State.memWrite_pool_poison (a : Nat) (bs : List Byte) : (s.memWrite a bs).pool.poison = s.pool.poison := by rfl
@[simp] theorem State.memWrite_pool_ce (a : Nat) (bs : List Byte) : (s.memWrite a bs).pool.ce = s.pool.ce := by rfl
@[simp] theorem State.memWrite_pool_blks (a : Nat) (bs : List Byte) : (s.memWrite a bs).pool.blks = s.pool.blks := by rfl
@[simp] theorem State.memWrite_pool_gmap (a : Nat) (bs : List Byte) : (s.memWrite a bs).pool.gmap = s.pool.gmap := by rfl
@[simp] theorem State.memWrite_pool_bias (a : Nat) (bs : List Byte) : (s.memWrite a bs).pool.bias = s.pool.bias := by rfl
@[simp] theorem State.memWrite_pool_stackTbl (a : Nat) (bs : List Byte) : (s.memWrite a bs).pool.stackTbl = s.pool.stackTbl := by rfl
@[simp] theorem State.memWrite_pool_migr (a : Nat) (bs : List Byte) : (s.memWrite a bs).pool.migr = s.pool.migr := by rfl
@[simp] theorem State.memWrite_pool_freeing (a : Nat) (bs : List Byte) : (s.memWrite a bs).pool.freeing = s.pool.freeing := by rfl
@[simp] theorem State.memWrite_pool_xtsKeys (a : Nat) (bs : List Byte) : (s.memWrite a bs).pool.xtsKeys = s.pool.xtsKeys := by rfl
@[simp] theorem State.memWrite_pool_bad (a : Nat) (bs : List Byte) : (s.memWrite a bs).pool.bad = s.pool.bad := by rfl
@[simp] theorem State.memWrite_pool_wrote (a : Nat) (bs : List Byte) : (s.memWrite a bs).pool.wrote = s.pool.wrote := by rfl

-- setDom
@[simp] theorem State.setDom_pending (d : Nat) (x : Domain) : (s.setDom d x).pending = s.pending := by rfl
@[simp] theorem State.setDom_now (d : Nat) (x : Domain) : (s.setDom d x).now = s.now := by rfl
@[simp] theorem State.setDom_free (d : Nat) (x : Domain) : (s.setDom d x).free = s.free := by rfl
@[simp] theorem State.setDom_egress (d : Nat) (x : Domain) : (s.setDom d x).egress = s.egress := by rfl
@[simp] theorem State.setDom_regs (d : Nat) (x : Domain) : (s.setDom d x).regs = s.regs := by rfl
@[simp] theorem State.setDom_chip (d : Nat) (x : Domain) : (s.setDom d x).chip = s.chip := by rfl
@[simp] theorem State.setDom_nv (d : Nat) (x : Domain) : (s.setDom d x).nv = s.nv := by rfl
@[simp] theorem State.setDom_pool (d : Nat) (x : Domain) : (s.setDom d x).pool = s.pool := by rfl
@[simp] theorem State.setDom_xl (d : Nat) (x : Domain) : (s.setDom d x).xl = s.xl := by rfl
@[simp] theorem State.setDom_io (d : Nat) (x : Domain) : (s.setDom d x).io = s.io := by rfl
@[simp] theorem State.setDom_qm (d : Nat) (x : Domain) : (s.setDom d x).qm = s.qm := by rfl
@[simp] theorem State.setDom_tr (d : Nat) (x : Domain) : (s.setDom d x).tr = s.tr := by rfl
@[simp] theorem State.setDom_sw (d : Nat) (x : Domain) : (s.setDom d x).sw = s.sw := by rfl
@[simp] theorem State.setDom_eth (d : Nat) (x : Domain) : (s.setDom d x).eth = s.eth := by rfl
@[simp] theorem State.setDom_arr (d : Nat) (x : Domain) : (s.setDom d x).arr = s.arr := by rfl
@[simp] theorem State.setDom_col (d : Nat) (x : Domain) : (s.setDom d x).col = s.col := by rfl
@[simp] theorem State.setDom_sec (d : Nat) (x : Domain) : (s.setDom d x).sec = s.sec := by rfl
@[simp] theorem State.setDom_parts (d : Nat) (x : Domain) : (s.setDom d x).parts = s.parts := by rfl
@[simp] theorem State.setDom_dmap (d : Nat) (x : Domain) : (s.setDom d x).dmap = s.dmap := by rfl
@[simp] theorem State.setDom_node (d : Nat) (x : Domain) : (s.setDom d x).node = s.node := by rfl
@[simp] theorem State.setDom_faultqs (d : Nat) (x : Domain) : (s.setDom d x).faultqs = s.faultqs := by rfl
@[simp] theorem State.setDom_cnt (d : Nat) (x : Domain) : (s.setDom d x).cnt = s.cnt := by rfl
@[simp] theorem State.setDom_kpr (d : Nat) (x : Domain) : (s.setDom d x).kpr = s.kpr := by rfl
@[simp] theorem State.setDom_start (d : Nat) (x : Domain) : (s.setDom d x).start = s.start := by rfl
@[simp] theorem State.setDom_stg (d : Nat) (x : Domain) : (s.setDom d x).stg = s.stg := by rfl
@[simp] theorem State.setDom_pwr (d : Nat) (x : Domain) : (s.setDom d x).pwr = s.pwr := by rfl
@[simp] theorem State.setDom_waiting (d : Nat) (x : Domain) : (s.setDom d x).waiting = s.waiting := by rfl

-- touchDom
@[simp] theorem State.touchDom_pending (d : Nat) : (s.touchDom d).pending = s.pending := by rfl
@[simp] theorem State.touchDom_now (d : Nat) : (s.touchDom d).now = s.now := by rfl
@[simp] theorem State.touchDom_free (d : Nat) : (s.touchDom d).free = s.free := by rfl
@[simp] theorem State.touchDom_egress (d : Nat) : (s.touchDom d).egress = s.egress := by rfl
@[simp] theorem State.touchDom_regs (d : Nat) : (s.touchDom d).regs = s.regs := by rfl
@[simp] theorem State.touchDom_chip (d : Nat) : (s.touchDom d).chip = s.chip := by rfl
@[simp] theorem State.touchDom_nv (d : Nat) : (s.touchDom d).nv = s.nv := by rfl
@[simp] theorem State.touchDom_pool (d : Nat) : (s.touchDom d).pool = s.pool := by rfl
@[simp] theorem State.touchDom_xl (d : Nat) : (s.touchDom d).xl = s.xl := by rfl
@[simp] theorem State.touchDom_io (d : Nat) : (s.touchDom d).io = s.io := by rfl
@[simp] theorem State.touchDom_qm (d : Nat) : (s.touchDom d).qm = s.qm := by rfl
@[simp] theorem State.touchDom_tr (d : Nat) : (s.touchDom d).tr = s.tr := by rfl
@[simp] theorem State.touchDom_sw (d : Nat) : (s.touchDom d).sw = s.sw := by rfl
@[simp] theorem State.touchDom_eth (d : Nat) : (s.touchDom d).eth = s.eth := by rfl
@[simp] theorem State.touchDom_arr (d : Nat) : (s.touchDom d).arr = s.arr := by rfl
@[simp] theorem State.touchDom_col (d : Nat) : (s.touchDom d).col = s.col := by rfl
@[simp] theorem State.touchDom_sec (d : Nat) : (s.touchDom d).sec = s.sec := by rfl
@[simp] theorem State.touchDom_parts (d : Nat) : (s.touchDom d).parts = s.parts := by rfl
@[simp] theorem State.touchDom_dmap (d : Nat) : (s.touchDom d).dmap = s.dmap := by rfl
@[simp] theorem State.touchDom_node (d : Nat) : (s.touchDom d).node = s.node := by rfl
@[simp] theorem State.touchDom_faultqs (d : Nat) : (s.touchDom d).faultqs = s.faultqs := by rfl
@[simp] theorem State.touchDom_cnt (d : Nat) : (s.touchDom d).cnt = s.cnt := by rfl
@[simp] theorem State.touchDom_kpr (d : Nat) : (s.touchDom d).kpr = s.kpr := by rfl
@[simp] theorem State.touchDom_start (d : Nat) : (s.touchDom d).start = s.start := by rfl
@[simp] theorem State.touchDom_stg (d : Nat) : (s.touchDom d).stg = s.stg := by rfl
@[simp] theorem State.touchDom_pwr (d : Nat) : (s.touchDom d).pwr = s.pwr := by rfl
@[simp] theorem State.touchDom_waiting (d : Nat) : (s.touchDom d).waiting = s.waiting := by rfl

-- setFaultq
@[simp] theorem State.setFaultq_pending (k : Nat) (q : FaultQ) : (s.setFaultq k q).pending = s.pending := by rfl
@[simp] theorem State.setFaultq_now (k : Nat) (q : FaultQ) : (s.setFaultq k q).now = s.now := by rfl
@[simp] theorem State.setFaultq_free (k : Nat) (q : FaultQ) : (s.setFaultq k q).free = s.free := by rfl
@[simp] theorem State.setFaultq_egress (k : Nat) (q : FaultQ) : (s.setFaultq k q).egress = s.egress := by rfl
@[simp] theorem State.setFaultq_regs (k : Nat) (q : FaultQ) : (s.setFaultq k q).regs = s.regs := by rfl
@[simp] theorem State.setFaultq_chip (k : Nat) (q : FaultQ) : (s.setFaultq k q).chip = s.chip := by rfl
@[simp] theorem State.setFaultq_nv (k : Nat) (q : FaultQ) : (s.setFaultq k q).nv = s.nv := by rfl
@[simp] theorem State.setFaultq_pool (k : Nat) (q : FaultQ) : (s.setFaultq k q).pool = s.pool := by rfl
@[simp] theorem State.setFaultq_xl (k : Nat) (q : FaultQ) : (s.setFaultq k q).xl = s.xl := by rfl
@[simp] theorem State.setFaultq_io (k : Nat) (q : FaultQ) : (s.setFaultq k q).io = s.io := by rfl
@[simp] theorem State.setFaultq_qm (k : Nat) (q : FaultQ) : (s.setFaultq k q).qm = s.qm := by rfl
@[simp] theorem State.setFaultq_tr (k : Nat) (q : FaultQ) : (s.setFaultq k q).tr = s.tr := by rfl
@[simp] theorem State.setFaultq_sw (k : Nat) (q : FaultQ) : (s.setFaultq k q).sw = s.sw := by rfl
@[simp] theorem State.setFaultq_eth (k : Nat) (q : FaultQ) : (s.setFaultq k q).eth = s.eth := by rfl
@[simp] theorem State.setFaultq_arr (k : Nat) (q : FaultQ) : (s.setFaultq k q).arr = s.arr := by rfl
@[simp] theorem State.setFaultq_col (k : Nat) (q : FaultQ) : (s.setFaultq k q).col = s.col := by rfl
@[simp] theorem State.setFaultq_sec (k : Nat) (q : FaultQ) : (s.setFaultq k q).sec = s.sec := by rfl
@[simp] theorem State.setFaultq_parts (k : Nat) (q : FaultQ) : (s.setFaultq k q).parts = s.parts := by rfl
@[simp] theorem State.setFaultq_dmap (k : Nat) (q : FaultQ) : (s.setFaultq k q).dmap = s.dmap := by rfl
@[simp] theorem State.setFaultq_node (k : Nat) (q : FaultQ) : (s.setFaultq k q).node = s.node := by rfl
@[simp] theorem State.setFaultq_doms (k : Nat) (q : FaultQ) : (s.setFaultq k q).doms = s.doms := by rfl
@[simp] theorem State.setFaultq_cnt (k : Nat) (q : FaultQ) : (s.setFaultq k q).cnt = s.cnt := by rfl
@[simp] theorem State.setFaultq_kpr (k : Nat) (q : FaultQ) : (s.setFaultq k q).kpr = s.kpr := by rfl
@[simp] theorem State.setFaultq_start (k : Nat) (q : FaultQ) : (s.setFaultq k q).start = s.start := by rfl
@[simp] theorem State.setFaultq_stg (k : Nat) (q : FaultQ) : (s.setFaultq k q).stg = s.stg := by rfl
@[simp] theorem State.setFaultq_pwr (k : Nat) (q : FaultQ) : (s.setFaultq k q).pwr = s.pwr := by rfl
@[simp] theorem State.setFaultq_waiting (k : Nat) (q : FaultQ) : (s.setFaultq k q).waiting = s.waiting := by rfl

-- setQp
@[simp] theorem State.setQp_pending (n : Nat) (q : Qp) : (s.setQp n q).pending = s.pending := by rfl
@[simp] theorem State.setQp_now (n : Nat) (q : Qp) : (s.setQp n q).now = s.now := by rfl
@[simp] theorem State.setQp_free (n : Nat) (q : Qp) : (s.setQp n q).free = s.free := by rfl
@[simp] theorem State.setQp_egress (n : Nat) (q : Qp) : (s.setQp n q).egress = s.egress := by rfl
@[simp] theorem State.setQp_regs (n : Nat) (q : Qp) : (s.setQp n q).regs = s.regs := by rfl
@[simp] theorem State.setQp_chip (n : Nat) (q : Qp) : (s.setQp n q).chip = s.chip := by rfl
@[simp] theorem State.setQp_nv (n : Nat) (q : Qp) : (s.setQp n q).nv = s.nv := by rfl
@[simp] theorem State.setQp_pool (n : Nat) (q : Qp) : (s.setQp n q).pool = s.pool := by rfl
@[simp] theorem State.setQp_xl (n : Nat) (q : Qp) : (s.setQp n q).xl = s.xl := by rfl
@[simp] theorem State.setQp_io (n : Nat) (q : Qp) : (s.setQp n q).io = s.io := by rfl
@[simp] theorem State.setQp_tr (n : Nat) (q : Qp) : (s.setQp n q).tr = s.tr := by rfl
@[simp] theorem State.setQp_sw (n : Nat) (q : Qp) : (s.setQp n q).sw = s.sw := by rfl
@[simp] theorem State.setQp_eth (n : Nat) (q : Qp) : (s.setQp n q).eth = s.eth := by rfl
@[simp] theorem State.setQp_arr (n : Nat) (q : Qp) : (s.setQp n q).arr = s.arr := by rfl
@[simp] theorem State.setQp_col (n : Nat) (q : Qp) : (s.setQp n q).col = s.col := by rfl
@[simp] theorem State.setQp_sec (n : Nat) (q : Qp) : (s.setQp n q).sec = s.sec := by rfl
@[simp] theorem State.setQp_parts (n : Nat) (q : Qp) : (s.setQp n q).parts = s.parts := by rfl
@[simp] theorem State.setQp_dmap (n : Nat) (q : Qp) : (s.setQp n q).dmap = s.dmap := by rfl
@[simp] theorem State.setQp_node (n : Nat) (q : Qp) : (s.setQp n q).node = s.node := by rfl
@[simp] theorem State.setQp_faultqs (n : Nat) (q : Qp) : (s.setQp n q).faultqs = s.faultqs := by rfl
@[simp] theorem State.setQp_doms (n : Nat) (q : Qp) : (s.setQp n q).doms = s.doms := by rfl
@[simp] theorem State.setQp_cnt (n : Nat) (q : Qp) : (s.setQp n q).cnt = s.cnt := by rfl
@[simp] theorem State.setQp_kpr (n : Nat) (q : Qp) : (s.setQp n q).kpr = s.kpr := by rfl
@[simp] theorem State.setQp_start (n : Nat) (q : Qp) : (s.setQp n q).start = s.start := by rfl
@[simp] theorem State.setQp_stg (n : Nat) (q : Qp) : (s.setQp n q).stg = s.stg := by rfl
@[simp] theorem State.setQp_pwr (n : Nat) (q : Qp) : (s.setQp n q).pwr = s.pwr := by rfl
@[simp] theorem State.setQp_waiting (n : Nat) (q : Qp) : (s.setQp n q).waiting = s.waiting := by rfl
@[simp] theorem State.setQp_qm_rings (n : Nat) (q : Qp) : (s.setQp n q).qm.rings = s.qm.rings := by rfl
@[simp] theorem State.setQp_qm_admqs (n : Nat) (q : Qp) : (s.setQp n q).qm.admqs = s.qm.admqs := by rfl
@[simp] theorem State.setQp_qm_recs (n : Nat) (q : Qp) : (s.setQp n q).qm.recs = s.qm.recs := by rfl
@[simp] theorem State.setQp_qm_devHalt (n : Nat) (q : Qp) : (s.setQp n q).qm.devHalt = s.qm.devHalt := by rfl

-- setRing
@[simp] theorem State.setRing_pending (r : Nat) (x : Ring) : (s.setRing r x).pending = s.pending := by rfl
@[simp] theorem State.setRing_now (r : Nat) (x : Ring) : (s.setRing r x).now = s.now := by rfl
@[simp] theorem State.setRing_free (r : Nat) (x : Ring) : (s.setRing r x).free = s.free := by rfl
@[simp] theorem State.setRing_egress (r : Nat) (x : Ring) : (s.setRing r x).egress = s.egress := by rfl
@[simp] theorem State.setRing_regs (r : Nat) (x : Ring) : (s.setRing r x).regs = s.regs := by rfl
@[simp] theorem State.setRing_chip (r : Nat) (x : Ring) : (s.setRing r x).chip = s.chip := by rfl
@[simp] theorem State.setRing_nv (r : Nat) (x : Ring) : (s.setRing r x).nv = s.nv := by rfl
@[simp] theorem State.setRing_pool (r : Nat) (x : Ring) : (s.setRing r x).pool = s.pool := by rfl
@[simp] theorem State.setRing_xl (r : Nat) (x : Ring) : (s.setRing r x).xl = s.xl := by rfl
@[simp] theorem State.setRing_io (r : Nat) (x : Ring) : (s.setRing r x).io = s.io := by rfl
@[simp] theorem State.setRing_tr (r : Nat) (x : Ring) : (s.setRing r x).tr = s.tr := by rfl
@[simp] theorem State.setRing_sw (r : Nat) (x : Ring) : (s.setRing r x).sw = s.sw := by rfl
@[simp] theorem State.setRing_eth (r : Nat) (x : Ring) : (s.setRing r x).eth = s.eth := by rfl
@[simp] theorem State.setRing_arr (r : Nat) (x : Ring) : (s.setRing r x).arr = s.arr := by rfl
@[simp] theorem State.setRing_col (r : Nat) (x : Ring) : (s.setRing r x).col = s.col := by rfl
@[simp] theorem State.setRing_sec (r : Nat) (x : Ring) : (s.setRing r x).sec = s.sec := by rfl
@[simp] theorem State.setRing_parts (r : Nat) (x : Ring) : (s.setRing r x).parts = s.parts := by rfl
@[simp] theorem State.setRing_dmap (r : Nat) (x : Ring) : (s.setRing r x).dmap = s.dmap := by rfl
@[simp] theorem State.setRing_node (r : Nat) (x : Ring) : (s.setRing r x).node = s.node := by rfl
@[simp] theorem State.setRing_faultqs (r : Nat) (x : Ring) : (s.setRing r x).faultqs = s.faultqs := by rfl
@[simp] theorem State.setRing_doms (r : Nat) (x : Ring) : (s.setRing r x).doms = s.doms := by rfl
@[simp] theorem State.setRing_cnt (r : Nat) (x : Ring) : (s.setRing r x).cnt = s.cnt := by rfl
@[simp] theorem State.setRing_kpr (r : Nat) (x : Ring) : (s.setRing r x).kpr = s.kpr := by rfl
@[simp] theorem State.setRing_start (r : Nat) (x : Ring) : (s.setRing r x).start = s.start := by rfl
@[simp] theorem State.setRing_stg (r : Nat) (x : Ring) : (s.setRing r x).stg = s.stg := by rfl
@[simp] theorem State.setRing_pwr (r : Nat) (x : Ring) : (s.setRing r x).pwr = s.pwr := by rfl
@[simp] theorem State.setRing_waiting (r : Nat) (x : Ring) : (s.setRing r x).waiting = s.waiting := by rfl
@[simp] theorem State.setRing_qm_qps (r : Nat) (x : Ring) : (s.setRing r x).qm.qps = s.qm.qps := by rfl
@[simp] theorem State.setRing_qm_admqs (r : Nat) (x : Ring) : (s.setRing r x).qm.admqs = s.qm.admqs := by rfl
@[simp] theorem State.setRing_qm_recs (r : Nat) (x : Ring) : (s.setRing r x).qm.recs = s.qm.recs := by rfl
@[simp] theorem State.setRing_qm_devHalt (r : Nat) (x : Ring) : (s.setRing r x).qm.devHalt = s.qm.devHalt := by rfl

-- setAdmq
@[simp] theorem State.setAdmq_pending (a : Nat) (x : AdmQ) : (s.setAdmq a x).pending = s.pending := by rfl
@[simp] theorem State.setAdmq_now (a : Nat) (x : AdmQ) : (s.setAdmq a x).now = s.now := by rfl
@[simp] theorem State.setAdmq_free (a : Nat) (x : AdmQ) : (s.setAdmq a x).free = s.free := by rfl
@[simp] theorem State.setAdmq_egress (a : Nat) (x : AdmQ) : (s.setAdmq a x).egress = s.egress := by rfl
@[simp] theorem State.setAdmq_regs (a : Nat) (x : AdmQ) : (s.setAdmq a x).regs = s.regs := by rfl
@[simp] theorem State.setAdmq_chip (a : Nat) (x : AdmQ) : (s.setAdmq a x).chip = s.chip := by rfl
@[simp] theorem State.setAdmq_nv (a : Nat) (x : AdmQ) : (s.setAdmq a x).nv = s.nv := by rfl
@[simp] theorem State.setAdmq_pool (a : Nat) (x : AdmQ) : (s.setAdmq a x).pool = s.pool := by rfl
@[simp] theorem State.setAdmq_xl (a : Nat) (x : AdmQ) : (s.setAdmq a x).xl = s.xl := by rfl
@[simp] theorem State.setAdmq_io (a : Nat) (x : AdmQ) : (s.setAdmq a x).io = s.io := by rfl
@[simp] theorem State.setAdmq_tr (a : Nat) (x : AdmQ) : (s.setAdmq a x).tr = s.tr := by rfl
@[simp] theorem State.setAdmq_sw (a : Nat) (x : AdmQ) : (s.setAdmq a x).sw = s.sw := by rfl
@[simp] theorem State.setAdmq_eth (a : Nat) (x : AdmQ) : (s.setAdmq a x).eth = s.eth := by rfl
@[simp] theorem State.setAdmq_arr (a : Nat) (x : AdmQ) : (s.setAdmq a x).arr = s.arr := by rfl
@[simp] theorem State.setAdmq_col (a : Nat) (x : AdmQ) : (s.setAdmq a x).col = s.col := by rfl
@[simp] theorem State.setAdmq_sec (a : Nat) (x : AdmQ) : (s.setAdmq a x).sec = s.sec := by rfl
@[simp] theorem State.setAdmq_parts (a : Nat) (x : AdmQ) : (s.setAdmq a x).parts = s.parts := by rfl
@[simp] theorem State.setAdmq_dmap (a : Nat) (x : AdmQ) : (s.setAdmq a x).dmap = s.dmap := by rfl
@[simp] theorem State.setAdmq_node (a : Nat) (x : AdmQ) : (s.setAdmq a x).node = s.node := by rfl
@[simp] theorem State.setAdmq_faultqs (a : Nat) (x : AdmQ) : (s.setAdmq a x).faultqs = s.faultqs := by rfl
@[simp] theorem State.setAdmq_doms (a : Nat) (x : AdmQ) : (s.setAdmq a x).doms = s.doms := by rfl
@[simp] theorem State.setAdmq_cnt (a : Nat) (x : AdmQ) : (s.setAdmq a x).cnt = s.cnt := by rfl
@[simp] theorem State.setAdmq_kpr (a : Nat) (x : AdmQ) : (s.setAdmq a x).kpr = s.kpr := by rfl
@[simp] theorem State.setAdmq_start (a : Nat) (x : AdmQ) : (s.setAdmq a x).start = s.start := by rfl
@[simp] theorem State.setAdmq_stg (a : Nat) (x : AdmQ) : (s.setAdmq a x).stg = s.stg := by rfl
@[simp] theorem State.setAdmq_pwr (a : Nat) (x : AdmQ) : (s.setAdmq a x).pwr = s.pwr := by rfl
@[simp] theorem State.setAdmq_waiting (a : Nat) (x : AdmQ) : (s.setAdmq a x).waiting = s.waiting := by rfl
@[simp] theorem State.setAdmq_qm_qps (a : Nat) (x : AdmQ) : (s.setAdmq a x).qm.qps = s.qm.qps := by rfl
@[simp] theorem State.setAdmq_qm_rings (a : Nat) (x : AdmQ) : (s.setAdmq a x).qm.rings = s.qm.rings := by rfl
@[simp] theorem State.setAdmq_qm_recs (a : Nat) (x : AdmQ) : (s.setAdmq a x).qm.recs = s.qm.recs := by rfl
@[simp] theorem State.setAdmq_qm_devHalt (a : Nat) (x : AdmQ) : (s.setAdmq a x).qm.devHalt = s.qm.devHalt := by rfl

-- putRec
@[simp] theorem State.putRec_pending (r : Nat) (x : Rec) : (s.putRec r x).pending = s.pending := by rfl
@[simp] theorem State.putRec_now (r : Nat) (x : Rec) : (s.putRec r x).now = s.now := by rfl
@[simp] theorem State.putRec_free (r : Nat) (x : Rec) : (s.putRec r x).free = s.free := by rfl
@[simp] theorem State.putRec_egress (r : Nat) (x : Rec) : (s.putRec r x).egress = s.egress := by rfl
@[simp] theorem State.putRec_regs (r : Nat) (x : Rec) : (s.putRec r x).regs = s.regs := by rfl
@[simp] theorem State.putRec_chip (r : Nat) (x : Rec) : (s.putRec r x).chip = s.chip := by rfl
@[simp] theorem State.putRec_nv (r : Nat) (x : Rec) : (s.putRec r x).nv = s.nv := by rfl
@[simp] theorem State.putRec_pool (r : Nat) (x : Rec) : (s.putRec r x).pool = s.pool := by rfl
@[simp] theorem State.putRec_xl (r : Nat) (x : Rec) : (s.putRec r x).xl = s.xl := by rfl
@[simp] theorem State.putRec_io (r : Nat) (x : Rec) : (s.putRec r x).io = s.io := by rfl
@[simp] theorem State.putRec_tr (r : Nat) (x : Rec) : (s.putRec r x).tr = s.tr := by rfl
@[simp] theorem State.putRec_sw (r : Nat) (x : Rec) : (s.putRec r x).sw = s.sw := by rfl
@[simp] theorem State.putRec_eth (r : Nat) (x : Rec) : (s.putRec r x).eth = s.eth := by rfl
@[simp] theorem State.putRec_arr (r : Nat) (x : Rec) : (s.putRec r x).arr = s.arr := by rfl
@[simp] theorem State.putRec_col (r : Nat) (x : Rec) : (s.putRec r x).col = s.col := by rfl
@[simp] theorem State.putRec_sec (r : Nat) (x : Rec) : (s.putRec r x).sec = s.sec := by rfl
@[simp] theorem State.putRec_parts (r : Nat) (x : Rec) : (s.putRec r x).parts = s.parts := by rfl
@[simp] theorem State.putRec_dmap (r : Nat) (x : Rec) : (s.putRec r x).dmap = s.dmap := by rfl
@[simp] theorem State.putRec_node (r : Nat) (x : Rec) : (s.putRec r x).node = s.node := by rfl
@[simp] theorem State.putRec_faultqs (r : Nat) (x : Rec) : (s.putRec r x).faultqs = s.faultqs := by rfl
@[simp] theorem State.putRec_doms (r : Nat) (x : Rec) : (s.putRec r x).doms = s.doms := by rfl
@[simp] theorem State.putRec_cnt (r : Nat) (x : Rec) : (s.putRec r x).cnt = s.cnt := by rfl
@[simp] theorem State.putRec_kpr (r : Nat) (x : Rec) : (s.putRec r x).kpr = s.kpr := by rfl
@[simp] theorem State.putRec_start (r : Nat) (x : Rec) : (s.putRec r x).start = s.start := by rfl
@[simp] theorem State.putRec_stg (r : Nat) (x : Rec) : (s.putRec r x).stg = s.stg := by rfl
@[simp] theorem State.putRec_pwr (r : Nat) (x : Rec) : (s.putRec r x).pwr = s.pwr := by rfl
@[simp] theorem State.putRec_waiting (r : Nat) (x : Rec) : (s.putRec r x).waiting = s.waiting := by rfl
@[simp] theorem State.putRec_qm_qps (r : Nat) (x : Rec) : (s.putRec r x).qm.qps = s.qm.qps := by rfl
@[simp] theorem State.putRec_qm_rings (r : Nat) (x : Rec) : (s.putRec r x).qm.rings = s.qm.rings := by rfl
@[simp] theorem State.putRec_qm_admqs (r : Nat) (x : Rec) : (s.putRec r x).qm.admqs = s.qm.admqs := by rfl
@[simp] theorem State.putRec_qm_devHalt (r : Nat) (x : Rec) : (s.putRec r x).qm.devHalt = s.qm.devHalt := by rfl

-- delRec
@[simp] theorem State.delRec_pending (r : Nat) : (s.delRec r).pending = s.pending := by rfl
@[simp] theorem State.delRec_now (r : Nat) : (s.delRec r).now = s.now := by rfl
@[simp] theorem State.delRec_free (r : Nat) : (s.delRec r).free = s.free := by rfl
@[simp] theorem State.delRec_egress (r : Nat) : (s.delRec r).egress = s.egress := by rfl
@[simp] theorem State.delRec_regs (r : Nat) : (s.delRec r).regs = s.regs := by rfl
@[simp] theorem State.delRec_chip (r : Nat) : (s.delRec r).chip = s.chip := by rfl
@[simp] theorem State.delRec_nv (r : Nat) : (s.delRec r).nv = s.nv := by rfl
@[simp] theorem State.delRec_pool (r : Nat) : (s.delRec r).pool = s.pool := by rfl
@[simp] theorem State.delRec_xl (r : Nat) : (s.delRec r).xl = s.xl := by rfl
@[simp] theorem State.delRec_io (r : Nat) : (s.delRec r).io = s.io := by rfl
@[simp] theorem State.delRec_tr (r : Nat) : (s.delRec r).tr = s.tr := by rfl
@[simp] theorem State.delRec_sw (r : Nat) : (s.delRec r).sw = s.sw := by rfl
@[simp] theorem State.delRec_eth (r : Nat) : (s.delRec r).eth = s.eth := by rfl
@[simp] theorem State.delRec_arr (r : Nat) : (s.delRec r).arr = s.arr := by rfl
@[simp] theorem State.delRec_col (r : Nat) : (s.delRec r).col = s.col := by rfl
@[simp] theorem State.delRec_sec (r : Nat) : (s.delRec r).sec = s.sec := by rfl
@[simp] theorem State.delRec_parts (r : Nat) : (s.delRec r).parts = s.parts := by rfl
@[simp] theorem State.delRec_dmap (r : Nat) : (s.delRec r).dmap = s.dmap := by rfl
@[simp] theorem State.delRec_node (r : Nat) : (s.delRec r).node = s.node := by rfl
@[simp] theorem State.delRec_faultqs (r : Nat) : (s.delRec r).faultqs = s.faultqs := by rfl
@[simp] theorem State.delRec_doms (r : Nat) : (s.delRec r).doms = s.doms := by rfl
@[simp] theorem State.delRec_cnt (r : Nat) : (s.delRec r).cnt = s.cnt := by rfl
@[simp] theorem State.delRec_kpr (r : Nat) : (s.delRec r).kpr = s.kpr := by rfl
@[simp] theorem State.delRec_start (r : Nat) : (s.delRec r).start = s.start := by rfl
@[simp] theorem State.delRec_stg (r : Nat) : (s.delRec r).stg = s.stg := by rfl
@[simp] theorem State.delRec_pwr (r : Nat) : (s.delRec r).pwr = s.pwr := by rfl
@[simp] theorem State.delRec_waiting (r : Nat) : (s.delRec r).waiting = s.waiting := by rfl
@[simp] theorem State.delRec_qm_qps (r : Nat) : (s.delRec r).qm.qps = s.qm.qps := by rfl
@[simp] theorem State.delRec_qm_rings (r : Nat) : (s.delRec r).qm.rings = s.qm.rings := by rfl
@[simp] theorem State.delRec_qm_admqs (r : Nat) : (s.delRec r).qm.admqs = s.qm.admqs := by rfl
@[simp] theorem State.delRec_qm_devHalt (r : Nat) : (s.delRec r).qm.devHalt = s.qm.devHalt := by rfl

-- putBuild
@[simp] theorem State.putBuild_pending (b : Nat) (x : Build) : (s.putBuild b x).pending = s.pending := by rfl
@[simp] theorem State.putBuild_now (b : Nat) (x : Build) : (s.putBuild b x).now = s.now := by rfl
@[simp] theorem State.putBuild_free (b : Nat) (x : Build) : (s.putBuild b x).free = s.free := by rfl
@[simp] theorem State.putBuild_egress (b : Nat) (x : Build) : (s.putBuild b x).egress = s.egress := by rfl
@[simp] theorem State.putBuild_regs (b : Nat) (x : Build) : (s.putBuild b x).regs = s.regs := by rfl
@[simp] theorem State.putBuild_chip (b : Nat) (x : Build) : (s.putBuild b x).chip = s.chip := by rfl
@[simp] theorem State.putBuild_nv (b : Nat) (x : Build) : (s.putBuild b x).nv = s.nv := by rfl
@[simp] theorem State.putBuild_pool (b : Nat) (x : Build) : (s.putBuild b x).pool = s.pool := by rfl
@[simp] theorem State.putBuild_xl (b : Nat) (x : Build) : (s.putBuild b x).xl = s.xl := by rfl
@[simp] theorem State.putBuild_qm (b : Nat) (x : Build) : (s.putBuild b x).qm = s.qm := by rfl
@[simp] theorem State.putBuild_tr (b : Nat) (x : Build) : (s.putBuild b x).tr = s.tr := by rfl
@[simp] theorem State.putBuild_sw (b : Nat) (x : Build) : (s.putBuild b x).sw = s.sw := by rfl
@[simp] theorem State.putBuild_eth (b : Nat) (x : Build) : (s.putBuild b x).eth = s.eth := by rfl
@[simp] theorem State.putBuild_arr (b : Nat) (x : Build) : (s.putBuild b x).arr = s.arr := by rfl
@[simp] theorem State.putBuild_col (b : Nat) (x : Build) : (s.putBuild b x).col = s.col := by rfl
@[simp] theorem State.putBuild_sec (b : Nat) (x : Build) : (s.putBuild b x).sec = s.sec := by rfl
@[simp] theorem State.putBuild_parts (b : Nat) (x : Build) : (s.putBuild b x).parts = s.parts := by rfl
@[simp] theorem State.putBuild_dmap (b : Nat) (x : Build) : (s.putBuild b x).dmap = s.dmap := by rfl
@[simp] theorem State.putBuild_node (b : Nat) (x : Build) : (s.putBuild b x).node = s.node := by rfl
@[simp] theorem State.putBuild_faultqs (b : Nat) (x : Build) : (s.putBuild b x).faultqs = s.faultqs := by rfl
@[simp] theorem State.putBuild_doms (b : Nat) (x : Build) : (s.putBuild b x).doms = s.doms := by rfl
@[simp] theorem State.putBuild_cnt (b : Nat) (x : Build) : (s.putBuild b x).cnt = s.cnt := by rfl
@[simp] theorem State.putBuild_kpr (b : Nat) (x : Build) : (s.putBuild b x).kpr = s.kpr := by rfl
@[simp] theorem State.putBuild_start (b : Nat) (x : Build) : (s.putBuild b x).start = s.start := by rfl
@[simp] theorem State.putBuild_stg (b : Nat) (x : Build) : (s.putBuild b x).stg = s.stg := by rfl
@[simp] theorem State.putBuild_pwr (b : Nat) (x : Build) : (s.putBuild b x).pwr = s.pwr := by rfl
@[simp] theorem State.putBuild_waiting (b : Nat) (x : Build) : (s.putBuild b x).waiting = s.waiting := by rfl
@[simp] theorem State.putBuild_io_links (b : Nat) (x : Build) : (s.putBuild b x).io.links = s.io.links := by rfl
@[simp] theorem State.putBuild_io_reads (b : Nat) (x : Build) : (s.putBuild b x).io.reads = s.io.reads := by rfl
@[simp] theorem State.putBuild_io_places (b : Nat) (x : Build) : (s.putBuild b x).io.places = s.io.places := by rfl
@[simp] theorem State.putBuild_io_nextId (b : Nat) (x : Build) : (s.putBuild b x).io.nextId = s.io.nextId := by rfl
@[simp] theorem State.putBuild_io_stops (b : Nat) (x : Build) : (s.putBuild b x).io.stops = s.io.stops := by rfl
@[simp] theorem State.putBuild_io_late (b : Nat) (x : Build) : (s.putBuild b x).io.late = s.io.late := by rfl

-- delBuild
@[simp] theorem State.delBuild_pending (b : Nat) : (s.delBuild b).pending = s.pending := by rfl
@[simp] theorem State.delBuild_now (b : Nat) : (s.delBuild b).now = s.now := by rfl
@[simp] theorem State.delBuild_free (b : Nat) : (s.delBuild b).free = s.free := by rfl
@[simp] theorem State.delBuild_egress (b : Nat) : (s.delBuild b).egress = s.egress := by rfl
@[simp] theorem State.delBuild_regs (b : Nat) : (s.delBuild b).regs = s.regs := by rfl
@[simp] theorem State.delBuild_chip (b : Nat) : (s.delBuild b).chip = s.chip := by rfl
@[simp] theorem State.delBuild_nv (b : Nat) : (s.delBuild b).nv = s.nv := by rfl
@[simp] theorem State.delBuild_pool (b : Nat) : (s.delBuild b).pool = s.pool := by rfl
@[simp] theorem State.delBuild_xl (b : Nat) : (s.delBuild b).xl = s.xl := by rfl
@[simp] theorem State.delBuild_qm (b : Nat) : (s.delBuild b).qm = s.qm := by rfl
@[simp] theorem State.delBuild_tr (b : Nat) : (s.delBuild b).tr = s.tr := by rfl
@[simp] theorem State.delBuild_sw (b : Nat) : (s.delBuild b).sw = s.sw := by rfl
@[simp] theorem State.delBuild_eth (b : Nat) : (s.delBuild b).eth = s.eth := by rfl
@[simp] theorem State.delBuild_arr (b : Nat) : (s.delBuild b).arr = s.arr := by rfl
@[simp] theorem State.delBuild_col (b : Nat) : (s.delBuild b).col = s.col := by rfl
@[simp] theorem State.delBuild_sec (b : Nat) : (s.delBuild b).sec = s.sec := by rfl
@[simp] theorem State.delBuild_parts (b : Nat) : (s.delBuild b).parts = s.parts := by rfl
@[simp] theorem State.delBuild_dmap (b : Nat) : (s.delBuild b).dmap = s.dmap := by rfl
@[simp] theorem State.delBuild_node (b : Nat) : (s.delBuild b).node = s.node := by rfl
@[simp] theorem State.delBuild_faultqs (b : Nat) : (s.delBuild b).faultqs = s.faultqs := by rfl
@[simp] theorem State.delBuild_doms (b : Nat) : (s.delBuild b).doms = s.doms := by rfl
@[simp] theorem State.delBuild_cnt (b : Nat) : (s.delBuild b).cnt = s.cnt := by rfl
@[simp] theorem State.delBuild_kpr (b : Nat) : (s.delBuild b).kpr = s.kpr := by rfl
@[simp] theorem State.delBuild_start (b : Nat) : (s.delBuild b).start = s.start := by rfl
@[simp] theorem State.delBuild_stg (b : Nat) : (s.delBuild b).stg = s.stg := by rfl
@[simp] theorem State.delBuild_pwr (b : Nat) : (s.delBuild b).pwr = s.pwr := by rfl
@[simp] theorem State.delBuild_waiting (b : Nat) : (s.delBuild b).waiting = s.waiting := by rfl
@[simp] theorem State.delBuild_io_links (b : Nat) : (s.delBuild b).io.links = s.io.links := by rfl
@[simp] theorem State.delBuild_io_reads (b : Nat) : (s.delBuild b).io.reads = s.io.reads := by rfl
@[simp] theorem State.delBuild_io_places (b : Nat) : (s.delBuild b).io.places = s.io.places := by rfl
@[simp] theorem State.delBuild_io_nextId (b : Nat) : (s.delBuild b).io.nextId = s.io.nextId := by rfl
@[simp] theorem State.delBuild_io_stops (b : Nat) : (s.delBuild b).io.stops = s.io.stops := by rfl
@[simp] theorem State.delBuild_io_late (b : Nat) : (s.delBuild b).io.late = s.io.late := by rfl

-- setRegion
@[simp] theorem State.setRegion_pending (i : Nat) (x : Region) : (s.setRegion i x).pending = s.pending := by rfl
@[simp] theorem State.setRegion_now (i : Nat) (x : Region) : (s.setRegion i x).now = s.now := by rfl
@[simp] theorem State.setRegion_free (i : Nat) (x : Region) : (s.setRegion i x).free = s.free := by rfl
@[simp] theorem State.setRegion_egress (i : Nat) (x : Region) : (s.setRegion i x).egress = s.egress := by rfl
@[simp] theorem State.setRegion_regs (i : Nat) (x : Region) : (s.setRegion i x).regs = s.regs := by rfl
@[simp] theorem State.setRegion_chip (i : Nat) (x : Region) : (s.setRegion i x).chip = s.chip := by rfl
@[simp] theorem State.setRegion_nv (i : Nat) (x : Region) : (s.setRegion i x).nv = s.nv := by rfl
@[simp] theorem State.setRegion_pool (i : Nat) (x : Region) : (s.setRegion i x).pool = s.pool := by rfl
@[simp] theorem State.setRegion_io (i : Nat) (x : Region) : (s.setRegion i x).io = s.io := by rfl
@[simp] theorem State.setRegion_qm (i : Nat) (x : Region) : (s.setRegion i x).qm = s.qm := by rfl
@[simp] theorem State.setRegion_tr (i : Nat) (x : Region) : (s.setRegion i x).tr = s.tr := by rfl
@[simp] theorem State.setRegion_sw (i : Nat) (x : Region) : (s.setRegion i x).sw = s.sw := by rfl
@[simp] theorem State.setRegion_eth (i : Nat) (x : Region) : (s.setRegion i x).eth = s.eth := by rfl
@[simp] theorem State.setRegion_arr (i : Nat) (x : Region) : (s.setRegion i x).arr = s.arr := by rfl
@[simp] theorem State.setRegion_col (i : Nat) (x : Region) : (s.setRegion i x).col = s.col := by rfl
@[simp] theorem State.setRegion_sec (i : Nat) (x : Region) : (s.setRegion i x).sec = s.sec := by rfl
@[simp] theorem State.setRegion_parts (i : Nat) (x : Region) : (s.setRegion i x).parts = s.parts := by rfl
@[simp] theorem State.setRegion_dmap (i : Nat) (x : Region) : (s.setRegion i x).dmap = s.dmap := by rfl
@[simp] theorem State.setRegion_node (i : Nat) (x : Region) : (s.setRegion i x).node = s.node := by rfl
@[simp] theorem State.setRegion_faultqs (i : Nat) (x : Region) : (s.setRegion i x).faultqs = s.faultqs := by rfl
@[simp] theorem State.setRegion_doms (i : Nat) (x : Region) : (s.setRegion i x).doms = s.doms := by rfl
@[simp] theorem State.setRegion_cnt (i : Nat) (x : Region) : (s.setRegion i x).cnt = s.cnt := by rfl
@[simp] theorem State.setRegion_kpr (i : Nat) (x : Region) : (s.setRegion i x).kpr = s.kpr := by rfl
@[simp] theorem State.setRegion_start (i : Nat) (x : Region) : (s.setRegion i x).start = s.start := by rfl
@[simp] theorem State.setRegion_stg (i : Nat) (x : Region) : (s.setRegion i x).stg = s.stg := by rfl
@[simp] theorem State.setRegion_pwr (i : Nat) (x : Region) : (s.setRegion i x).pwr = s.pwr := by rfl
@[simp] theorem State.setRegion_waiting (i : Nat) (x : Region) : (s.setRegion i x).waiting = s.waiting := by rfl
@[simp] theorem State.setRegion_xl_tables (i : Nat) (x : Region) : (s.setRegion i x).xl.tables = s.xl.tables := by rfl
@[simp] theorem State.setRegion_xl_rgnSeq (i : Nat) (x : Region) : (s.setRegion i x).xl.rgnSeq = s.xl.rgnSeq := by rfl

-- setPort
@[simp] theorem State.setPort_pending (p : Nat) (x : Port) : (s.setPort p x).pending = s.pending := by rfl
@[simp] theorem State.setPort_now (p : Nat) (x : Port) : (s.setPort p x).now = s.now := by rfl
@[simp] theorem State.setPort_free (p : Nat) (x : Port) : (s.setPort p x).free = s.free := by rfl
@[simp] theorem State.setPort_egress (p : Nat) (x : Port) : (s.setPort p x).egress = s.egress := by rfl
@[simp] theorem State.setPort_regs (p : Nat) (x : Port) : (s.setPort p x).regs = s.regs := by rfl
@[simp] theorem State.setPort_chip (p : Nat) (x : Port) : (s.setPort p x).chip = s.chip := by rfl
@[simp] theorem State.setPort_nv (p : Nat) (x : Port) : (s.setPort p x).nv = s.nv := by rfl
@[simp] theorem State.setPort_pool (p : Nat) (x : Port) : (s.setPort p x).pool = s.pool := by rfl
@[simp] theorem State.setPort_xl (p : Nat) (x : Port) : (s.setPort p x).xl = s.xl := by rfl
@[simp] theorem State.setPort_io (p : Nat) (x : Port) : (s.setPort p x).io = s.io := by rfl
@[simp] theorem State.setPort_qm (p : Nat) (x : Port) : (s.setPort p x).qm = s.qm := by rfl
@[simp] theorem State.setPort_tr (p : Nat) (x : Port) : (s.setPort p x).tr = s.tr := by rfl
@[simp] theorem State.setPort_eth (p : Nat) (x : Port) : (s.setPort p x).eth = s.eth := by rfl
@[simp] theorem State.setPort_arr (p : Nat) (x : Port) : (s.setPort p x).arr = s.arr := by rfl
@[simp] theorem State.setPort_col (p : Nat) (x : Port) : (s.setPort p x).col = s.col := by rfl
@[simp] theorem State.setPort_sec (p : Nat) (x : Port) : (s.setPort p x).sec = s.sec := by rfl
@[simp] theorem State.setPort_parts (p : Nat) (x : Port) : (s.setPort p x).parts = s.parts := by rfl
@[simp] theorem State.setPort_dmap (p : Nat) (x : Port) : (s.setPort p x).dmap = s.dmap := by rfl
@[simp] theorem State.setPort_node (p : Nat) (x : Port) : (s.setPort p x).node = s.node := by rfl
@[simp] theorem State.setPort_faultqs (p : Nat) (x : Port) : (s.setPort p x).faultqs = s.faultqs := by rfl
@[simp] theorem State.setPort_doms (p : Nat) (x : Port) : (s.setPort p x).doms = s.doms := by rfl
@[simp] theorem State.setPort_cnt (p : Nat) (x : Port) : (s.setPort p x).cnt = s.cnt := by rfl
@[simp] theorem State.setPort_kpr (p : Nat) (x : Port) : (s.setPort p x).kpr = s.kpr := by rfl
@[simp] theorem State.setPort_start (p : Nat) (x : Port) : (s.setPort p x).start = s.start := by rfl
@[simp] theorem State.setPort_stg (p : Nat) (x : Port) : (s.setPort p x).stg = s.stg := by rfl
@[simp] theorem State.setPort_pwr (p : Nat) (x : Port) : (s.setPort p x).pwr = s.pwr := by rfl
@[simp] theorem State.setPort_waiting (p : Nat) (x : Port) : (s.setPort p x).waiting = s.waiting := by rfl
@[simp] theorem State.setPort_sw_inq (p : Nat) (x : Port) : (s.setPort p x).sw.inq = s.sw.inq := by rfl
@[simp] theorem State.setPort_sw_ejected (p : Nat) (x : Port) : (s.setPort p x).sw.ejected = s.sw.ejected := by rfl
@[simp] theorem State.setPort_sw_outs (p : Nat) (x : Port) : (s.setPort p x).sw.outs = s.sw.outs := by rfl
@[simp] theorem State.setPort_sw_engines (p : Nat) (x : Port) : (s.setPort p x).sw.engines = s.sw.engines := by rfl
@[simp] theorem State.setPort_sw_rot (p : Nat) (x : Port) : (s.setPort p x).sw.rot = s.sw.rot := by rfl
@[simp] theorem State.setPort_sw_pacer (p : Nat) (x : Port) : (s.setPort p x).sw.pacer = s.sw.pacer := by rfl
@[simp] theorem State.setPort_sw_pacerAt (p : Nat) (x : Port) : (s.setPort p x).sw.pacerAt = s.sw.pacerAt := by rfl
@[simp] theorem State.setPort_sw_inj (p : Nat) (x : Port) : (s.setPort p x).sw.inj = s.sw.inj := by rfl
@[simp] theorem State.setPort_sw_shape (p : Nat) (x : Port) : (s.setPort p x).sw.shape = s.sw.shape := by rfl
@[simp] theorem State.setPort_sw_ethShape (p : Nat) (x : Port) : (s.setPort p x).sw.ethShape = s.sw.ethShape := by rfl
@[simp] theorem State.setPort_sw_police (p : Nat) (x : Port) : (s.setPort p x).sw.police = s.sw.police := by rfl
@[simp] theorem State.setPort_sw_sampleAt (p : Nat) (x : Port) : (s.setPort p x).sw.sampleAt = s.sw.sampleAt := by rfl

-- setOut
@[simp] theorem State.setOut_pending (o : Nat) (x : Output) : (s.setOut o x).pending = s.pending := by rfl
@[simp] theorem State.setOut_now (o : Nat) (x : Output) : (s.setOut o x).now = s.now := by rfl
@[simp] theorem State.setOut_free (o : Nat) (x : Output) : (s.setOut o x).free = s.free := by rfl
@[simp] theorem State.setOut_egress (o : Nat) (x : Output) : (s.setOut o x).egress = s.egress := by rfl
@[simp] theorem State.setOut_regs (o : Nat) (x : Output) : (s.setOut o x).regs = s.regs := by rfl
@[simp] theorem State.setOut_chip (o : Nat) (x : Output) : (s.setOut o x).chip = s.chip := by rfl
@[simp] theorem State.setOut_nv (o : Nat) (x : Output) : (s.setOut o x).nv = s.nv := by rfl
@[simp] theorem State.setOut_pool (o : Nat) (x : Output) : (s.setOut o x).pool = s.pool := by rfl
@[simp] theorem State.setOut_xl (o : Nat) (x : Output) : (s.setOut o x).xl = s.xl := by rfl
@[simp] theorem State.setOut_io (o : Nat) (x : Output) : (s.setOut o x).io = s.io := by rfl
@[simp] theorem State.setOut_qm (o : Nat) (x : Output) : (s.setOut o x).qm = s.qm := by rfl
@[simp] theorem State.setOut_tr (o : Nat) (x : Output) : (s.setOut o x).tr = s.tr := by rfl
@[simp] theorem State.setOut_eth (o : Nat) (x : Output) : (s.setOut o x).eth = s.eth := by rfl
@[simp] theorem State.setOut_arr (o : Nat) (x : Output) : (s.setOut o x).arr = s.arr := by rfl
@[simp] theorem State.setOut_col (o : Nat) (x : Output) : (s.setOut o x).col = s.col := by rfl
@[simp] theorem State.setOut_sec (o : Nat) (x : Output) : (s.setOut o x).sec = s.sec := by rfl
@[simp] theorem State.setOut_parts (o : Nat) (x : Output) : (s.setOut o x).parts = s.parts := by rfl
@[simp] theorem State.setOut_dmap (o : Nat) (x : Output) : (s.setOut o x).dmap = s.dmap := by rfl
@[simp] theorem State.setOut_node (o : Nat) (x : Output) : (s.setOut o x).node = s.node := by rfl
@[simp] theorem State.setOut_faultqs (o : Nat) (x : Output) : (s.setOut o x).faultqs = s.faultqs := by rfl
@[simp] theorem State.setOut_doms (o : Nat) (x : Output) : (s.setOut o x).doms = s.doms := by rfl
@[simp] theorem State.setOut_cnt (o : Nat) (x : Output) : (s.setOut o x).cnt = s.cnt := by rfl
@[simp] theorem State.setOut_kpr (o : Nat) (x : Output) : (s.setOut o x).kpr = s.kpr := by rfl
@[simp] theorem State.setOut_start (o : Nat) (x : Output) : (s.setOut o x).start = s.start := by rfl
@[simp] theorem State.setOut_stg (o : Nat) (x : Output) : (s.setOut o x).stg = s.stg := by rfl
@[simp] theorem State.setOut_pwr (o : Nat) (x : Output) : (s.setOut o x).pwr = s.pwr := by rfl
@[simp] theorem State.setOut_waiting (o : Nat) (x : Output) : (s.setOut o x).waiting = s.waiting := by rfl
@[simp] theorem State.setOut_sw_inq (o : Nat) (x : Output) : (s.setOut o x).sw.inq = s.sw.inq := by rfl
@[simp] theorem State.setOut_sw_ejected (o : Nat) (x : Output) : (s.setOut o x).sw.ejected = s.sw.ejected := by rfl
@[simp] theorem State.setOut_sw_ports (o : Nat) (x : Output) : (s.setOut o x).sw.ports = s.sw.ports := by rfl
@[simp] theorem State.setOut_sw_engines (o : Nat) (x : Output) : (s.setOut o x).sw.engines = s.sw.engines := by rfl
@[simp] theorem State.setOut_sw_rot (o : Nat) (x : Output) : (s.setOut o x).sw.rot = s.sw.rot := by rfl
@[simp] theorem State.setOut_sw_pacer (o : Nat) (x : Output) : (s.setOut o x).sw.pacer = s.sw.pacer := by rfl
@[simp] theorem State.setOut_sw_pacerAt (o : Nat) (x : Output) : (s.setOut o x).sw.pacerAt = s.sw.pacerAt := by rfl
@[simp] theorem State.setOut_sw_inj (o : Nat) (x : Output) : (s.setOut o x).sw.inj = s.sw.inj := by rfl
@[simp] theorem State.setOut_sw_shape (o : Nat) (x : Output) : (s.setOut o x).sw.shape = s.sw.shape := by rfl
@[simp] theorem State.setOut_sw_ethShape (o : Nat) (x : Output) : (s.setOut o x).sw.ethShape = s.sw.ethShape := by rfl
@[simp] theorem State.setOut_sw_police (o : Nat) (x : Output) : (s.setOut o x).sw.police = s.sw.police := by rfl
@[simp] theorem State.setOut_sw_sampleAt (o : Nat) (x : Output) : (s.setOut o x).sw.sampleAt = s.sw.sampleAt := by rfl

-- setMsgs
@[simp] theorem State.setMsgs_pending (m : Tbl Msg) : (s.setMsgs m).pending = s.pending := by rfl
@[simp] theorem State.setMsgs_now (m : Tbl Msg) : (s.setMsgs m).now = s.now := by rfl
@[simp] theorem State.setMsgs_free (m : Tbl Msg) : (s.setMsgs m).free = s.free := by rfl
@[simp] theorem State.setMsgs_egress (m : Tbl Msg) : (s.setMsgs m).egress = s.egress := by rfl
@[simp] theorem State.setMsgs_regs (m : Tbl Msg) : (s.setMsgs m).regs = s.regs := by rfl
@[simp] theorem State.setMsgs_chip (m : Tbl Msg) : (s.setMsgs m).chip = s.chip := by rfl
@[simp] theorem State.setMsgs_nv (m : Tbl Msg) : (s.setMsgs m).nv = s.nv := by rfl
@[simp] theorem State.setMsgs_pool (m : Tbl Msg) : (s.setMsgs m).pool = s.pool := by rfl
@[simp] theorem State.setMsgs_xl (m : Tbl Msg) : (s.setMsgs m).xl = s.xl := by rfl
@[simp] theorem State.setMsgs_io (m : Tbl Msg) : (s.setMsgs m).io = s.io := by rfl
@[simp] theorem State.setMsgs_qm (m : Tbl Msg) : (s.setMsgs m).qm = s.qm := by rfl
@[simp] theorem State.setMsgs_sw (m : Tbl Msg) : (s.setMsgs m).sw = s.sw := by rfl
@[simp] theorem State.setMsgs_eth (m : Tbl Msg) : (s.setMsgs m).eth = s.eth := by rfl
@[simp] theorem State.setMsgs_arr (m : Tbl Msg) : (s.setMsgs m).arr = s.arr := by rfl
@[simp] theorem State.setMsgs_col (m : Tbl Msg) : (s.setMsgs m).col = s.col := by rfl
@[simp] theorem State.setMsgs_sec (m : Tbl Msg) : (s.setMsgs m).sec = s.sec := by rfl
@[simp] theorem State.setMsgs_parts (m : Tbl Msg) : (s.setMsgs m).parts = s.parts := by rfl
@[simp] theorem State.setMsgs_dmap (m : Tbl Msg) : (s.setMsgs m).dmap = s.dmap := by rfl
@[simp] theorem State.setMsgs_node (m : Tbl Msg) : (s.setMsgs m).node = s.node := by rfl
@[simp] theorem State.setMsgs_faultqs (m : Tbl Msg) : (s.setMsgs m).faultqs = s.faultqs := by rfl
@[simp] theorem State.setMsgs_doms (m : Tbl Msg) : (s.setMsgs m).doms = s.doms := by rfl
@[simp] theorem State.setMsgs_cnt (m : Tbl Msg) : (s.setMsgs m).cnt = s.cnt := by rfl
@[simp] theorem State.setMsgs_kpr (m : Tbl Msg) : (s.setMsgs m).kpr = s.kpr := by rfl
@[simp] theorem State.setMsgs_start (m : Tbl Msg) : (s.setMsgs m).start = s.start := by rfl
@[simp] theorem State.setMsgs_stg (m : Tbl Msg) : (s.setMsgs m).stg = s.stg := by rfl
@[simp] theorem State.setMsgs_pwr (m : Tbl Msg) : (s.setMsgs m).pwr = s.pwr := by rfl
@[simp] theorem State.setMsgs_waiting (m : Tbl Msg) : (s.setMsgs m).waiting = s.waiting := by rfl
@[simp] theorem State.setMsgs_tr_nextMsg (m : Tbl Msg) : (s.setMsgs m).tr.nextMsg = s.tr.nextMsg := by rfl
@[simp] theorem State.setMsgs_tr_flights (m : Tbl Msg) : (s.setMsgs m).tr.flights = s.tr.flights := by rfl
@[simp] theorem State.setMsgs_tr_rds (m : Tbl Msg) : (s.setMsgs m).tr.rds = s.tr.rds := by rfl
@[simp] theorem State.setMsgs_tr_redirs (m : Tbl Msg) : (s.setMsgs m).tr.redirs = s.tr.redirs := by rfl
@[simp] theorem State.setMsgs_tr_inbox (m : Tbl Msg) : (s.setMsgs m).tr.inbox = s.tr.inbox := by rfl

-- setFlights
@[simp] theorem State.setFlights_pending (f : Tbl Flight) : (s.setFlights f).pending = s.pending := by rfl
@[simp] theorem State.setFlights_now (f : Tbl Flight) : (s.setFlights f).now = s.now := by rfl
@[simp] theorem State.setFlights_free (f : Tbl Flight) : (s.setFlights f).free = s.free := by rfl
@[simp] theorem State.setFlights_egress (f : Tbl Flight) : (s.setFlights f).egress = s.egress := by rfl
@[simp] theorem State.setFlights_regs (f : Tbl Flight) : (s.setFlights f).regs = s.regs := by rfl
@[simp] theorem State.setFlights_chip (f : Tbl Flight) : (s.setFlights f).chip = s.chip := by rfl
@[simp] theorem State.setFlights_nv (f : Tbl Flight) : (s.setFlights f).nv = s.nv := by rfl
@[simp] theorem State.setFlights_pool (f : Tbl Flight) : (s.setFlights f).pool = s.pool := by rfl
@[simp] theorem State.setFlights_xl (f : Tbl Flight) : (s.setFlights f).xl = s.xl := by rfl
@[simp] theorem State.setFlights_io (f : Tbl Flight) : (s.setFlights f).io = s.io := by rfl
@[simp] theorem State.setFlights_qm (f : Tbl Flight) : (s.setFlights f).qm = s.qm := by rfl
@[simp] theorem State.setFlights_sw (f : Tbl Flight) : (s.setFlights f).sw = s.sw := by rfl
@[simp] theorem State.setFlights_eth (f : Tbl Flight) : (s.setFlights f).eth = s.eth := by rfl
@[simp] theorem State.setFlights_arr (f : Tbl Flight) : (s.setFlights f).arr = s.arr := by rfl
@[simp] theorem State.setFlights_col (f : Tbl Flight) : (s.setFlights f).col = s.col := by rfl
@[simp] theorem State.setFlights_sec (f : Tbl Flight) : (s.setFlights f).sec = s.sec := by rfl
@[simp] theorem State.setFlights_parts (f : Tbl Flight) : (s.setFlights f).parts = s.parts := by rfl
@[simp] theorem State.setFlights_dmap (f : Tbl Flight) : (s.setFlights f).dmap = s.dmap := by rfl
@[simp] theorem State.setFlights_node (f : Tbl Flight) : (s.setFlights f).node = s.node := by rfl
@[simp] theorem State.setFlights_faultqs (f : Tbl Flight) : (s.setFlights f).faultqs = s.faultqs := by rfl
@[simp] theorem State.setFlights_doms (f : Tbl Flight) : (s.setFlights f).doms = s.doms := by rfl
@[simp] theorem State.setFlights_cnt (f : Tbl Flight) : (s.setFlights f).cnt = s.cnt := by rfl
@[simp] theorem State.setFlights_kpr (f : Tbl Flight) : (s.setFlights f).kpr = s.kpr := by rfl
@[simp] theorem State.setFlights_start (f : Tbl Flight) : (s.setFlights f).start = s.start := by rfl
@[simp] theorem State.setFlights_stg (f : Tbl Flight) : (s.setFlights f).stg = s.stg := by rfl
@[simp] theorem State.setFlights_pwr (f : Tbl Flight) : (s.setFlights f).pwr = s.pwr := by rfl
@[simp] theorem State.setFlights_waiting (f : Tbl Flight) : (s.setFlights f).waiting = s.waiting := by rfl
@[simp] theorem State.setFlights_tr_msgs (f : Tbl Flight) : (s.setFlights f).tr.msgs = s.tr.msgs := by rfl
@[simp] theorem State.setFlights_tr_nextMsg (f : Tbl Flight) : (s.setFlights f).tr.nextMsg = s.tr.nextMsg := by rfl
@[simp] theorem State.setFlights_tr_rds (f : Tbl Flight) : (s.setFlights f).tr.rds = s.tr.rds := by rfl
@[simp] theorem State.setFlights_tr_redirs (f : Tbl Flight) : (s.setFlights f).tr.redirs = s.tr.redirs := by rfl
@[simp] theorem State.setFlights_tr_inbox (f : Tbl Flight) : (s.setFlights f).tr.inbox = s.tr.inbox := by rfl

-- setRds
@[simp] theorem State.setRds_pending (t : Tbl Rd) : (s.setRds t).pending = s.pending := by rfl
@[simp] theorem State.setRds_now (t : Tbl Rd) : (s.setRds t).now = s.now := by rfl
@[simp] theorem State.setRds_free (t : Tbl Rd) : (s.setRds t).free = s.free := by rfl
@[simp] theorem State.setRds_egress (t : Tbl Rd) : (s.setRds t).egress = s.egress := by rfl
@[simp] theorem State.setRds_regs (t : Tbl Rd) : (s.setRds t).regs = s.regs := by rfl
@[simp] theorem State.setRds_chip (t : Tbl Rd) : (s.setRds t).chip = s.chip := by rfl
@[simp] theorem State.setRds_nv (t : Tbl Rd) : (s.setRds t).nv = s.nv := by rfl
@[simp] theorem State.setRds_pool (t : Tbl Rd) : (s.setRds t).pool = s.pool := by rfl
@[simp] theorem State.setRds_xl (t : Tbl Rd) : (s.setRds t).xl = s.xl := by rfl
@[simp] theorem State.setRds_io (t : Tbl Rd) : (s.setRds t).io = s.io := by rfl
@[simp] theorem State.setRds_qm (t : Tbl Rd) : (s.setRds t).qm = s.qm := by rfl
@[simp] theorem State.setRds_sw (t : Tbl Rd) : (s.setRds t).sw = s.sw := by rfl
@[simp] theorem State.setRds_eth (t : Tbl Rd) : (s.setRds t).eth = s.eth := by rfl
@[simp] theorem State.setRds_arr (t : Tbl Rd) : (s.setRds t).arr = s.arr := by rfl
@[simp] theorem State.setRds_col (t : Tbl Rd) : (s.setRds t).col = s.col := by rfl
@[simp] theorem State.setRds_sec (t : Tbl Rd) : (s.setRds t).sec = s.sec := by rfl
@[simp] theorem State.setRds_parts (t : Tbl Rd) : (s.setRds t).parts = s.parts := by rfl
@[simp] theorem State.setRds_dmap (t : Tbl Rd) : (s.setRds t).dmap = s.dmap := by rfl
@[simp] theorem State.setRds_node (t : Tbl Rd) : (s.setRds t).node = s.node := by rfl
@[simp] theorem State.setRds_faultqs (t : Tbl Rd) : (s.setRds t).faultqs = s.faultqs := by rfl
@[simp] theorem State.setRds_doms (t : Tbl Rd) : (s.setRds t).doms = s.doms := by rfl
@[simp] theorem State.setRds_cnt (t : Tbl Rd) : (s.setRds t).cnt = s.cnt := by rfl
@[simp] theorem State.setRds_kpr (t : Tbl Rd) : (s.setRds t).kpr = s.kpr := by rfl
@[simp] theorem State.setRds_start (t : Tbl Rd) : (s.setRds t).start = s.start := by rfl
@[simp] theorem State.setRds_stg (t : Tbl Rd) : (s.setRds t).stg = s.stg := by rfl
@[simp] theorem State.setRds_pwr (t : Tbl Rd) : (s.setRds t).pwr = s.pwr := by rfl
@[simp] theorem State.setRds_waiting (t : Tbl Rd) : (s.setRds t).waiting = s.waiting := by rfl
@[simp] theorem State.setRds_tr_msgs (t : Tbl Rd) : (s.setRds t).tr.msgs = s.tr.msgs := by rfl
@[simp] theorem State.setRds_tr_nextMsg (t : Tbl Rd) : (s.setRds t).tr.nextMsg = s.tr.nextMsg := by rfl
@[simp] theorem State.setRds_tr_flights (t : Tbl Rd) : (s.setRds t).tr.flights = s.tr.flights := by rfl
@[simp] theorem State.setRds_tr_redirs (t : Tbl Rd) : (s.setRds t).tr.redirs = s.tr.redirs := by rfl
@[simp] theorem State.setRds_tr_inbox (t : Tbl Rd) : (s.setRds t).tr.inbox = s.tr.inbox := by rfl

-- setGroup
@[simp] theorem State.setGroup_pending (g : Nat) (x : Group) : (s.setGroup g x).pending = s.pending := by rfl
@[simp] theorem State.setGroup_now (g : Nat) (x : Group) : (s.setGroup g x).now = s.now := by rfl
@[simp] theorem State.setGroup_free (g : Nat) (x : Group) : (s.setGroup g x).free = s.free := by rfl
@[simp] theorem State.setGroup_egress (g : Nat) (x : Group) : (s.setGroup g x).egress = s.egress := by rfl
@[simp] theorem State.setGroup_regs (g : Nat) (x : Group) : (s.setGroup g x).regs = s.regs := by rfl
@[simp] theorem State.setGroup_chip (g : Nat) (x : Group) : (s.setGroup g x).chip = s.chip := by rfl
@[simp] theorem State.setGroup_nv (g : Nat) (x : Group) : (s.setGroup g x).nv = s.nv := by rfl
@[simp] theorem State.setGroup_pool (g : Nat) (x : Group) : (s.setGroup g x).pool = s.pool := by rfl
@[simp] theorem State.setGroup_xl (g : Nat) (x : Group) : (s.setGroup g x).xl = s.xl := by rfl
@[simp] theorem State.setGroup_io (g : Nat) (x : Group) : (s.setGroup g x).io = s.io := by rfl
@[simp] theorem State.setGroup_qm (g : Nat) (x : Group) : (s.setGroup g x).qm = s.qm := by rfl
@[simp] theorem State.setGroup_tr (g : Nat) (x : Group) : (s.setGroup g x).tr = s.tr := by rfl
@[simp] theorem State.setGroup_sw (g : Nat) (x : Group) : (s.setGroup g x).sw = s.sw := by rfl
@[simp] theorem State.setGroup_eth (g : Nat) (x : Group) : (s.setGroup g x).eth = s.eth := by rfl
@[simp] theorem State.setGroup_arr (g : Nat) (x : Group) : (s.setGroup g x).arr = s.arr := by rfl
@[simp] theorem State.setGroup_sec (g : Nat) (x : Group) : (s.setGroup g x).sec = s.sec := by rfl
@[simp] theorem State.setGroup_parts (g : Nat) (x : Group) : (s.setGroup g x).parts = s.parts := by rfl
@[simp] theorem State.setGroup_dmap (g : Nat) (x : Group) : (s.setGroup g x).dmap = s.dmap := by rfl
@[simp] theorem State.setGroup_node (g : Nat) (x : Group) : (s.setGroup g x).node = s.node := by rfl
@[simp] theorem State.setGroup_faultqs (g : Nat) (x : Group) : (s.setGroup g x).faultqs = s.faultqs := by rfl
@[simp] theorem State.setGroup_doms (g : Nat) (x : Group) : (s.setGroup g x).doms = s.doms := by rfl
@[simp] theorem State.setGroup_cnt (g : Nat) (x : Group) : (s.setGroup g x).cnt = s.cnt := by rfl
@[simp] theorem State.setGroup_kpr (g : Nat) (x : Group) : (s.setGroup g x).kpr = s.kpr := by rfl
@[simp] theorem State.setGroup_start (g : Nat) (x : Group) : (s.setGroup g x).start = s.start := by rfl
@[simp] theorem State.setGroup_stg (g : Nat) (x : Group) : (s.setGroup g x).stg = s.stg := by rfl
@[simp] theorem State.setGroup_pwr (g : Nat) (x : Group) : (s.setGroup g x).pwr = s.pwr := by rfl
@[simp] theorem State.setGroup_waiting (g : Nat) (x : Group) : (s.setGroup g x).waiting = s.waiting := by rfl
@[simp] theorem State.setGroup_col_plans (g : Nat) (x : Group) : (s.setGroup g x).col.plans = s.col.plans := by rfl
@[simp] theorem State.setGroup_col_rtt (g : Nat) (x : Group) : (s.setGroup g x).col.rtt = s.col.rtt := by rfl

-- setPlan
@[simp] theorem State.setPlan_pending (k : Nat) (x : Plan) : (s.setPlan k x).pending = s.pending := by rfl
@[simp] theorem State.setPlan_now (k : Nat) (x : Plan) : (s.setPlan k x).now = s.now := by rfl
@[simp] theorem State.setPlan_free (k : Nat) (x : Plan) : (s.setPlan k x).free = s.free := by rfl
@[simp] theorem State.setPlan_egress (k : Nat) (x : Plan) : (s.setPlan k x).egress = s.egress := by rfl
@[simp] theorem State.setPlan_regs (k : Nat) (x : Plan) : (s.setPlan k x).regs = s.regs := by rfl
@[simp] theorem State.setPlan_chip (k : Nat) (x : Plan) : (s.setPlan k x).chip = s.chip := by rfl
@[simp] theorem State.setPlan_nv (k : Nat) (x : Plan) : (s.setPlan k x).nv = s.nv := by rfl
@[simp] theorem State.setPlan_pool (k : Nat) (x : Plan) : (s.setPlan k x).pool = s.pool := by rfl
@[simp] theorem State.setPlan_xl (k : Nat) (x : Plan) : (s.setPlan k x).xl = s.xl := by rfl
@[simp] theorem State.setPlan_io (k : Nat) (x : Plan) : (s.setPlan k x).io = s.io := by rfl
@[simp] theorem State.setPlan_qm (k : Nat) (x : Plan) : (s.setPlan k x).qm = s.qm := by rfl
@[simp] theorem State.setPlan_tr (k : Nat) (x : Plan) : (s.setPlan k x).tr = s.tr := by rfl
@[simp] theorem State.setPlan_sw (k : Nat) (x : Plan) : (s.setPlan k x).sw = s.sw := by rfl
@[simp] theorem State.setPlan_eth (k : Nat) (x : Plan) : (s.setPlan k x).eth = s.eth := by rfl
@[simp] theorem State.setPlan_arr (k : Nat) (x : Plan) : (s.setPlan k x).arr = s.arr := by rfl
@[simp] theorem State.setPlan_sec (k : Nat) (x : Plan) : (s.setPlan k x).sec = s.sec := by rfl
@[simp] theorem State.setPlan_parts (k : Nat) (x : Plan) : (s.setPlan k x).parts = s.parts := by rfl
@[simp] theorem State.setPlan_dmap (k : Nat) (x : Plan) : (s.setPlan k x).dmap = s.dmap := by rfl
@[simp] theorem State.setPlan_node (k : Nat) (x : Plan) : (s.setPlan k x).node = s.node := by rfl
@[simp] theorem State.setPlan_faultqs (k : Nat) (x : Plan) : (s.setPlan k x).faultqs = s.faultqs := by rfl
@[simp] theorem State.setPlan_doms (k : Nat) (x : Plan) : (s.setPlan k x).doms = s.doms := by rfl
@[simp] theorem State.setPlan_cnt (k : Nat) (x : Plan) : (s.setPlan k x).cnt = s.cnt := by rfl
@[simp] theorem State.setPlan_kpr (k : Nat) (x : Plan) : (s.setPlan k x).kpr = s.kpr := by rfl
@[simp] theorem State.setPlan_start (k : Nat) (x : Plan) : (s.setPlan k x).start = s.start := by rfl
@[simp] theorem State.setPlan_stg (k : Nat) (x : Plan) : (s.setPlan k x).stg = s.stg := by rfl
@[simp] theorem State.setPlan_pwr (k : Nat) (x : Plan) : (s.setPlan k x).pwr = s.pwr := by rfl
@[simp] theorem State.setPlan_waiting (k : Nat) (x : Plan) : (s.setPlan k x).waiting = s.waiting := by rfl
@[simp] theorem State.setPlan_col_groups (k : Nat) (x : Plan) : (s.setPlan k x).col.groups = s.col.groups := by rfl
@[simp] theorem State.setPlan_col_rtt (k : Nat) (x : Plan) : (s.setPlan k x).col.rtt = s.col.rtt := by rfl

-- setEthPort
@[simp] theorem State.setEthPort_pending (e : Nat) (x : EthPort) : (s.setEthPort e x).pending = s.pending := by rfl
@[simp] theorem State.setEthPort_now (e : Nat) (x : EthPort) : (s.setEthPort e x).now = s.now := by rfl
@[simp] theorem State.setEthPort_free (e : Nat) (x : EthPort) : (s.setEthPort e x).free = s.free := by rfl
@[simp] theorem State.setEthPort_egress (e : Nat) (x : EthPort) : (s.setEthPort e x).egress = s.egress := by rfl
@[simp] theorem State.setEthPort_regs (e : Nat) (x : EthPort) : (s.setEthPort e x).regs = s.regs := by rfl
@[simp] theorem State.setEthPort_chip (e : Nat) (x : EthPort) : (s.setEthPort e x).chip = s.chip := by rfl
@[simp] theorem State.setEthPort_nv (e : Nat) (x : EthPort) : (s.setEthPort e x).nv = s.nv := by rfl
@[simp] theorem State.setEthPort_pool (e : Nat) (x : EthPort) : (s.setEthPort e x).pool = s.pool := by rfl
@[simp] theorem State.setEthPort_xl (e : Nat) (x : EthPort) : (s.setEthPort e x).xl = s.xl := by rfl
@[simp] theorem State.setEthPort_io (e : Nat) (x : EthPort) : (s.setEthPort e x).io = s.io := by rfl
@[simp] theorem State.setEthPort_qm (e : Nat) (x : EthPort) : (s.setEthPort e x).qm = s.qm := by rfl
@[simp] theorem State.setEthPort_tr (e : Nat) (x : EthPort) : (s.setEthPort e x).tr = s.tr := by rfl
@[simp] theorem State.setEthPort_sw (e : Nat) (x : EthPort) : (s.setEthPort e x).sw = s.sw := by rfl
@[simp] theorem State.setEthPort_arr (e : Nat) (x : EthPort) : (s.setEthPort e x).arr = s.arr := by rfl
@[simp] theorem State.setEthPort_col (e : Nat) (x : EthPort) : (s.setEthPort e x).col = s.col := by rfl
@[simp] theorem State.setEthPort_sec (e : Nat) (x : EthPort) : (s.setEthPort e x).sec = s.sec := by rfl
@[simp] theorem State.setEthPort_parts (e : Nat) (x : EthPort) : (s.setEthPort e x).parts = s.parts := by rfl
@[simp] theorem State.setEthPort_dmap (e : Nat) (x : EthPort) : (s.setEthPort e x).dmap = s.dmap := by rfl
@[simp] theorem State.setEthPort_node (e : Nat) (x : EthPort) : (s.setEthPort e x).node = s.node := by rfl
@[simp] theorem State.setEthPort_faultqs (e : Nat) (x : EthPort) : (s.setEthPort e x).faultqs = s.faultqs := by rfl
@[simp] theorem State.setEthPort_doms (e : Nat) (x : EthPort) : (s.setEthPort e x).doms = s.doms := by rfl
@[simp] theorem State.setEthPort_cnt (e : Nat) (x : EthPort) : (s.setEthPort e x).cnt = s.cnt := by rfl
@[simp] theorem State.setEthPort_kpr (e : Nat) (x : EthPort) : (s.setEthPort e x).kpr = s.kpr := by rfl
@[simp] theorem State.setEthPort_start (e : Nat) (x : EthPort) : (s.setEthPort e x).start = s.start := by rfl
@[simp] theorem State.setEthPort_stg (e : Nat) (x : EthPort) : (s.setEthPort e x).stg = s.stg := by rfl
@[simp] theorem State.setEthPort_pwr (e : Nat) (x : EthPort) : (s.setEthPort e x).pwr = s.pwr := by rfl
@[simp] theorem State.setEthPort_waiting (e : Nat) (x : EthPort) : (s.setEthPort e x).waiting = s.waiting := by rfl

-- setSw
@[simp] theorem State.setSw_pending (x : Sw) : (s.setSw x).pending = s.pending := by rfl
@[simp] theorem State.setSw_now (x : Sw) : (s.setSw x).now = s.now := by rfl
@[simp] theorem State.setSw_free (x : Sw) : (s.setSw x).free = s.free := by rfl
@[simp] theorem State.setSw_egress (x : Sw) : (s.setSw x).egress = s.egress := by rfl
@[simp] theorem State.setSw_regs (x : Sw) : (s.setSw x).regs = s.regs := by rfl
@[simp] theorem State.setSw_chip (x : Sw) : (s.setSw x).chip = s.chip := by rfl
@[simp] theorem State.setSw_nv (x : Sw) : (s.setSw x).nv = s.nv := by rfl
@[simp] theorem State.setSw_pool (x : Sw) : (s.setSw x).pool = s.pool := by rfl
@[simp] theorem State.setSw_xl (x : Sw) : (s.setSw x).xl = s.xl := by rfl
@[simp] theorem State.setSw_io (x : Sw) : (s.setSw x).io = s.io := by rfl
@[simp] theorem State.setSw_qm (x : Sw) : (s.setSw x).qm = s.qm := by rfl
@[simp] theorem State.setSw_tr (x : Sw) : (s.setSw x).tr = s.tr := by rfl
@[simp] theorem State.setSw_eth (x : Sw) : (s.setSw x).eth = s.eth := by rfl
@[simp] theorem State.setSw_arr (x : Sw) : (s.setSw x).arr = s.arr := by rfl
@[simp] theorem State.setSw_col (x : Sw) : (s.setSw x).col = s.col := by rfl
@[simp] theorem State.setSw_sec (x : Sw) : (s.setSw x).sec = s.sec := by rfl
@[simp] theorem State.setSw_parts (x : Sw) : (s.setSw x).parts = s.parts := by rfl
@[simp] theorem State.setSw_dmap (x : Sw) : (s.setSw x).dmap = s.dmap := by rfl
@[simp] theorem State.setSw_node (x : Sw) : (s.setSw x).node = s.node := by rfl
@[simp] theorem State.setSw_faultqs (x : Sw) : (s.setSw x).faultqs = s.faultqs := by rfl
@[simp] theorem State.setSw_doms (x : Sw) : (s.setSw x).doms = s.doms := by rfl
@[simp] theorem State.setSw_cnt (x : Sw) : (s.setSw x).cnt = s.cnt := by rfl
@[simp] theorem State.setSw_kpr (x : Sw) : (s.setSw x).kpr = s.kpr := by rfl
@[simp] theorem State.setSw_start (x : Sw) : (s.setSw x).start = s.start := by rfl
@[simp] theorem State.setSw_stg (x : Sw) : (s.setSw x).stg = s.stg := by rfl
@[simp] theorem State.setSw_pwr (x : Sw) : (s.setSw x).pwr = s.pwr := by rfl
@[simp] theorem State.setSw_waiting (x : Sw) : (s.setSw x).waiting = s.waiting := by rfl

-- setKpr
@[simp] theorem State.setKpr_pending (k : Kpr) : (s.setKpr k).pending = s.pending := by rfl
@[simp] theorem State.setKpr_now (k : Kpr) : (s.setKpr k).now = s.now := by rfl
@[simp] theorem State.setKpr_free (k : Kpr) : (s.setKpr k).free = s.free := by rfl
@[simp] theorem State.setKpr_egress (k : Kpr) : (s.setKpr k).egress = s.egress := by rfl
@[simp] theorem State.setKpr_regs (k : Kpr) : (s.setKpr k).regs = s.regs := by rfl
@[simp] theorem State.setKpr_chip (k : Kpr) : (s.setKpr k).chip = s.chip := by rfl
@[simp] theorem State.setKpr_nv (k : Kpr) : (s.setKpr k).nv = s.nv := by rfl
@[simp] theorem State.setKpr_pool (k : Kpr) : (s.setKpr k).pool = s.pool := by rfl
@[simp] theorem State.setKpr_xl (k : Kpr) : (s.setKpr k).xl = s.xl := by rfl
@[simp] theorem State.setKpr_io (k : Kpr) : (s.setKpr k).io = s.io := by rfl
@[simp] theorem State.setKpr_qm (k : Kpr) : (s.setKpr k).qm = s.qm := by rfl
@[simp] theorem State.setKpr_tr (k : Kpr) : (s.setKpr k).tr = s.tr := by rfl
@[simp] theorem State.setKpr_sw (k : Kpr) : (s.setKpr k).sw = s.sw := by rfl
@[simp] theorem State.setKpr_eth (k : Kpr) : (s.setKpr k).eth = s.eth := by rfl
@[simp] theorem State.setKpr_arr (k : Kpr) : (s.setKpr k).arr = s.arr := by rfl
@[simp] theorem State.setKpr_col (k : Kpr) : (s.setKpr k).col = s.col := by rfl
@[simp] theorem State.setKpr_sec (k : Kpr) : (s.setKpr k).sec = s.sec := by rfl
@[simp] theorem State.setKpr_parts (k : Kpr) : (s.setKpr k).parts = s.parts := by rfl
@[simp] theorem State.setKpr_dmap (k : Kpr) : (s.setKpr k).dmap = s.dmap := by rfl
@[simp] theorem State.setKpr_node (k : Kpr) : (s.setKpr k).node = s.node := by rfl
@[simp] theorem State.setKpr_faultqs (k : Kpr) : (s.setKpr k).faultqs = s.faultqs := by rfl
@[simp] theorem State.setKpr_doms (k : Kpr) : (s.setKpr k).doms = s.doms := by rfl
@[simp] theorem State.setKpr_cnt (k : Kpr) : (s.setKpr k).cnt = s.cnt := by rfl
@[simp] theorem State.setKpr_start (k : Kpr) : (s.setKpr k).start = s.start := by rfl
@[simp] theorem State.setKpr_stg (k : Kpr) : (s.setKpr k).stg = s.stg := by rfl
@[simp] theorem State.setKpr_pwr (k : Kpr) : (s.setKpr k).pwr = s.pwr := by rfl
@[simp] theorem State.setKpr_waiting (k : Kpr) : (s.setKpr k).waiting = s.waiting := by rfl

-- modStg
@[simp] theorem State.modStg_pending (f : Stg → Stg) : (s.modStg f).pending = s.pending := by rfl
@[simp] theorem State.modStg_now (f : Stg → Stg) : (s.modStg f).now = s.now := by rfl
@[simp] theorem State.modStg_free (f : Stg → Stg) : (s.modStg f).free = s.free := by rfl
@[simp] theorem State.modStg_egress (f : Stg → Stg) : (s.modStg f).egress = s.egress := by rfl
@[simp] theorem State.modStg_regs (f : Stg → Stg) : (s.modStg f).regs = s.regs := by rfl
@[simp] theorem State.modStg_chip (f : Stg → Stg) : (s.modStg f).chip = s.chip := by rfl
@[simp] theorem State.modStg_nv (f : Stg → Stg) : (s.modStg f).nv = s.nv := by rfl
@[simp] theorem State.modStg_pool (f : Stg → Stg) : (s.modStg f).pool = s.pool := by rfl
@[simp] theorem State.modStg_xl (f : Stg → Stg) : (s.modStg f).xl = s.xl := by rfl
@[simp] theorem State.modStg_io (f : Stg → Stg) : (s.modStg f).io = s.io := by rfl
@[simp] theorem State.modStg_qm (f : Stg → Stg) : (s.modStg f).qm = s.qm := by rfl
@[simp] theorem State.modStg_tr (f : Stg → Stg) : (s.modStg f).tr = s.tr := by rfl
@[simp] theorem State.modStg_sw (f : Stg → Stg) : (s.modStg f).sw = s.sw := by rfl
@[simp] theorem State.modStg_eth (f : Stg → Stg) : (s.modStg f).eth = s.eth := by rfl
@[simp] theorem State.modStg_arr (f : Stg → Stg) : (s.modStg f).arr = s.arr := by rfl
@[simp] theorem State.modStg_col (f : Stg → Stg) : (s.modStg f).col = s.col := by rfl
@[simp] theorem State.modStg_sec (f : Stg → Stg) : (s.modStg f).sec = s.sec := by rfl
@[simp] theorem State.modStg_parts (f : Stg → Stg) : (s.modStg f).parts = s.parts := by rfl
@[simp] theorem State.modStg_dmap (f : Stg → Stg) : (s.modStg f).dmap = s.dmap := by rfl
@[simp] theorem State.modStg_node (f : Stg → Stg) : (s.modStg f).node = s.node := by rfl
@[simp] theorem State.modStg_faultqs (f : Stg → Stg) : (s.modStg f).faultqs = s.faultqs := by rfl
@[simp] theorem State.modStg_doms (f : Stg → Stg) : (s.modStg f).doms = s.doms := by rfl
@[simp] theorem State.modStg_cnt (f : Stg → Stg) : (s.modStg f).cnt = s.cnt := by rfl
@[simp] theorem State.modStg_kpr (f : Stg → Stg) : (s.modStg f).kpr = s.kpr := by rfl
@[simp] theorem State.modStg_start (f : Stg → Stg) : (s.modStg f).start = s.start := by rfl
@[simp] theorem State.modStg_pwr (f : Stg → Stg) : (s.modStg f).pwr = s.pwr := by rfl
@[simp] theorem State.modStg_waiting (f : Stg → Stg) : (s.modStg f).waiting = s.waiting := by rfl

-- at
@[simp] theorem State.at_pending (t : Nat) : (s.at t).pending = s.pending := by rfl
@[simp] theorem State.at_free (t : Nat) : (s.at t).free = s.free := by rfl
@[simp] theorem State.at_egress (t : Nat) : (s.at t).egress = s.egress := by rfl
@[simp] theorem State.at_regs (t : Nat) : (s.at t).regs = s.regs := by rfl
@[simp] theorem State.at_chip (t : Nat) : (s.at t).chip = s.chip := by rfl
@[simp] theorem State.at_nv (t : Nat) : (s.at t).nv = s.nv := by rfl
@[simp] theorem State.at_pool (t : Nat) : (s.at t).pool = s.pool := by rfl
@[simp] theorem State.at_xl (t : Nat) : (s.at t).xl = s.xl := by rfl
@[simp] theorem State.at_io (t : Nat) : (s.at t).io = s.io := by rfl
@[simp] theorem State.at_qm (t : Nat) : (s.at t).qm = s.qm := by rfl
@[simp] theorem State.at_tr (t : Nat) : (s.at t).tr = s.tr := by rfl
@[simp] theorem State.at_sw (t : Nat) : (s.at t).sw = s.sw := by rfl
@[simp] theorem State.at_eth (t : Nat) : (s.at t).eth = s.eth := by rfl
@[simp] theorem State.at_arr (t : Nat) : (s.at t).arr = s.arr := by rfl
@[simp] theorem State.at_col (t : Nat) : (s.at t).col = s.col := by rfl
@[simp] theorem State.at_sec (t : Nat) : (s.at t).sec = s.sec := by rfl
@[simp] theorem State.at_parts (t : Nat) : (s.at t).parts = s.parts := by rfl
@[simp] theorem State.at_dmap (t : Nat) : (s.at t).dmap = s.dmap := by rfl
@[simp] theorem State.at_node (t : Nat) : (s.at t).node = s.node := by rfl
@[simp] theorem State.at_faultqs (t : Nat) : (s.at t).faultqs = s.faultqs := by rfl
@[simp] theorem State.at_doms (t : Nat) : (s.at t).doms = s.doms := by rfl
@[simp] theorem State.at_kpr (t : Nat) : (s.at t).kpr = s.kpr := by rfl
@[simp] theorem State.at_start (t : Nat) : (s.at t).start = s.start := by rfl
@[simp] theorem State.at_stg (t : Nat) : (s.at t).stg = s.stg := by rfl
@[simp] theorem State.at_pwr (t : Nat) : (s.at t).pwr = s.pwr := by rfl
@[simp] theorem State.at_waiting (t : Nat) : (s.at t).waiting = s.waiting := by rfl

end Sys2Proof.Machine
end

