-- ==== Sys2Proof/Laws/Tables.lean ====
section
/-!
SUPPORT. Laws of the sparse tables: reading after writing, and the canonical form kept by every operation on them.
-/
namespace Sys2Proof.Machine

variable {α : Type}

@[simp] theorem Tbl.get_nil (d : α) (i : Nat) : Tbl.get d ([] : Tbl α) i = d := rfl
@[simp] theorem Tbl.find_nil (i : Nat) : Tbl.find ([] : Tbl α) i = none := rfl
@[simp] theorem Tbl.has_nil (i : Nat) : Tbl.has ([] : Tbl α) i = false := rfl

theorem Tbl.get_cons (d : α) (k : Nat) (v : α) (t : Tbl α) (i : Nat) : Tbl.get d ((k, v) :: t) i = if k = i then v else Tbl.get d t i := rfl

theorem Tbl.find_cons (k : Nat) (v : α) (t : Tbl α) (i : Nat) : Tbl.find ((k, v) :: t) i = if k = i then some v else Tbl.find t i := by
  by_cases h : k = i
  · simp [Tbl.find, h]
  · simp [Tbl.find, h, beq_eq_false_iff_ne.mpr h]

theorem Tbl.get_eq_find (d : α) (t : Tbl α) (i : Nat) : Tbl.get d t i = (Tbl.find t i).getD d := by
  induction t with
  | nil => rfl
  | cons e t ih => rw [Tbl.get_cons, Tbl.find_cons]; split <;> simp [ih]

/-- Putting an entry in is read at its index, and changes no other. -/
theorem Tbl.find_ins (i : Nat) (v : α) (t : Tbl α) (j : Nat) (h : i = j → Tbl.find t j = none) :
    Tbl.find (Tbl.ins i v t) j = if i = j then some v else Tbl.find t j := by
  induction t with
  | nil => simp [Tbl.ins, Tbl.find_cons]
  | cons e t ih =>
    obtain ⟨k, w⟩ := e
    by_cases hk : i < k
    · simp [Tbl.ins, hk, Tbl.find_cons]
    · simp only [Tbl.ins, hk, if_false, Tbl.find_cons]
      by_cases hj : k = j
      · have : i ≠ j := by
          intro e; have := h e; rw [Tbl.find_cons] at this; simp [hj] at this
        simp [hj, this]
      · have h' : i = j → Tbl.find t j = none := by
          intro e; have := h e; rw [Tbl.find_cons] at this; simpa [hj] using this
        simp only [hj, if_false]; exact ih h'

theorem Tbl.find_del (t : Tbl α) (i j : Nat) : Tbl.find (Tbl.del t i) j = if i = j then none else Tbl.find t j := by
  induction t with
  | nil => simp [Tbl.del]
  | cons e t ih =>
    obtain ⟨k, w⟩ := e
    have hd : Tbl.del ((k, w) :: t) i = if k = i then Tbl.del t i else (k, w) :: Tbl.del t i := by
      by_cases h : k = i
      · simp [Tbl.del, h]
      · simp [Tbl.del, h]
    rw [hd]
    by_cases h : k = i
    · simp only [h, if_true, ih, Tbl.find_cons]
      split <;> rfl
    · simp only [h, if_false, Tbl.find_cons, ih]
      by_cases hij : i = j
      · subst hij; simp [h]
      · simp [hij]

@[simp] theorem Tbl.find_put (t : Tbl α) (i : Nat) (v : α) (j : Nat) : Tbl.find (Tbl.put t i v) j = if i = j then some v else Tbl.find t j := by
  rw [Tbl.put, Tbl.find_ins _ _ _ _ (by intro e; rw [Tbl.find_del, if_pos e]), Tbl.find_del]
  split <;> rfl

@[simp] theorem Tbl.find_put_self (t : Tbl α) (i : Nat) (v : α) : Tbl.find (Tbl.put t i v) i = some v := by simp

@[simp] theorem Tbl.find_del_self (t : Tbl α) (i : Nat) : Tbl.find (Tbl.del t i) i = none := by simp [Tbl.find_del]

/-- Reading after a write: the value at the index written, and elsewhere what was there. -/
@[simp] theorem Tbl.get_set [DecidableEq α] (d : α) (t : Tbl α) (i : Nat) (v : α) (j : Nat) :
    Tbl.get d (Tbl.set d t i v) j = if i = j then v else Tbl.get d t j := by
  simp only [Tbl.set, Tbl.get_eq_find]
  split
  · rename_i h
    rw [Tbl.find_del]
    split <;> simp [h]
  · rw [Tbl.find_ins _ _ _ _ (by intro e; rw [Tbl.find_del, if_pos e]), Tbl.find_del]
    split <;> rfl

/-- Elsewhere a write is not seen, whatever default the reader takes. -/
theorem Tbl.get_set_other [DecidableEq α] (d d' : α) (t : Tbl α) {i j : Nat} (v : α) (h : i ≠ j) :
    Tbl.get d' (Tbl.set d t i v) j = Tbl.get d' t j := by
  simp only [Tbl.set, Tbl.get_eq_find]
  split
  · rw [Tbl.find_del, if_neg h]
  · rw [Tbl.find_ins _ _ _ _ (by intro e; rw [Tbl.find_del, if_pos e]), Tbl.find_del, if_neg h, if_neg h]

theorem Tbl.get_set_self [DecidableEq α] (d : α) (t : Tbl α) (i : Nat) (v : α) : Tbl.get d (Tbl.set d t i v) i = v := by simp

theorem Tbl.get_set_ne [DecidableEq α] (d : α) (t : Tbl α) {i j : Nat} (v : α) (h : i ≠ j) :
    Tbl.get d (Tbl.set d t i v) j = Tbl.get d t j := by simp [h]

theorem Tbl.has_eq_find (t : Tbl α) (i : Nat) : Tbl.has t i = (Tbl.find t i).isSome := by
  induction t with
  | nil => rfl
  | cons e t ih =>
    obtain ⟨k, v⟩ := e
    rw [Tbl.find_cons]
    by_cases h : k = i
    · simp [Tbl.has, h]
    · simp only [h, if_false, ← ih, Tbl.has, List.any_cons, beq_eq_false_iff_ne.mpr h, Bool.false_or]

/-! ### The canonical form -/

/-- Rising order, as a relation between every two entries. -/
theorem Tbl.rising_iff (t : Tbl α) : Tbl.rising t = true ↔ t.Pairwise (fun a b => a.1 < b.1) := by
  induction t with
  | nil => simp [Tbl.rising]
  | cons e t ih =>
    obtain ⟨a, x⟩ := e
    cases t with
    | nil => simp [Tbl.rising]
    | cons f t =>
      obtain ⟨b, y⟩ := f
      rw [Tbl.rising, Bool.and_eq_true, ih, decide_eq_true_eq]
      refine ⟨fun h => List.pairwise_cons.mpr ⟨?_, h.2⟩, fun h => ?_⟩
      · intro e he
        rcases List.mem_cons.mp he with rfl | he
        · exact h.1
        · exact Nat.lt_trans h.1 ((List.pairwise_cons.mp h.2).1 e he)
      · exact ⟨(List.pairwise_cons.mp h).1 _ (List.mem_cons_self ..), (List.pairwise_cons.mp h).2⟩

theorem Tbl.wf_iff [DecidableEq α] (d : α) (t : Tbl α) :
    Tbl.wf d t = true ↔ t.Pairwise (fun a b => a.1 < b.1) ∧ ∀ e ∈ t, e.2 ≠ d := by
  simp [Tbl.wf, Tbl.rising_iff]

@[simp] theorem Tbl.wf_nil [DecidableEq α] (d : α) : Tbl.wf d ([] : Tbl α) = true := rfl

theorem Tbl.filter_wf [DecidableEq α] (d : α) (t : Tbl α) (p : Nat × α → Bool) (h : Tbl.wf d t = true) : Tbl.wf d (t.filter p) = true := by
  rw [Tbl.wf_iff] at *
  exact ⟨h.1.filter p, fun e he => h.2 e ((List.mem_filter.mp he).1)⟩

theorem Tbl.del_wf [DecidableEq α] (d : α) (t : Tbl α) (i : Nat) (h : Tbl.wf d t = true) : Tbl.wf d (Tbl.del t i) = true :=
  Tbl.filter_wf d t _ h

theorem Tbl.mem_ins (i : Nat) (v : α) (t : Tbl α) (e : Nat × α) (h : e ∈ Tbl.ins i v t) : e = (i, v) ∨ e ∈ t := by
  induction t with
  | nil => simpa [Tbl.ins] using h
  | cons f t ih =>
    obtain ⟨k, w⟩ := f
    simp only [Tbl.ins] at h
    split at h
    · rcases List.mem_cons.mp h with h | h
      · exact .inl h
      · exact .inr h
    · rcases List.mem_cons.mp h with h | h
      · exact .inr (h ▸ List.mem_cons_self ..)
      · rcases ih h with h | h
        · exact .inl h
        · exact .inr (List.mem_cons_of_mem _ h)

theorem Tbl.mem_of_find {t : Tbl α} {i : Nat} {v : α} (h : Tbl.find t i = some v) : (i, v) ∈ t := by
  unfold Tbl.find at h
  obtain ⟨p, hp, rfl⟩ := Option.map_eq_some_iff.1 h
  have h1 := List.find?_some hp
  have h2 := List.mem_of_find?_eq_some hp
  rw [beq_iff_eq] at h1
  rw [← h1]
  exact h2

/-- What no listed entry satisfies, and a new one does not, none satisfies after the write. -/
theorem Tbl.any_set [DecidableEq α] (d : α) (t : Tbl α) (i : Nat) (v : α) (f : Nat × α → Bool) (h : t.any f = false) (hv : f (i, v) = false) :
    (Tbl.set d t i v).any f = false := by
  rw [List.any_eq_false] at h ⊢
  have hd : ∀ e ∈ Tbl.del t i, ¬ f e = true := fun e he => h e (List.mem_filter.1 he).1
  intro e he
  unfold Tbl.set at he
  split at he
  · exact hd e he
  · rcases Tbl.mem_ins _ _ _ _ he with rfl | he
    · rw [hv]; decide
    · exact hd e he

theorem Tbl.ins_pairwise (i : Nat) (v : α) (t : Tbl α) (h : t.Pairwise (fun a b => a.1 < b.1)) (hi : ∀ e ∈ t, e.1 ≠ i) :
    (Tbl.ins i v t).Pairwise (fun a b => a.1 < b.1) := by
  induction t with
  | nil => simp [Tbl.ins]
  | cons f t ih =>
    obtain ⟨k, w⟩ := f
    have hp := List.pairwise_cons.mp h
    simp only [Tbl.ins]
    split
    · rename_i hk
      refine List.pairwise_cons.mpr ⟨?_, h⟩
      intro e he
      rcases List.mem_cons.mp he with rfl | he
      · exact hk
      · exact Nat.lt_trans hk (hp.1 e he)
    · rename_i hk
      have hne : k ≠ i := hi (k, w) (List.mem_cons_self ..)
      refine List.pairwise_cons.mpr ⟨?_, ih hp.2 (fun e he => hi e (List.mem_cons_of_mem _ he))⟩
      intro e he
      rcases Tbl.mem_ins i v t e he with rfl | he
      · show k < i
        omega
      · exact hp.1 e he

/-- Writing an index keeps the canonical form. -/
theorem Tbl.set_wf [DecidableEq α] (d : α) (t : Tbl α) (i : Nat) (v : α) (h : Tbl.wf d t = true) : Tbl.wf d (Tbl.set d t i v) = true := by
  unfold Tbl.set
  split
  · exact Tbl.del_wf d t i h
  · rename_i hv
    have hd := Tbl.del_wf d t i h
    rw [Tbl.wf_iff] at hd ⊢
    refine ⟨Tbl.ins_pairwise i v _ hd.1 ?_, ?_⟩
    · intro e he
      have := (List.mem_filter.mp he).2
      simpa using this
    · intro e he
      rcases Tbl.mem_ins i v _ e he with rfl | he
      · exact hv
      · exact hd.2 e he

/-- Writing several indices keeps the canonical form. -/
theorem Tbl.foldl_set_wf [DecidableEq α] {β : Type} (d : α) (f : β → Nat) (g : β → α) (l : List β) (t : Tbl α) (h : Tbl.wf d t = true) :
    Tbl.wf d (l.foldl (fun t b => Tbl.set d t (f b) (g b)) t) = true := by
  induction l generalizing t with
  | nil => exact h
  | cons b l ih => exact ih _ (Tbl.set_wf d t _ _ h)

end Sys2Proof.Machine
end

