-- ==== Sys2Proof/Laws/Access.lean ====
section
/-!
SUPPORT. What the accessors read after a write through them.
-/
namespace Sys2Proof.Machine

variable (s : State)

@[simp] theorem State.setDom_dom (d e : Nat) (x : Domain) : (s.setDom d x).dom e = if d = e then x else s.dom e := by
  simp [State.dom, State.setDom]

@[simp] theorem State.setPart_part (p q : Nat) (x : Part) : (s.setPart p x).part q = if p = q then x else s.part q := by
  simp [State.part, State.setPart]

@[simp] theorem State.setLink_link (l k : Nat) (x : Link) : (s.setLink l x).link k = if l = k then x else s.link k := by
  simp [State.link, State.setLink]

@[simp] theorem State.modLink_link (l k : Nat) (f : Link → Link) : (s.modLink l f).link k = if l = k then f (s.link l) else s.link k := by
  simp [State.modLink]

@[simp] theorem State.setBlk_blk (b c : Nat) (x : Blk) : (s.setBlk b x).blk c = if b = c then x else s.blk c := by
  simp [State.blk, State.setBlk]

@[simp] theorem State.setGblk_gblk (n m : Nat) (x : GBlk) : (s.setGblk n x).gblk m = if n = m then x else s.gblk m := by
  simp [State.gblk, State.setGblk]

@[simp] theorem State.setStack_stack (k j : Nat) (x : Stack) : (s.setStack k x).stack j = if k = j then x else s.stack j := by
  simp [State.stack, State.setStack]

@[simp] theorem State.setQp_qp (n m : Nat) (x : Qp) : (s.setQp n x).qp m = if n = m then x else s.qp m := by
  simp [State.qp, State.setQp]

@[simp] theorem State.setRing_ring (r k : Nat) (x : Ring) : (s.setRing r x).ring k = if r = k then x else s.ring k := by
  simp [State.ring, State.setRing]

@[simp] theorem State.setAdmq_admq (a b : Nat) (x : AdmQ) : (s.setAdmq a x).admq b = if a = b then x else s.admq b := by
  simp [State.admq, State.setAdmq]

@[simp] theorem State.putRec_getRec (r k : Nat) (x : Rec) : (s.putRec r x).getRec k = if r = k then some x else s.getRec k := by
  simp [State.getRec, State.putRec]

@[simp] theorem State.delRec_getRec (r k : Nat) : (s.delRec r).getRec k = if r = k then none else s.getRec k := by
  simp [State.getRec, State.delRec, Tbl.find_del]

@[simp] theorem State.setRegion_region (i j : Nat) (x : Region) : (s.setRegion i x).region j = if i = j then x else s.region j := by
  simp [State.region, State.setRegion]

@[simp] theorem State.setPort_port (p q : Nat) (x : Port) : (s.setPort p x).port q = if p = q then x else s.port q := by
  simp [State.port, State.setPort]

@[simp] theorem State.setOut_out (o p : Nat) (x : Output) : (s.setOut o x).out p = if o = p then x else s.out p := by
  simp [State.out, State.setOut]

@[simp] theorem State.setGroup_group (g h : Nat) (x : Group) : (s.setGroup g x).group h = if g = h then x else s.group h := by
  simp [State.group, State.setGroup]

@[simp] theorem State.setPlan_plan (k j : Nat) (x : Plan) : (s.setPlan k x).plan j = if k = j then some x else s.plan j := by
  simp [State.plan, State.setPlan]

@[simp] theorem State.setEthPort_ethPort (e f : Nat) (x : EthPort) : (s.setEthPort e x).ethPort f = if e = f then x else s.ethPort f := by
  simp [State.ethPort, State.setEthPort]

@[simp] theorem State.setFaultq_faultq (k : Nat) (q : FaultQ) : (s.setFaultq k q).faultq k = q := by
  simp [State.faultq, State.setFaultq]

/-! ### The register file -/

/-- Every register has its own place in the register file. -/
theorem RegName.ctorIdx_inj {r r' : RegName} (h : r.ctorIdx = r'.ctorIdx) : r = r' := by
  rw [← RegName.ofNat_ctorIdx r, h, RegName.ofNat_ctorIdx]

/-- Reading the register written. -/
@[simp] theorem State.setReg_reg (r : RegName) (i j : Nat) (w : Word) : (s.setReg r i j w).reg r i j = w := by
  simp [State.reg, State.setReg]

/-- Another register reads as before. -/
theorem State.setReg_reg_other (r r' : RegName) (i j i' j' : Nat) (w : Word) (h : r ≠ r') : (s.setReg r i j w).reg r' i' j' = s.reg r' i' j' := by
  have : r.ctorIdx ≠ r'.ctorIdx := fun e => h (RegName.ctorIdx_inj e)
  simp [State.reg, State.setReg, this]

/-- The same register under other indices reads as before. -/
theorem State.setReg_reg_index (r : RegName) (i j i' j' : Nat) (w : Word) (h : i * 256 + j ≠ i' * 256 + j') :
    (s.setReg r i j w).reg r i' j' = s.reg r i' j' := by
  simp only [State.reg, State.setReg, Tbl.get_set, if_true]
  exact Tbl.get_set_other _ _ _ _ h

end Sys2Proof.Machine
end

