-- ==== Sys2Proof/Laws/Fields.lean ====
section
/-!
SUPPORT. What a field of a register reads after a field has been written, and what counting leaves.
-/
namespace Sys2Proof.Machine

theorem bitsN_lt (x lo n : Nat) : bitsN x lo n < 2 ^ n := Nat.mod_lt _ (Nat.two_pow_pos n)
theorem bits_lt (w : Word) (lo n : Nat) : bits w lo n < 2 ^ n := bitsN_lt _ lo n

/-- A bit of a number with a field replaced: the field's bits are the new value's, the others stand. -/
theorem setBitsN_testBit (x lo n v k : Nat) : (setBitsN x lo n v).testBit k = if lo ≤ k ∧ k < lo + n then v.testBit (k - lo) else x.testBit k := by
  have e : setBitsN x lo n v = 2 ^ lo * (2 ^ n * (x / 2 ^ (lo + n)) + v % 2 ^ n) + x % 2 ^ lo := by
    unfold setBitsN
    rw [Nat.mul_add, Nat.pow_add]
    ac_rfl
  have h1 : x % 2 ^ lo < 2 ^ lo := Nat.mod_lt _ (Nat.two_pow_pos lo)
  have h2 : v % 2 ^ n < 2 ^ n := Nat.mod_lt _ (Nat.two_pow_pos n)
  rw [e, Nat.testBit_two_pow_mul_add _ h1]
  by_cases c1 : k < lo
  · rw [if_pos c1, Nat.testBit_mod_two_pow, if_neg (by omega)]; simp [c1]
  · rw [if_neg c1, Nat.testBit_two_pow_mul_add _ h2]
    by_cases c2 : k - lo < n
    · rw [if_pos c2, Nat.testBit_mod_two_pow, if_pos (by omega)]; simp [c2]
    · rw [if_neg c2, if_neg (by omega), Nat.testBit_div_two_pow]; congr 1; omega

theorem setBits_toNat (w : Word) (lo n v : Nat) (h : lo + n ≤ 64) : (setBits w lo n v).toNat = setBitsN w.toNat lo n v := by
  unfold setBits
  rw [BitVec.toNat_ofNat, Nat.mod_eq_of_lt]
  refine Nat.lt_pow_two_of_testBit _ (fun k hk => ?_)
  rw [setBitsN_testBit, if_neg (by omega)]
  exact Nat.testBit_lt_two_pow (Nat.lt_of_lt_of_le w.isLt (Nat.pow_le_pow_right (by decide) hk))

theorem bitsN_testBit (x lo n k : Nat) : (bitsN x lo n).testBit k = (decide (k < n) && x.testBit (lo + k)) := by
  unfold bitsN
  rw [Nat.testBit_mod_two_pow, Nat.testBit_div_two_pow, Nat.add_comm]

/-- A field reads what was written to it. -/
@[simp] theorem bits_setBits_self (w : Word) (lo n v : Nat) (h : lo + n ≤ 64) : bits (setBits w lo n v) lo n = v % 2 ^ n := by
  unfold bits
  rw [setBits_toNat w lo n v h]
  refine Nat.eq_of_testBit_eq (fun k => ?_)
  rw [bitsN_testBit, setBitsN_testBit, Nat.testBit_mod_two_pow]
  by_cases c : k < n
  · rw [if_pos (by omega)]; simp
  · simp [c]

/-- A field apart from the one written stands. -/
theorem bits_setBits_other (w : Word) (lo n v a b : Nat) (h : lo + n ≤ 64) (hd : a + b ≤ lo ∨ lo + n ≤ a) :
    bits (setBits w lo n v) a b = bits w a b := by
  unfold bits
  rw [setBits_toNat w lo n v h]
  refine Nat.eq_of_testBit_eq (fun k => ?_)
  rw [bitsN_testBit, bitsN_testBit, setBitsN_testBit]
  by_cases c : k < b
  · rw [if_neg (by omega)]
  · simp [c]

variable (s : State)

/-- A field of a register reads what was written to it. -/
theorem State.fld_setFld_self (f : Fld) (v i j : Nat) (h : f.lo + f.width ≤ 64) : (s.setFld f v i j).fld f i j = v % 2 ^ f.width := by
  unfold State.fld State.setFld
  rw [State.setReg_reg]
  exact bits_setBits_self _ _ _ _ h

/-- A field of another register stands. -/
theorem State.fld_setFld_reg (f g : Fld) (v i j i' j' : Nat) (h : f.reg ≠ g.reg) : (s.setFld f v i j).fld g i' j' = s.fld g i' j' := by
  unfold State.fld State.setFld
  rw [State.setReg_reg_other _ _ _ _ _ _ _ _ h]

/-- A field of another copy of the register stands. -/
theorem State.fld_setFld_index (f g : Fld) (v i j i' j' : Nat) (e : f.reg = g.reg) (h : i * 256 + j ≠ i' * 256 + j') :
    (s.setFld f v i j).fld g i' j' = s.fld g i' j' := by
  unfold State.fld State.setFld
  rw [← e, State.setReg_reg_index _ _ _ _ _ _ _ h]

/-- Another field of the same register stands. -/
theorem State.fld_setFld_bits (f g : Fld) (v i j : Nat) (e : f.reg = g.reg) (h : f.lo + f.width ≤ 64)
    (hd : g.lo + g.width ≤ f.lo ∨ f.lo + f.width ≤ g.lo) : (s.setFld f v i j).fld g i j = s.fld g i j := by
  unfold State.fld State.setFld
  rw [← e, State.setReg_reg]
  exact bits_setBits_other _ _ _ _ _ _ h hd

/-- A counting field goes up, and wraps at its width. -/
theorem State.fld_count_self (f : Fld) (i j n : Nat) (h : f.lo + f.width ≤ 64) : (s.count f i j n).fld f i j = (s.fld f i j + n) % 2 ^ f.width :=
  State.fld_setFld_self _ _ _ _ _ h

theorem State.fld_count_reg (f g : Fld) (i j n i' j' : Nat) (h : f.reg ≠ g.reg) : (s.count f i j n).fld g i' j' = s.fld g i' j' :=
  State.fld_setFld_reg _ _ _ _ _ _ _ _ h

end Sys2Proof.Machine
end

