-- ==== Sys2Proof/Laws/Memory.lean ====
section
/-!
SUPPORT. Grotto memory: a byte read after a write, and every operation that writes memory keeps its canonical form. Only the
operations named here write the bytes of the stacks.
-/
namespace Sys2Proof.Machine

variable (s : State)

/-! ### The byte list -/

/-- A run of bytes stored is read back, and no other byte changes. -/
theorem memPut_get (bs : List Byte) (m : List Host.Cell) (a b : Nat) :
    Tbl.get 0 (memPut m a bs) b = if a ≤ b ∧ b < a + bs.length then bs.getD (b - a) 0 else Tbl.get 0 m b := by
  induction bs generalizing m a with
  | nil => rw [memPut, if_neg (by simp)]
  | cons c bs ih =>
    rw [memPut, ih, Tbl.get_set]
    by_cases h : a = b
    · subst h
      rw [if_neg (by omega), if_pos rfl, if_pos (by simp)]
      simp
    · by_cases h' : a + 1 ≤ b ∧ b < a + 1 + bs.length
      · have e : b - a = (b - (a + 1)) + 1 := by omega
        rw [if_pos h', if_pos (by simp; omega), e, List.getD_cons_succ]
      · rw [if_neg h', if_neg h, if_neg (by simp; omega)]

theorem memPut_wf (bs : List Byte) (m : List Host.Cell) (a : Nat) (h : Memory.wf m = true) : Memory.wf (memPut m a bs) = true := by
  induction bs generalizing m a with
  | nil => exact h
  | cons c bs ih => exact ih _ _ (Tbl.set_wf _ _ _ _ h)

theorem scrubMem_wf (m : List Host.Cell) (b : Nat) (h : Memory.wf m = true) : Memory.wf (scrubMem m b) = true := Tbl.filter_wf _ _ _ h

theorem moveCells_wf (m : List Host.Cell) (src dst : Nat) (h : Memory.wf m = true) : Memory.wf (moveCells m src dst) = true :=
  Tbl.foldl_set_wf (0 : Byte) (fun c : Host.Cell => dst * blkBytes + c.1 % blkBytes) (fun c => c.2) _ _ (scrubMem_wf m src h)

/-- A byte of a block that is scrubbed reads zero; a byte of another block is kept. -/
theorem scrubMem_get (m : List Host.Cell) (b a : Nat) : Tbl.get 0 (scrubMem m b) a = if a / blkBytes = b then 0 else Tbl.get 0 m a := by
  induction m with
  | nil => simp [scrubMem]
  | cons c m ih =>
    obtain ⟨k, v⟩ := c
    have hs : scrubMem ((k, v) :: m) b = if k / blkBytes = b then scrubMem m b else (k, v) :: scrubMem m b := by
      by_cases h : k / blkBytes = b <;> simp [scrubMem, h]
    rw [hs]
    by_cases h : k / blkBytes = b
    · rw [if_pos h, ih, Tbl.get_cons]
      by_cases e : k = a
      · subst e; simp [h]
      · simp [e]
    · rw [if_neg h, Tbl.get_cons, Tbl.get_cons, ih]
      by_cases e : k = a
      · subst e; simp [h]
      · simp [e]

/-! ### A write of memory, read back -/

/-- A byte read after a byte string is stored: the stored byte inside it, and outside it what was there. -/
theorem State.memWrite_memByte (a : Nat) (bs : List Byte) (b : Nat) :
    (s.memWrite a bs).memByte b = if a ≤ b ∧ b < a + bs.length then bs.getD (b - a) 0 else s.memByte b :=
  memPut_get bs s.pool.mem a b

/-- The bytes stored are the bytes read. -/
theorem State.memWrite_memRead (a : Nat) (bs : List Byte) : (s.memWrite a bs).memRead a bs.length = bs := by
  apply List.ext_getElem
  · simp [State.memRead]
  · intro i h1 h2
    simp only [State.memRead, List.getElem_map, List.getElem_range, State.memWrite_memByte]
    rw [if_pos (by omega)]
    simp [List.getD_eq_getElem?_getD, h2]

/-! ### The operations that write memory -/

/-- Memory is in its canonical form. -/
def State.MemOk (s : State) : Prop := Memory.wf s.pool.mem = true

theorem State.memOk_of_mem {s s' : State} (e : s'.pool.mem = s.pool.mem) (h : s.MemOk) : s'.MemOk := by
  unfold State.MemOk; rw [e]; exact h

theorem State.memOk_foldl {β : Type} (f : State → β → State) (hf : ∀ s b, s.MemOk → (f s b).MemOk) (l : List β) (s : State) (h : s.MemOk) :
    (l.foldl f s).MemOk := by
  induction l generalizing s with
  | nil => exact h
  | cons b l ih => exact ih _ (hf s b h)

@[simp] theorem State.event_pool (code unit n : Nat) : (s.event code unit n).pool = s.pool := by
  unfold State.event; split <;> rfl

theorem State.pool_foldl {β : Type} (f : State → β → State) (hf : ∀ s b, (f s b).pool = s.pool) (l : List β) (s : State) :
    (l.foldl f s).pool = s.pool := by
  induction l generalizing s with
  | nil => rfl
  | cons b l ih => rw [List.foldl_cons, ih, hf]

@[simp] theorem State.useLines_pool (a len : Nat) : (s.useLines a len).pool = s.pool := by
  unfold State.useLines; extract_lets gallery
  refine State.pool_foldl _ (fun s l => ?_) _ _
  extract_lets phys s'
  have h : s'.pool = s.pool := State.event_pool ..
  split
  · rw [State.count_pool, h]
  · exact h

theorem State.memWrite_memOk {s : State} (h : s.MemOk) (a : Nat) (bs : List Byte) : (s.memWrite a bs).MemOk := memPut_wf bs _ a h

theorem State.gPutLine_memOk {s : State} (h : s.MemOk) (g : Nat) (bs : List Byte) : (s.gPutLine g bs).MemOk := by
  unfold State.gPutLine
  dsimp only
  split
  · exact State.memWrite_memOk (s := { s with pool := { s.pool with wrote := _ } }) h _ _
  · exact State.memWrite_memOk h _ _

theorem State.gWriteLine_memOk {s : State} (h : s.MemOk) (g : Nat) (bs : List Byte) (l : Nat) : (s.gWriteLine g bs l).MemOk := by
  unfold State.gWriteLine
  dsimp only
  split <;> exact State.memOk_of_mem rfl (State.gPutLine_memOk h l _)

theorem State.gWrite_memOk {s : State} (h : s.MemOk) (g : Nat) (bs : List Byte) : (s.gWrite g bs).MemOk :=
  State.memOk_foldl _ (fun _ l h => State.gWriteLine_memOk h g bs l) _ _ (State.memOk_of_mem (by simp) h)

theorem State.physWrite_memOk {s : State} (h : s.MemOk) (a : Nat) (bs : List Byte) : (s.physWrite a bs).MemOk :=
  State.memOk_of_mem (s := (s.useLines (3 * 2 ^ 48 + a) bs.length).memWrite a bs) rfl
    (State.memWrite_memOk (State.memOk_of_mem (by simp) h) _ _)

theorem State.mWrite_memOk {s : State} (h : s.MemOk) (a : Nat) (bs : List Byte) : (s.mWrite a bs).MemOk := by
  unfold State.mWrite
  split
  · exact State.physWrite_memOk h _ _
  · exact State.gWrite_memOk h _ _

theorem State.gAtomic_memOk {s : State} (h : s.MemOk) (g op opnd comp : Nat) : (s.gAtomic g op opnd comp).2.MemOk :=
  State.gWrite_memOk h _ _

theorem State.snoop_memOk {s : State} (h : s.MemOk) (n l : Nat) : (s.snoop n l).MemOk := by
  unfold State.snoop
  dsimp only
  split
  · exact State.gWriteLine_memOk (s := ({ s with free := s.free + 1 } : State).emit (.snoop (1 + n) l)) h _ _ _
  · exact h

theorem State.snoopLine_memOk {s : State} (h : s.MemOk) (l but : Nat) : (s.snoopLine l but).MemOk := by
  unfold State.snoopLine
  dsimp only
  split
  · exact State.memOk_foldl _ (fun _ n h => State.snoop_memOk h n l) _ _ h
  · exact h

theorem State.snoops_memOk {s : State} (h : s.MemOk) (g len : Nat) : (s.snoops g len).MemOk :=
  State.memOk_foldl _ (fun _ l h => State.snoopLine_memOk h l 16) _ _ h

/-- A line of a page in DEVICE bias is not snooped (R91). -/
theorem State.snoopLine_device {s : State} {l : Nat} (but : Nat) (h : (s.biasOf (l / 4096)).shared = false) : s.snoopLine l but = s := by
  simp [State.snoopLine, h]

theorem State.foldl_same {β : Type} (f : State → β → State) (l : List β) (s : State) (h : ∀ b ∈ l, f s b = s) : l.foldl f s = s := by
  induction l with
  | nil => rfl
  | cons b l ih => rw [List.foldl_cons, h b (by simp)]; exact ih (fun c hc => h c (by simp [hc]))

/-- Nor is a range in such pages. -/
theorem State.snoops_device {s : State} {g len : Nat} (h : ∀ l ∈ linesOf g len, (s.biasOf (l / 4096)).shared = false) : s.snoops g len = s :=
  State.foldl_same _ _ _ (fun l hl => State.snoopLine_device 16 (h l hl))

/-- Where no stored line has an error, the ECC check finds none (R83). -/
theorem State.checked_sound {s : State} (h : s.pool.bad = []) (a len : Nat) : s.checked a len = s :=
  State.foldl_same _ _ _ (fun l _ => by simp [h, Tbl.find])

theorem State.checkedParts_sound {s : State} (h : s.pool.bad = []) (parts : List (Nat × List Byte)) : s.checkedParts parts = s :=
  State.foldl_same _ _ _ (fun x _ => by
    dsimp only
    split
    · exact State.foldl_same _ _ _ (fun l _ => State.checked_sound h _ _)
    · rfl)

theorem State.land_memOk {s : State} (h : s.MemOk) : s.land.MemOk := by
  refine State.memOk_foldl _ (fun s p h => ?_) _ _ h
  dsimp only
  split
  · exact h
  · refine State.memOk_of_mem (s := p.2.parts.foldl _ s) rfl (State.memOk_foldl _ (fun s x h => ?_) _ _ h)
    split
    · exact State.mWrite_memOk h _ _
    · exact h

theorem State.scrubFree_memOk {s : State} (h : s.MemOk) (b : Nat) : (s.scrubFree b).MemOk := by
  unfold State.scrubFree
  split
  · exact h
  · exact scrubMem_wf _ b h

theorem State.releaseUses_memOk {s : State} (h : s.MemOk) (p : Use → Bool) : (s.releaseUses p).MemOk :=
  State.memOk_foldl _ (fun _ e h => State.scrubFree_memOk h e.1) _ _ h

theorem State.dropMigration_memOk {s : State} (h : s.MemOk) (b : Nat) : (s.dropMigration b).MemOk := by
  unfold State.dropMigration
  split
  · exact h
  · rename_i m _
    exact State.scrubFree_memOk (s := { s with pool := { s.pool with migr := Tbl.del s.pool.migr b } }) h _

theorem State.releaseRun_memOk {s : State} (h : s.MemOk) (first n : Nat) : (s.releaseRun first n).MemOk := by
  refine State.memOk_of_mem (s := (List.range' first n).foldl _ s) rfl (State.memOk_foldl _ (fun s i h => ?_) _ _ h)
  dsimp only
  split <;> exact State.memOk_of_mem rfl (State.scrubFree_memOk (State.dropMigration_memOk h _) _)

theorem State.moveBlock_memOk {s : State} (h : s.MemOk) (src dst : Nat) : (s.moveBlock src dst).MemOk := moveCells_wf _ src dst h

/-- A table read touches the meter of R24 alone. -/
theorem State.tableRead_only (b : Option Nat) (n : Nat) : s.tableRead b n = { s with cnt := (s.tableRead b n).cnt } := by
  cases b <;> rfl

theorem State.walked_only (p : Nat) (rs : List Range) : s.walked p rs = { s with cnt := (s.walked p rs).cnt } := by
  have h (l : List Nat) (s : State) : l.foldl (fun s page => s.tableRead (s.readCopy (fun c => .tablePool p (page / 512) c)) 16) s
      = { s with cnt := (l.foldl (fun s page => s.tableRead (s.readCopy (fun c => .tablePool p (page / 512) c)) 16) s).cnt } := by
    induction l generalizing s with
    | nil => rfl
    | cons x l ih => rw [List.foldl_cons, ih, State.tableRead_only]
  unfold State.walked
  split
  · rfl
  · exact h _ s

theorem State.regionRead_only (i : Nat) : s.regionRead i = { s with cnt := (s.regionRead i).cnt } := State.tableRead_only s _ _

/-- Reset leaves the stacks without a listed byte. -/
theorem State.reset_memOk : State.reset.MemOk := rfl

end Sys2Proof.Machine
end

