-- ==== Sys2Proof/Laws/Records.lean ====
section
/-!
SUPPORT. The end of a descriptor or command: what goes out only grows, the record leaves its table, and, where nothing is to be waited for, its
entry is written to its ring's tail slot (R158 to R164). The provers cite finish_ends for every statement that ends in an entry.
-/
namespace Sys2Proof.Machine

variable {s : State}

/-! ### What goes out only grows -/

theorem State.emit_prefix (s : State) (e : Egress) : s.egress <+: (s.emit e).egress := ⟨[e], rfl⟩
theorem State.emit_mem (s : State) (e : Egress) : e ∈ (s.emit e).egress := List.mem_append_right _ (List.mem_singleton.2 rfl)

/-- A message of an MSI-X vector leaves, or its vector's entry changes, or nothing does. -/
theorem State.sendMsix_cases (s : State) (l fn v : Nat) :
    s.sendMsix l fn v = s ∨ (∃ x, s.sendMsix l fn v = s.setLink l x) ∨ ∃ e, s.sendMsix l fn v = s.emit e := by
  unfold State.sendMsix
  dsimp only
  split
  · exact .inl rfl
  · split
    · exact .inr (.inl ⟨_, rfl⟩)
    · exact .inr (.inr ⟨_, rfl⟩)

theorem State.sendMsix_prefix (s : State) (l fn v : Nat) : s.egress <+: (s.sendMsix l fn v).egress := by
  obtain h | ⟨x, h⟩ | ⟨e, h⟩ := s.sendMsix_cases l fn v
  · exact ⟨[], by simp [h]⟩
  · exact ⟨[], by simp [h, State.setLink]⟩
  · exact h ▸ State.emit_prefix _ _

@[simp] theorem State.sendMsix_qm (s : State) (l fn v : Nat) : (s.sendMsix l fn v).qm = s.qm := by
  rcases s.sendMsix_cases l fn v with h | ⟨x, h⟩ | ⟨e, h⟩ <;> rw [h] <;> rfl

theorem State.event_eq (s : State) (code unit n : Nat) : ∃ c, s.event code unit n = { s with cnt := c } := by
  unfold State.event
  split
  · exact ⟨_, rfl⟩
  · exact ⟨s.cnt, rfl⟩

theorem State.egress_foldl {β : Type} (f : State → β → State) (hf : ∀ s b, s.egress <+: (f s b).egress) (l : List β) (s : State) :
    s.egress <+: (l.foldl f s).egress := by
  induction l generalizing s with
  | nil => exact List.prefix_refl _
  | cons b l ih => exact (hf s b).trans (ih _)

theorem State.ringStore_prefix (s : State) (r : Nat) (e : Entry) : s.egress <+: (s.ringStore r e).egress := by
  unfold State.ringStore
  dsimp only
  generalize hs : s.setRing r { s.ring r with tail := ((s.ring r).tail + 1) % 2 ^ 32, armed := false } = u
  have h0 : s.egress = u.egress := by subst hs; exact (State.setRing_egress _ _ _).symm
  rw [h0]
  split <;> split
  · exact ((State.emit_prefix _ _).trans (State.emit_prefix _ _)).trans (State.sendMsix_prefix _ _ _ _)
  · exact State.emit_prefix _ _ |>.trans (State.sendMsix_prefix _ _ _ _)
  · exact (State.emit_prefix _ _).trans (State.emit_prefix _ _)
  · exact State.emit_prefix _ _

theorem prefix_of_eq {α : Type} {a b : List α} (h : b = a) : a <+: b := h ▸ List.prefix_refl _

/-- What an entry that is due does to a ring (R164, R168, R404). -/
theorem State.ringPut_cases (s : State) (r : Nat) (e : Entry) : s.ringPut r e = s.count F.PRT_COUNT_COUNT 0 ∨ s.ringPut r e = s ∨
    (∃ x, s.ringPut r e = s.setRing r x) ∨ s.ringPut r e = s.ringStore r e := by
  unfold State.ringPut
  dsimp only
  repeat' split
  all_goals first
    | exact Or.inl rfl
    | exact Or.inr (Or.inl rfl)
    | exact Or.inr (Or.inr (Or.inr rfl))
    | exact Or.inr (Or.inr (Or.inl ⟨_, rfl⟩))

theorem State.ringPut_prefix (s : State) (r : Nat) (e : Entry) : s.egress <+: (s.ringPut r e).egress := by
  rcases s.ringPut_cases r e with h | h | ⟨x, h⟩ | h
  · exact prefix_of_eq (by simp only [h, State.count_egress])
  · exact prefix_of_eq (congrArg State.egress h)
  · exact prefix_of_eq (by simp only [h, State.setRing_egress])
  · exact (State.ringStore_prefix s r e).trans (prefix_of_eq (congrArg State.egress h))

theorem State.issueRead_prefix (s : State) (loc : Loc) (len : Nat) (why : ReadWhy) : s.egress <+: (s.issueRead loc len why).egress := by
  unfold State.issueRead
  dsimp only
  split
  · exact State.emit_prefix _ _
  · exact List.prefix_refl _

theorem State.flushReads_prefix (b part : Nat) (ls : List Nat) : ∀ (s : State) (k : Nat), s.egress <+: (s.flushReads b part k ls).egress := by
  induction ls with
  | nil => intro s k; exact List.prefix_refl _
  | cons l ls ih => intro s k; exact (State.issueRead_prefix _ _ _ _).trans (ih _ _)

theorem State.complete_prefix (s : State) (r : Nat) (e : Entry) (links : List Nat) : s.egress <+: (s.complete r e links).egress := by
  unfold State.complete
  dsimp only
  generalize hu : (if e.status = Stat.SUCCESS then s else s.event 0x02 (e.owner.getD 0) 1) = u
  have h0 : s.egress = u.egress := by
    subst hu
    split
    · rfl
    · obtain ⟨c, h⟩ := s.event_eq 0x02 (e.owner.getD 0) 1; rw [h]
  rw [h0]
  repeat' split
  all_goals first
    | exact State.ringPut_prefix _ _ _
    | exact State.flushReads_prefix _ _ _ (u.fresh.2.putBuild u.fresh.1 _) 0

/-! ### Records -/

theorem State.getRec_of_qm {s u : State} (h : u.qm.recs = s.qm.recs) (k : Nat) : u.getRec k = s.getRec k := by
  unfold State.getRec
  rw [h]

theorem State.setRing_recs (s : State) (r : Nat) (x : Ring) : (s.setRing r x).qm.recs = s.qm.recs := rfl

theorem State.ringStore_getRec (s : State) (r : Nat) (e : Entry) (k : Nat) : (s.ringStore r e).getRec k = s.getRec k := by
  refine State.getRec_of_qm ?_ k
  unfold State.ringStore
  dsimp only
  split <;> split <;> simp only [State.sendMsix_qm, State.emit_qm, State.setRing_recs]

theorem State.ringPut_getRec (s : State) (r : Nat) (e : Entry) (k : Nat) : (s.ringPut r e).getRec k = s.getRec k := by
  rcases s.ringPut_cases r e with h | h | ⟨x, h⟩ | h <;> rw [h]
  · exact State.getRec_of_qm (by rw [State.count_qm]) k
  · exact State.getRec_of_qm (State.setRing_recs _ _ _) k
  · exact State.ringStore_getRec _ _ _ _

theorem State.issueRead_getRec (s : State) (loc : Loc) (len : Nat) (why : ReadWhy) (k : Nat) : (s.issueRead loc len why).getRec k = s.getRec k := by
  unfold State.issueRead
  dsimp only
  split <;> rfl

theorem State.flushReads_getRec (b part : Nat) (ls : List Nat) (k : Nat) : ∀ (s : State) (i : Nat), (s.flushReads b part i ls).getRec k = s.getRec k := by
  induction ls with
  | nil => intro s i; rfl
  | cons l ls ih => intro s i; exact (ih _ _).trans (State.issueRead_getRec _ _ _ _ _)

theorem State.complete_getRec (s : State) (r : Nat) (e : Entry) (links : List Nat) (k : Nat) : (s.complete r e links).getRec k = s.getRec k := by
  unfold State.complete
  dsimp only
  generalize hu : (if e.status = Stat.SUCCESS then s else s.event 0x02 (e.owner.getD 0) 1) = u
  have h0 : u.getRec k = s.getRec k := by
    subst hu
    split
    · rfl
    · obtain ⟨c, h⟩ := s.event_eq 0x02 (e.owner.getD 0) 1; rw [h]; rfl
  rw [← h0]
  repeat' split
  all_goals first
    | exact State.ringPut_getRec _ _ _ _
    | exact State.flushReads_getRec _ _ _ _ _ _

theorem State.sampleEnd_qm (s : State) (x : Rec) (bytes status : Nat) : (s.sampleEnd x bytes status).qm = s.qm := by
  unfold State.sampleEnd
  dsimp only
  split
  · rfl
  · generalize sampleBytes s x _ _ _ _ = bs
    split <;> simp only [State.count_qm, State.countSat_qm, State.memWrite_qm]

theorem State.sampleEnd_egress (s : State) (x : Rec) (bytes status : Nat) : (s.sampleEnd x bytes status).egress = s.egress := by
  unfold State.sampleEnd
  dsimp only
  split
  · rfl
  · generalize sampleBytes s x _ _ _ _ = bs
    split <;> simp only [State.count_egress, State.countSat_egress, State.memWrite_egress]

theorem Tbl.find_map_none {α : Type} (f : Nat → α → α) (t : Tbl α) (k : Nat) (h : Tbl.find t k = none) : Tbl.find (Tbl.map f t) k = none := by
  induction t with
  | nil => rfl
  | cons p t ih =>
    obtain ⟨a, v⟩ := p
    rw [Tbl.find_cons] at h
    change Tbl.find ((a, f a v) :: Tbl.map f t) k = none
    rw [Tbl.find_cons]
    split
    · rename_i c; rw [if_pos c] at h; cases h
    · rename_i c; rw [if_neg c] at h; exact ih h

theorem State.modQp_recs (s : State) (q : Nat) (f : Qp → Qp) : (s.modQp q f).qm.recs = s.qm.recs := rfl

theorem State.retire_egress (s : State) (r : Nat) (x : Rec) (bytes : Nat) : (s.retire r x bytes).egress = s.egress := by
  unfold State.retire
  dsimp only
  have h0 : ((s.delRec r).sampleEnd x bytes x.status).egress = s.egress := State.sampleEnd_egress _ _ _ _
  rw [← h0]
  generalize (s.delRec r).sampleEnd x bytes x.status = u
  split <;> split <;> rfl

/-- The records a finished record leaves behind: the others, without it among what they wait for. -/
theorem State.retire_find (s : State) (r : Nat) (x : Rec) (bytes k : Nat) (h : (s.delRec r).getRec k = none) : (s.retire r x bytes).getRec k = none := by
  have h0 : Tbl.find ((s.delRec r).sampleEnd x bytes x.status).qm.recs k = none := by
    rw [State.sampleEnd_qm]
    exact h
  unfold State.retire
  dsimp only
  unfold State.getRec
  dsimp only
  refine Tbl.find_map_none (fun _ (y : Rec) => y.uncover r (x.status == Stat.SUCCESS) x.links) _ _ ?_
  revert h0
  generalize (s.delRec r).sampleEnd x bytes x.status = u
  intro h0
  split <;> split <;> simp only [State.modQp_recs, h0]

theorem State.retire_gone (s : State) (r : Nat) (x : Rec) (bytes : Nat) : (s.retire r x bytes).getRec r = none :=
  s.retire_find r x bytes r ((State.delRec_getRec s r r).trans (if_pos rfl))

theorem State.letGo_egress (s : State) (r : Nat) : (s.letGo r).egress = s.egress := by
  unfold State.letGo
  split
  · split
    · exact State.retire_egress _ _ _ _
    · rfl
  · rfl

/-- A record that is absent stays absent while others finish. -/
theorem State.letGo_absent (s : State) (r k : Nat) (h : s.getRec k = none) : (s.letGo r).getRec k = none := by
  unfold State.letGo
  split
  · split
    · refine State.retire_find _ _ _ _ _ ?_
      rw [State.delRec_getRec, h]
      split <;> rfl
    · exact h
  · exact h

/-- Taking a flight entry, where one is free, changes the flight entries alone. -/
theorem State.takeFlight_getD (s : State) (n : Nat) : ∃ f, (s.takeFlight n).getD s = s.setFlights f := by
  unfold State.takeFlight
  split
  · exact ⟨s.tr.flights, rfl⟩
  · split
    · exact ⟨_, rfl⟩
    · exact ⟨s.tr.flights, rfl⟩

/-- A management message changes the transport engine alone. -/
theorem State.queueMgt_tr (s : State) (node qpn : Nat) (bs : List Byte) : ∃ tr, s.queueMgt node qpn bs = { s with tr := tr } := by
  unfold State.queueMgt State.toLamp
  obtain ⟨f, hf⟩ := s.takeFlight_getD node
  dsimp only
  rw [hf]
  split
  · split
    · exact ⟨s.tr, rfl⟩
    · split
      · exact ⟨_, rfl⟩
      · exact ⟨s.tr, rfl⟩
  · exact ⟨_, rfl⟩

theorem State.queueMgt_egress (s : State) (node qpn : Nat) (bs : List Byte) : (s.queueMgt node qpn bs).egress = s.egress := by
  obtain ⟨tr, h⟩ := s.queueMgt_tr node qpn bs
  rw [h]

theorem State.queueMgt_qm (s : State) (node qpn : Nat) (bs : List Byte) : (s.queueMgt node qpn bs).qm = s.qm := by
  obtain ⟨tr, h⟩ := s.queueMgt_tr node qpn bs
  rw [h]

theorem State.report_prefix (s : State) (r : Nat) (x : Rec) (e : Entry) : s.egress <+: (s.report r x e).egress := by
  unfold State.report State.keeperMsg
  split
  · exact State.complete_prefix _ _ _ _
  · dsimp only
    exact prefix_of_eq (State.queueMgt_egress _ _ _ _)
  · exact State.emit_prefix _ _
  · exact List.prefix_refl _

theorem State.report_getRec (s : State) (r : Nat) (x : Rec) (e : Entry) (k : Nat) : (s.report r x e).getRec k = s.getRec k := by
  unfold State.report State.keeperMsg
  split
  · exact State.complete_getRec _ _ _ _ _
  · dsimp only
    exact State.getRec_of_qm (congrArg Qm.recs (State.queueMgt_qm _ _ _ _)) k
  · rfl
  · rfl

theorem State.endRec_prefix (s : State) (r type status bytes : Nat) (data : Word) (reason : Nat) :
    s.egress <+: (s.endRec r type status bytes data reason).egress := by
  unfold State.endRec
  split
  · exact List.prefix_refl _
  · split
    · exact List.prefix_refl _
    · dsimp only
      rw [State.letGo_egress]
      exact State.report_prefix (s.putRec r _) _ _ _

theorem State.endRec_absent (s : State) (r type status bytes : Nat) (data : Word) (reason k : Nat) (h : s.getRec k = none) :
    (s.endRec r type status bytes data reason).getRec k = none := by
  unfold State.endRec
  split
  · exact h
  · rename_i x hx
    split
    · exact h
    · dsimp only
      refine State.letGo_absent _ _ _ ?_
      rw [State.report_getRec, State.putRec_getRec, if_neg, h]
      rintro rfl
      rw [h] at hx
      cases hx

theorem State.fenceDone_prefix (s : State) (p : Nat × Rec) : s.egress <+: (s.fenceDone p).egress := by
  unfold State.fenceDone
  split <;> exact State.endRec_prefix _ _ _ _ _ _ _

theorem State.fenceDone_absent (s : State) (p : Nat × Rec) (k : Nat) (h : s.getRec k = none) : (s.fenceDone p).getRec k = none := by
  unfold State.fenceDone
  split <;> exact State.endRec_absent _ _ _ _ _ _ _ _ h

theorem State.fenceSweep_prefix (s : State) : s.egress <+: s.fenceSweep.egress := State.egress_foldl _ State.fenceDone_prefix _ _

theorem State.fenceSweep_absent (s : State) (k : Nat) (h : s.getRec k = none) : s.fenceSweep.getRec k = none := by
  unfold State.fenceSweep
  generalize s.qm.recs.filter (fun p => s.fenceOver p.2) = l
  induction l generalizing s with
  | nil => exact h
  | cons p l ih => exact ih _ (State.fenceDone_absent _ _ _ h)

/-! ### The entry -/

/-- An entry that is due goes to the tail slot of an ACTIVE ring that holds nothing, has a released slot and no SPLIT, for the current
generation (R164, R168, R404). -/
theorem State.ringPut_writes (r : Nat) (e : Entry) (ha : (s.ring r).state = .active) (hh : (s.ring r).held = [])
    (hr : s.tailOpen (s.ring r) = true) (hs : (s.ring r).split = false)
    (hg : ∀ p, e.owner = some p → (s.part p).gen = e.gen) :
    .linkWrite (s.ring r).slot (entryBytes e (s.ring r).tail (s.ring r).log2) ∈ (s.ringPut r e).egress := by
  unfold State.ringPut
  dsimp only
  rw [if_neg, if_neg (by rw [ha]; decide), if_neg (by rw [ha]; decide), if_pos (by rw [hh, hr]; rfl)]
  · unfold State.ringStore
    dsimp only
    rw [hs]
    have h : ∀ u : State, (Egress.linkWrite (s.ring r).slot (entryBytes e (s.ring r).tail (s.ring r).log2)) ∈
        (u.emit (.linkWrite (s.ring r).slot (entryBytes e (s.ring r).tail (s.ring r).log2))).egress := fun u => State.emit_mem _ _
    split
    · exact (State.sendMsix_prefix _ _ _ _).mem (h _)
    · exact h _
  · unfold State.entryLate
    split
    · rename_i p hp; rw [hg p hp]; simp
    · decide

/-- The same for an entry whose placements went through no link but the ring's own (R122). -/
theorem State.complete_writes (r : Nat) (e : Entry) (links : List Nat) (ha : (s.ring r).state = .active) (hh : (s.ring r).held = [])
    (hr : s.tailOpen (s.ring r) = true) (hs : (s.ring r).split = false)
    (hg : ∀ p, e.owner = some p → (s.part p).gen = e.gen) (hl : ∀ l ∈ links, l = (s.ring r).loc.link) (hw : s.entryWaits e.recId = false) :
    .linkWrite (s.ring r).slot (entryBytes e (s.ring r).tail (s.ring r).log2) ∈ (s.complete r e links).egress := by
  unfold State.complete
  dsimp only
  generalize hu : (if e.status = Stat.SUCCESS then s else s.event 0x02 (e.owner.getD 0) 1) = u
  have h0 : ∃ c, u = { s with cnt := c } := by
    subst hu
    split
    · exact ⟨s.cnt, rfl⟩
    · exact s.event_eq _ _ _
  obtain ⟨c, rfl⟩ := h0
  have hf : (links.filter (fun l => l != (State.ring { s with cnt := c } r).loc.link)) = [] := by
    rw [List.filter_eq_nil_iff]
    intro l hl'
    rw [hl l hl']
    simp [State.ring]
  have hw' : (State.entryWaits { s with cnt := c } e.recId) = false := hw
  simp only [hf, List.eraseDups_nil, List.any_nil, Bool.false_and, List.filter_nil, List.isEmpty_nil, Bool.true_and, Bool.false_eq_true, if_false,
    hw', Bool.not_false, if_true]
  exact State.ringPut_writes (s := { s with cnt := c }) r e ha hh hr hs hg

theorem State.emit_entryDue (s : State) (e : Egress) (k : Nat) : (s.emit e).entryDue k = s.entryDue k := rfl

theorem State.sendMsix_entryDue (s : State) (l fn v k : Nat) : (s.sendMsix l fn v).entryDue k = s.entryDue k := by
  rcases s.sendMsix_cases l fn v with h | ⟨x, h⟩ | ⟨e, h⟩ <;> rw [h] <;> rfl

theorem State.ringStore_undue {r k : Nat} {e : Entry} (hh : (s.ring r).held = []) (hk : s.entryDue k = false) :
    (s.ringStore r e).entryDue k = false := by
  obtain ⟨h1, h2⟩ := Bool.or_eq_false_iff.1 hk
  have hs : ∀ x : Ring, x.held = [] → (s.setRing r x).entryDue k = false := fun x hx =>
    Bool.or_eq_false_iff.2 ⟨h1, Tbl.any_set _ _ _ _ _ h2 (by simp only [hx, List.drop_nil, List.any_nil])⟩
  unfold State.ringStore
  dsimp only
  split <;> split <;> simp only [State.sendMsix_entryDue, State.emit_entryDue] <;> exact hs _ hh

/-- An entry that is written at once leaves no entry of its record due. -/
theorem State.complete_undue (r k : Nat) (e : Entry) (links : List Nat) (ha : (s.ring r).state = .active) (hh : (s.ring r).held = [])
    (hr : s.tailOpen (s.ring r) = true) (hl : ∀ l ∈ links, l = (s.ring r).loc.link)
    (hw : s.entryWaits e.recId = false) (hk : s.entryDue k = false) : (s.complete r e links).entryDue k = false := by
  unfold State.complete
  dsimp only
  generalize hu : (if e.status = Stat.SUCCESS then s else s.event 0x02 (e.owner.getD 0) 1) = u
  have h0 : ∃ c, u = { s with cnt := c } := by
    subst hu
    split
    · exact ⟨s.cnt, rfl⟩
    · exact s.event_eq _ _ _
  obtain ⟨c, rfl⟩ := h0
  have hf : (links.filter (fun l => l != (State.ring { s with cnt := c } r).loc.link)) = [] := by
    rw [List.filter_eq_nil_iff]
    intro l hl'
    rw [hl l hl']
    simp [State.ring]
  have hw' : (State.entryWaits { s with cnt := c } e.recId) = false := hw
  simp only [hf, List.eraseDups_nil, List.any_nil, Bool.false_and, List.filter_nil, List.isEmpty_nil, Bool.true_and, Bool.false_eq_true, if_false,
    hw', Bool.not_false, if_true]
  have hk' : State.entryDue { s with cnt := c } k = false := hk
  have hp : State.ringPut { s with cnt := c } r e = State.count { s with cnt := c } F.PRT_COUNT_COUNT 0 ∨
      State.ringPut { s with cnt := c } r e = State.ringStore { s with cnt := c } r e := by
    unfold State.ringPut
    dsimp only
    cases State.entryLate { s with cnt := c } e
    · refine Or.inr ?_
      rw [if_neg (by decide), if_neg (by change ¬ ((s.ring r).state == .free) = true; rw [ha]; decide),
        if_neg (by change ¬ ((s.ring r).state == .hostLost) = true; rw [ha]; decide), if_pos]
      change ((s.ring r).held.isEmpty && s.tailOpen (s.ring r)) = true
      rw [hh, hr]
      rfl
    · exact Or.inl rfl
  rcases hp with hp | hp <;> rw [hp]
  · unfold State.entryDue State.entryWaits at hk' ⊢
    rw [State.count_io, State.count_qm]
    exact hk'
  · exact State.ringStore_undue hh hk'

/-- **The end of a record.** A record whose entry can be written at once leaves its table and has its entry written to its ring (R158 to R164). -/
theorem State.finish_ends {r : Nat} {x : Rec} (hx : s.getRec r = some x) (ht : s.takesEntry x x.links) (type status bytes : Nat) (data : Word)
    (reason : Nat) :
    (s.finish r type status bytes data reason).getRec r = none ∧
      s.entryWrite x type status bytes data reason ∈ (s.finish r type status bytes data reason).egress := by
  obtain ⟨h0, ha, hh, hr, hs, hg, hl, hp, hd⟩ := ht
  have hd := hd (r, x) (Tbl.mem_of_find hx) rfl
  have hd : s.entryDue r = false := hd
  obtain ⟨y, hy⟩ : ∃ y : Rec, y = { x with status := status, data := data, reason := reason, bytes := bytes, phase := .ended } := ⟨_, rfl⟩
  have hgen : ∀ p, (y.entry type bytes).owner = some p → ((s.putRec r y).part p).gen = (y.entry type bytes).gen := by
    intro p hp
    subst hy
    simp only [Rec.entry] at hp ⊢
    split at hp
    · cases hp
    · injection hp with hp
      subst hp
      rcases hg with hg | hg
      · contradiction
      · exact hg
  have hu : ((s.putRec r y).report r y (y.entry type bytes)) =
      (s.putRec r y).complete (s.queueRing x.queue x.rq) { y.entry type bytes with recId := r } x.links := by
    subst hy
    unfold State.report
    rw [show ({ x with status := status, data := data, reason := reason, bytes := bytes, phase := .ended } : Rec).source = 0 from h0]
    rfl
  have he : s.endRec r type status bytes data reason = ((s.putRec r y).report r y (y.entry type bytes)).letGo r := by
    unfold State.endRec
    rw [hx]
    dsimp only
    rw [if_neg hp, hy]
  have hdue : (State.entryDue ((s.putRec r y).report r y (y.entry type bytes)) r) = false := by
    rw [hu]
    exact State.complete_undue _ _ _ _ ha hh hr hl (Bool.or_eq_false_iff.1 hd).1 hd
  have hfind : State.getRec ((s.putRec r y).report r y (y.entry type bytes)) r = some y := by
    rw [State.report_getRec, State.putRec_getRec, if_pos rfl]
  unfold State.finish
  rw [he]
  refine ⟨State.fenceSweep_absent _ _ ?_, (State.fenceSweep_prefix _).mem ?_⟩
  · unfold State.letGo
    rw [hfind]
    dsimp only
    rw [if_pos ⟨by rw [hy], by rw [hdue]; decide⟩]
    exact State.retire_gone _ _ _ _
  · rw [State.letGo_egress, hu]
    have h := State.complete_writes (s := s.putRec r y) (s.queueRing x.queue x.rq) { y.entry type bytes with recId := r } x.links ha hh hr hs hgen hl
      (Bool.or_eq_false_iff.1 hd).1
    subst hy
    exact h

/-- The same for an admin command that does not end in TRANSLATION_FAULT. -/
theorem State.admEnd_replies {r : Nat} {x : Rec} (hx : s.getRec r = some x) (ht : s.takesEntry x x.links) (status data : Nat)
    (hs : status ≠ Stat.TRANSLATION_FAULT) : s.replies (s.admEnd r status data) r x status (word data) := by
  unfold State.admEnd State.finishAdm
  rw [if_neg hs]
  exact State.finish_ends hx ht _ _ _ _ _

/-! ### The start of an admin command -/

theorem State.admStart_getRec {r op : Nat} {x : Rec} (h : s.admStart r op = some x) :
    s.getRec r = some x ∧ x.desc.op = op ∧ x.phase = .accepted ∧ isAdm x.queue = true := by
  unfold State.admStart State.admReady at h
  split at h
  · cases h
  · rename_i y hy
    split at hy
    · cases hy
    · split at hy
      · rename_i c
        injection hy with hy
        subst hy
        split at h
        · cases h
        · injection h with h
          subst h
          rename_i hz _
          exact ⟨hz, c.1, c.2.1, c.2.2.1⟩
      · cases hy

/-- A command that may start runs its body (R176, R539). -/
theorem State.admRun_begins {r op : Nat} {x : Rec} (h : s.begins r op x) (f : State → Rec → State) : s.admRun r op f = f s x := by
  unfold State.admRun
  rw [h.1]
  dsimp only
  rw [h.2]
  simp

/-- One that may not start does nothing. -/
theorem State.admRun_none {r op : Nat} (h : s.admStart r op = none) (f : State → Rec → State) : s.admRun r op f = s := by
  unfold State.admRun
  rw [h]

end Sys2Proof.Machine
end

