-- ==== Sys2Proof/WellFormed.lean ====
section
/-!
DEFINITION. The commands a sender may form: numbers within what the larger variant fits, byte strings of the length the spec gives them,
and words within their width (spec/01_architecture.md R1 to R5, R17; each check cites its rule).
-/
namespace Sys2Proof
open Machine

/-- A packet as it can travel: at most 8,192 B of payload, and a trailer flit exactly when ENC is set (R183, R184). -/
def Packet.wf (p : Packet) : Bool := decide (p.pay.length ≤ 8192) && (p.trailer.length == (if p.enc then 64 else 0))

/-- A codeword: ten 64 B flit slots and a 20-bit control field (R256). -/
def Codeword.wf (c : Codeword) : Bool := c.slots.length == 10 && c.slots.all (fun f => f.length == 64) && decide (c.ctl < 2 ^ 20)

/-- A frame of at least one byte; R379 and R381 say what becomes of one that is too short or too long. -/
def EthFrame.wf (f : EthFrame) : Bool := decide (1 ≤ f.bytes.length)

/-- A stack line's number: 20 stacks of 65,536 blocks of 32,768 lines (R82, R84). -/
def EccHit.wf (h : EccHit) : Bool := decide (h.line < 20 * 65536 * 32768)

/-- An AES core's number (R461). -/
def AesHit.wf (h : AesHit) : Bool := decide (h.core < 32)

/-- An access to a register, a doorbell or an MSI-X table: 32 or 64 bits, naturally aligned (R10). -/
def accessWf (a width : Nat) : Bool := (width == 32 || width == 64) && a % (width / 8) == 0

/-- A management request over I3C (R33). -/
def I3cReq.wf : I3cReq → Bool
  | .admin _ => true
  | .write a width _ => accessWf a width
  | .read a width => accessWf a width

/-- Findings of ECC and AES. -/
def hitsWf (hs : List EccHit) : Bool := hs.all EccHit.wf
def aesWf (a : Option AesHit) : Bool := a.all AesHit.wf

/-- What a start finds names units that the adapter can hold (R3, R449). -/
def StartInput.wf (x : StartInput) : Bool :=
  x.bad.all (fun b => decide (1 ≤ b.1) && decide (b.1 ≤ 8)) && x.badBlocks.all (fun b => decide (b.1 < 20) && decide (b.2 < 65536))
    && x.absent.all (fun c => decide (c < 2))

/-- Whether a command is well formed. -/
def Instr.wf (i : Instr) : Bool :=
  match i with
  | .mainPgRise _ => true
  | .supplyGood _ x => x.wf
  | .arrayWave _ w _ => decide (w < 8)
  | .selfTestDone _ => true
  | .engineWave _ _ => true
  | .supplyLoss _ => true
  | .standbyLoss _ => true
  | .refClockLost _ _ => true
  | .thermalWarn _ die _ => decide (die < 31)
  | .thermalWarnClear _ _ => true
  | .thermalTrip _ die _ => decide (die < 31)
  | .engineOverheat _ e _ => decide (e < 32)
  | .idleTimerExpiry _ d => decide (d < 84)
  | .retainToOff _ d => decide (d < 84)
  | .domainOn _ d => decide (d < 84)
  | .wakeFailed _ d => decide (d < 84)
  | .rtcAlarm _ => true
  | .linkL1Exit _ l => decide (l < 17)
  | .perstDeassert _ l => decide (l < 17)
  | .perstAssert _ l => decide (l < 17)
  | .fabricLinkWake _ p => decide (p < 128)
  | .pwrHoldWrite _ d w => decide (d < 84) && decide (w.toNat < 2 ^ 32)
  | .lampResetWrite _ w x => decide (w.toNat < 2 ^ 32) && x.wf
  | .deviceReset _ _ x => x.wf
  | .lampRtcSet _ v => decide (v < 2 ^ 48)
  | .i3cRequest _ q => q.wf
  | .linkDllDown _ l => decide (l < 17)
  | .linkStall _ l => decide (l < 17)
  | .hstDetach _ => true
  | .hstAttach _ => true
  | .hstEnable _ => true
  | .accDetach _ n => decide (n < 16)
  | .accAttach _ n => decide (n < 16)
  | .accEnable _ n => decide (n < 16)
  | .flr _ l f => decide (l < 17) && decide (f < 64)
  | .cxlMemAccess _ n a store => decide (n < 16) && a % 64 == 0 && store.all (fun b => b.length == 64)
  | .linkReadCompletion _ _ _ => true
  | .readCompletionTimeout _ _ => true
  | .fetchRetryTimer _ q _ => decide (q < 65601)
  | .placementAccepted _ _ => true
  | .qpDoorbell _ l p n len _ => decide (l < 17) && decide (p < 64) && decide (n < 65536) && (len == 4 || len == 8)
  | .ringDoorbell _ l p n len _ => decide (l < 17) && decide (p < 64) && decide (n < 65536) && (len == 4 || len == 8)
  | .admSqDoorbell _ pi => decide (pi < 2 ^ 32)
  | .admCqDoorbell _ _ => true
  | .qmgAdmEnable _ _ => true
  | .qmgPadmEnable _ p _ => decide (1 ≤ p) && decide (p < 64)
  | .descriptorFetchReturn _ _ b => b.length == 64
  | .refetchTimer _ q _ => decide (q < 65601)
  | .fetchResume _ q _ => decide (q < 65601)
  | .nop _ _ => true
  | .write _ _ => true
  | .read _ _ => true
  | .send _ _ => true
  | .recv _ _ => true
  | .atomic _ _ => true
  | .placementFence _ _ => true
  | .collective _ _ => true
  | .ethSend _ _ => true
  | .ethSegment _ _ => true
  | .ethRecv _ _ => true
  | .qpCreate _ _ => true
  | .qpDestroy _ _ => true
  | .qpDestroyDone _ n => decide (n < 65536)
  | .qpRearm _ _ => true
  | .qpQuery _ _ => true
  | .ringCreate _ _ => true
  | .ringDestroy _ _ => true
  | .ringRearm _ _ => true
  | .ringQuery _ _ => true
  | .tableSync _ _ => true
  | .tableReadback _ _ => true
  | .invalidateDrain _ _ => true
  | .drainEnd _ _ => true
  | .regionRegister _ _ => true
  | .revoke _ _ => true
  | .revokeDone _ _ => true
  | .regionQuery _ _ => true
  | .regionReclaim _ _ => true
  | .galleryAlloc _ _ => true
  | .galleryFree _ _ => true
  | .galleryFreeWaitEnd _ _ => true
  | .blockScrubDone _ _ => true
  | .galleryQuery _ _ => true
  | .biasSet _ _ => true
  | .partCreate _ _ => true
  | .partReset _ _ => true
  | .partResetReadsDone _ p => decide (p < 64)
  | .partDestroy _ _ => true
  | .partQuota _ _ => true
  | .partQuery _ _ => true
  | .keeperSet _ _ => true
  | .fogPublish _ _ => true
  | .redirectSet _ _ => true
  | .groupCreate _ _ => true
  | .groupDestroy _ _ => true
  | .planLoad _ _ => true
  | .planUnload _ _ => true
  | .planUnloadResume _ k => decide (k < 16384)
  | .groupAbort _ _ => true
  | .groupQuery _ _ => true
  | .planQuery _ _ => true
  | .imageStage _ _ => true
  | .imageCommit _ _ => true
  | .imageVerifyDone _ => true
  | .imageWriteDone _ _ x => x.wf
  | .imageDiscard _ _ => true
  | .imageDistribute _ _ => true
  | .distributeTimeout _ => true
  | .ledgerRead _ _ => true
  | .daymarkRead _ _ => true
  | .attest _ _ => true
  | .kekEstablish _ _ => true
  | .keyLoad _ _ => true
  | .faultqCreate _ _ => true
  | .faultqDestroy _ _ => true
  | .sampleAlloc _ _ => true
  | .sampleFree _ _ => true
  | .sampleRead _ _ => true
  | .writeData _ p aes hits => p.wf && aesWf aes && hitsWf hits
  | .sendData _ p aes => p.wf && aesWf aes
  | .readReq _ p aes hits => p.wf && aesWf aes && hitsWf hits
  | .readRsp _ p aes => p.wf && aesWf aes
  | .atomicReq _ p aes hits => p.wf && aesWf aes && hitsWf hits
  | .atomicRsp _ p => p.wf
  | .ack _ p => p.wf
  | .nak _ p => p.wf
  | .errorRsp _ p => p.wf
  | .mgtData _ p => p.wf
  | .rtoExpiry _ _ _ => true
  | .retryHorizonEnd _ _ => true
  | .busyBackoff _ _ => true
  | .ackDelayTimer _ _ => true
  | .rdEntryExpire _ _ => true
  | .assemblingAbandon _ _ => true
  | .flightEntryAvailable _ _ => true
  | .messageBegin _ _ => true
  | .responseUnitsAvailable _ _ => true
  | .shaperDebtCleared _ p _ => decide (p < 64)
  | .beaconDebtZero _ q => decide (q < 65536)
  | .pacerRelease _ q => decide (q < 65536)
  | .switchPacketArrival _ input _ => decide (input < 140)
  | .ageLimitDiscard _ _ _ _ => true
  | .outputPacketStart _ o aes ecc => decide (o < 146) && aesWf aes && decide (ecc ≤ 2)
  | .codewordReceived _ p c => decide (p < 128) && c.wf
  | .credit _ p cs => decide (p < 128) && decide (cs.length ≤ 32)
  | .audit _ p cs => decide (p < 128) && decide (cs.length ≤ 32)
  | .echo _ p time => decide (p < 128) && decide (time < 2 ^ 48)
  | .echoRsp _ p _ _ => decide (p < 128)
  | .train _ p _ _ node port dim dir _ _ => decide (p < 128) && decide (node < 2 ^ 14) && decide (port < 128) && decide (dim < 8) && decide (dir < 8)
  | .health _ p _ _ => decide (p < 128)
  | .creditFlitTimer _ p => decide (p < 128)
  | .frameBoundary _ o => decide (o < 146)
  | .fabLaneLock _ p => decide (p < 128)
  | .fabAlignDone _ p => decide (p < 128)
  | .fabLockLost _ p => decide (p < 128)
  | .ueLimitReached _ p => decide (p < 128)
  | .laserLost _ e _ => decide (e < 32)
  | .fabPortEnable _ p _ => decide (p < 128)
  | .fabPortRetrain _ p _ => decide (p < 128)
  | .swtRouteStop _ _ => true
  | .schBeaconInjWrite _ _ => true
  | .schBeaconPortWrite _ j _ => decide (j < 136)
  | .trnRetryHorizonWrite _ _ => true
  | .trnEthNetdelayWrite _ _ => true
  | .schSamplePeriod _ => true
  | .schSampleSelWrite _ _ => true
  | .blockMigrationDone _ _ => true
  | .stackLost _ k => decide (k < 20)
  | .ethFrameReceived _ e f => decide (e < 8) && f.wf
  | .pfcRefreshTimer _ e p => decide (e < 8) && decide (p < 8)
  | .pfcPauseExpiry _ e p => decide (e < 8) && decide (p < 8)
  | .rxHoldExpiry _ e => decide (e < 8)
  | .ethFrameTxDone _ e _ => decide (e < 8)
  | .ethLinkUp _ e => decide (e < 8)
  | .ethLinkDown _ e _ => decide (e < 8)
  | .ethPortEnable _ e _ => decide (e < 8)
  | .ethFilterCommit _ e f _ => decide (e < 8) && decide (f < 256)
  | .ethGateStop _ e _ => decide (e < 8)
  | .gateStopTakesHold _ e => decide (e < 8)
  | .ethGateRestart _ e _ => decide (e < 8)
  | .gateEntryStart _ e => decide (e < 8)
  | .ethTimerAdjWrite _ e _ => decide (e < 8)
  | .ethWakeMatch _ f => f.wf
  | .colData _ p aes => p.wf && aesWf aes
  | .colReady _ p aes => p.wf && aesWf aes
  | .colAbort _ p aes => p.wf && aesWf aes
  | .groupAbortEnd _ g => decide (g < 4096)
  | .invocationStart _ k => decide (k < 16384)
  | .invocationEnd _ k => decide (k < 16384)
  | .passBegin _ k _ hits => decide (k < 16384) && hitsWf hits
  | .passEnd _ k _ fault => decide (k < 16384) && decide (fault ≤ 2)
  | .lagLimitTimer _ k _ => decide (k < 16384)
  | .abortAfterTimer _ k _ => decide (k < 16384)
  | .lightPeriod _ => true
  | .keeperSilence _ n => decide (n < 2 ^ 14)
  | .noQuorumTimeout _ _ => true
  | .swWatchExpiry _ => true
  | .kprSwAliveWrite _ => true
  | .light _ _ => true
  | .lightAnswer _ _ => true
  | .pairLight _ _ => true
  | .join _ _ => true
  | .joinTimer _ => true
  | .relay _ _ => true
  | .assign _ _ => true
  | .report _ _ => true
  | .linkHoldExpiry _ p => decide (p < 128)
  | .suppressIntervalEnd _ _ => true
  | .probeWaitExpiry _ _ => true
  | .fog _ _ => true
  | .mapUpdate _ _ => true
  | .mirrorSync _ _ => true
  | .directory _ _ => true
  | .order _ _ => true
  | .orderDone _ _ => true
  | .manifest _ _ => true
  | .chunk _ _ => true
  | .distRequest _ _ => true
  | .distStatus _ _ => true
  | .distRequestTimer _ => true
  | .counterWrap _ n => decide (n < 128)
  | .cntStopArm _ at_ => decide (at_ < 2 ^ 48)
  | .cntStopReached _ => true
  | .cntRestart _ => true
  | .cntValueWrite _ n v => decide (n < 128) && decide (v < 2 ^ 32)
  | .cntCtrlWrite _ n _ => decide (n < 128)
  | .bwWindowEnd _ => true
  | .cntSampleHeadWrite _ head => decide (head < 2 ^ 32)
  | .lampFaultHeadWrite _ _ => true
  | .registerWrite _ a width w => decide (a.link < 17) && accessWf a.off width && (width == 64 || decide (w.toNat < 2 ^ 32))
  | .pcieLinkUp _ l mode width rate _ cfg => decide (l < 17) && (mode == 1 || mode == 2) && widthOk l width && decide (1 ≤ rate) && decide (rate ≤ 7)
    && decide (50000 ≤ cfg.timeout) && decide (cfg.timeout ≤ 50000000)
  | .linkL1Entry _ l => decide (l < 17)
  | .dieBelowWarnAt _ x => x.wf
  | .healthFlitTimer _ p => decide (p < 128)
  | .unitFailedInService _ kind _ _ => kind == 1 || kind == 6 || kind == 7

end Sys2Proof
end

