-- ==== Sys2Proof/Tests/Slice0.lean ====
section
/-!
SUPPORT. Tests: small states, for every clause of every obligation a state and operands that meet its hypotheses (wit_<obligation>_<clause>), the
well-formedness checks, and numbers the spec works out.
-/
namespace Sys2Proof.Tests
open Sys2Proof Sys2Proof.Machine
set_option Elab.async false
set_option linter.unusedVariables false

/-! ### Small states -/


/-- Partition 1: ACTIVE in generation 3, with a record that allows everything and two table pages. -/
def part1 : Part := ⟨.active, 3, ⟨0x0000001000000010, 0x0000001000000002, 0x0000001000001000, 0x0004000400040010, 0xFFFFFFFFFFFFFFFF, 0xFFFFFFFF00000016, 0, 0⟩, false, 2, 0, []⟩

/-- A link in service, with 64 VFs enabled. -/
def linkUp : Link := { Link.down with up := true, mode := 1, width := 16, rate := 6, numVfs := 63 }

/-- A ring of 64 slots on the host link. -/
def dring0 (a : Nat) : DRing := { DRing.none with loc := ⟨0, 1, a⟩ }
def cring0 (part a : Nat) : Ring := { Ring.none with state := .active, part := part, loc := ⟨0, part, a⟩ }

/-- Queue pair 10 of partition 1: completions to ring 7, doorbell 4, send and receive ring. -/
def qp10 : Qp :=
  { Qp.none with
    state := .active, part := 1, schQueue := 4, fmt := 1, qkey := 9, maxOut := 64, sqRing := 7, rqRing := 7
    sq := dring0 0x10000, rq := some (dring0 0x20000), doorbell := 4 }

/-- An adapter in service: every domain ON, 20 stacks serving, the host link and accelerator port 0 up, partitions 0 and 1, the admin queues of
partition 1 and of the device, queue pair 10, ring 7 with doorbell 5; node 5 with node 6 in its map and, on a ring of 16, in its route tables. Partition 1's addresses below
2^44 are host memory, the next 2^44 lie behind accelerator port 0, the next in its Gallery, and the next at node 6. -/
def base : State :=
  { State.reset with
    now := 1000
    chip := ⟨0xB0, 1, 0xFFFFFFFF3FFFFFFF⟩
    regs := [(RegName.SWT_TOPO.ctorIdx, [(0, word (15 * 2 ^ 24))]), (RegName.SWT_DIR_LO.ctorIdx, [(0, word (2 ^ 12))]), (RegName.LAMP_STATUS.ctorIdx, [(0, 6)])]
    doms := (List.range 84).map (fun d => (d, ⟨.on, none, 0, 0, false, 0, 0⟩))
    pool := { State.reset.pool with
      stackTbl := (List.range 20).map (fun k => (k, ⟨.serving, 0, 0, 0⟩))
      gmap := [(0, ⟨true, .gallery, 1, false, 0, 2, 5, 0⟩)]
      blks := [(physBlk 2 5, ⟨.gallery, .gallery 0⟩)] }
    io := { State.reset.io with links := [(0, linkUp), (1, linkUp)] }
    parts := [(0, { part1 with gen := 0, pages := 0 }), (1, part1)]
    xl := { State.reset.xl with tables := [(1, [(0, ⟨0x2E02000000000000, 0⟩), (1, ⟨0x2E00000000000000, 0⟩), (2, ⟨0x2E01000000000000, 0⟩),
      (3, ⟨0x3E00000000000000, 0x0008000500000006⟩)])] }
    qm := { State.reset.qm with
      qps := [(10, qp10)]
      rings := [(7, { cring0 1 0x30000 with doorbell := 5 }), (65537, cring0 1 0x40000), (65600, cring0 0 0x50000)]
      admqs := [(1, ⟨.active, dring0 0x60000⟩), (64, ⟨.active, dring0 0x70000⟩)] }
    node := some 5
    dmap := [(5, ⟨1, false, false, 0, 2, 12, 0, 0, 0⟩), (6, ⟨1, false, false, 0, 2, 12, 0, 0, 0⟩)] }

/-- An acceptance record of a queue of partition 1, nothing of it done. -/
def rec0 (queue : Nat) (d : Desc) : Rec :=
  { queue := queue, rq := false, idx := 0, part := 1, gen := 3, desc := d, phase := .accepted, src := [], dst := [], xtra := [], ranges := [], msgs := []
    started := false, left := 0, localLeft := 0, placed := 0, status := 0, reason := 0, data := 0, node := 0, srcQpn := 0, cover := [], failed := 0
    links := [], aux := [], buf := [], source := 0, at0 := 0, at1 := 0, at2 := 0, retx := 0, sampled := false, localBad := false, bytes := 0 }

/-- An admin command of partition 1 about itself: opcode and words 2 to 5. -/
def adm (op w2 w3 w4 w5 : Nat) : Rec := rec0 65537 ⟨word (op * 2 ^ 24 + 1), 7, word w2, word w3, word w4, word w5, 0, 0⟩


theorem wit_StepRunsFrontCommand_2 : ∃ (s : State),
    s.pending = [] ∧
    (∀ k, (s.stack k).state ≠ .evacuating) :=
  ⟨State.reset,
   by decide, by intro k; exact (by decide : StackState.absent ≠ StackState.evacuating)⟩

theorem wit_DoorbellsSetIndices_1 : ∃ (s : State) (t : Nat) (l : Nat) (p : Nat) (n : Nat) (q : Nat) (w : Word) (d : DRing),
    s.exposed l p = true ∧
    (s.part p).state = .active ∧
    s.dbOwner p n = .queue q ∧
    s.dring q (bit w 63) = some d ∧
    idxDiff (bits w 0 32) d.fetch ≤ 2 ^ d.log2 :=
  ⟨base, 1000, 0, 1, 4, 10, word 0x40, dring0 0x10000,
   by decide⟩

theorem wit_DoorbellsSetIndices_2 : ∃ (s : State) (t : Nat) (pi : Nat),
    s.serving = true ∧
    (s.admq 64).state ≠ .free ∧
    pi < 2 ^ 32 ∧
    idxDiff pi (s.admq 64).sq.fetch ≤ 2 ^ (s.admq 64).sq.log2 :=
  ⟨base, 1000, 64,
   by decide⟩

/-- Ring 7 with three entries written and one released. -/
def ringBusy : State := base.setRing 7 { cring0 1 0x30000 with doorbell := 5, head := 1, tail := 3 }

theorem wit_DoorbellsSetIndices_3 : ∃ (s : State) (t : Nat) (l : Nat) (p : Nat) (n : Nat) (r : Nat) (w : Word),
    s.exposed l p = true ∧
    (s.part p).state = .active ∧
    s.dbOwner p n = .ring r ∧
    idxDiff (bits w 0 32) (s.ring r).head ≤ idxDiff (s.ring r).tail (s.ring r).head :=
  ⟨ringBusy, 1000, 0, 1, 5, 7, 3,
   by decide⟩

theorem wit_DoorbellsSetIndices_4 : ∃ (s : State) (t : Nat) (w : Word),
    s.serving = true ∧
    (s.ring devQueue).state ≠ .free ∧
    idxDiff (bits w 0 32) (s.ring devQueue).head ≤ idxDiff (s.ring devQueue).tail (s.ring devQueue).head :=
  ⟨base.setRing devQueue { cring0 0 0x50000 with tail := 2 }, 1000, 2,
   by decide⟩

theorem wit_DoorbellsSetIndices_5 : ∃ (s : State) (t : Nat) (l : Nat) (p : Nat) (n : Nat) (q : Nat) (w : Word) (d : DRing),
    s.exposed l p = true ∧
    (s.part p).state = .active ∧
    s.dbOwner p n = .queue q ∧
    s.dring q (bit w 63) = some d ∧
    2 ^ d.log2 < idxDiff (bits w 0 32) d.fetch :=
  ⟨base, 1000, 0, 1, 4, 10, word 0x41, dring0 0x10000,
   by decide⟩

theorem wit_DoorbellsSetIndices_6 : ∃ (s : State) (t : Nat) (l : Nat) (p : Nat) (n : Nat) (r : Nat) (w : Word),
    s.exposed l p = true ∧
    (s.part p).state = .active ∧
    s.dbOwner p n = .ring r ∧
    idxDiff (s.ring r).tail (s.ring r).head < idxDiff (bits w 0 32) (s.ring r).head :=
  ⟨ringBusy, 1000, 0, 1, 5, 7, 4,
   by decide⟩

theorem wit_DoorbellsSetIndices_7 : ∃ (s : State) (t : Nat) (l : Nat) (p : Nat) (n : Nat) (w : Word),
    (s.dbOwner p n = .nobody ∨ (∃ q, s.dbOwner p n = .queue q ∧ s.dring q (bit w 63) = none)) :=
  ⟨base, 1000, 0, 1, 77, 0,
   .inl (by decide)⟩

theorem wit_DoorbellsSetIndices_8 : ∃ (s : State) (t : Nat) (l : Nat) (p : Nat) (n : Nat) (w : Word),
    s.dbOwner p n = .nobody :=
  ⟨base, 1000, 0, 1, 77, 0,
   by decide⟩

theorem wit_AdminQueuesEnable_1 : ∃ (s : State) (t : Nat) (w : Word),
    (s.stage = 6 ∨ s.stage = 7) ∧
    bit (s.reg .QMG_ADM_CFG) 31 = false ∧
    bit w 31 = true :=
  ⟨base, 1000, word 0x80000000,
   by decide⟩

theorem wit_AdminQueuesEnable_2 : ∃ (s : State) (t : Nat) (p : Nat) (w : Word) (e1 : Extent) (e2 : Extent),
    s.serving = true ∧
    (s.part p).lives = true ∧
    bit (s.reg .QMG_PADM_CFG p) 31 = false ∧
    bit w 31 = true ∧
    6 ≤ bits w 5 5 ∧
    bits w 5 5 ≤ 20 ∧
    6 ≤ bits w 10 5 ∧
    bits w 10 5 ≤ 20 ∧
    s.xring p (s.reg .QMG_PADM_SQ_BASE p).toNat (2 ^ bits w 5 5 * 64) needR = (Stat.SUCCESS, 0, 0, e1) ∧
    s.xring p (s.reg .QMG_PADM_CQ_BASE p).toNat (2 ^ bits w 10 5 * 32) needW = (Stat.SUCCESS, 0, 0, e2) :=
  ⟨base, 1000, 1, word 0x800018C0, ⟨none, 0x2000000000000, 4096, 0, 0, false⟩, ⟨none, 0x2000000000000, 2048, 0, 0, false⟩,
   by decide⟩

def slotOf (d : DRing) : State := base.setQp 10 { qp10 with sq := d }

theorem wit_SlotsAreFetched_1 : ∃ (s : State) (t : Nat) (q : Nat) (rq : Bool) (d : DRing),
    s.dring q rq = some d ∧
    (s.at t).refetchDue q rq d = true ∧
    s.ready [linkDom d.loc.link] = true :=
  ⟨slotOf { dring0 0x10000 with busy := true, stale := 8, pi := 3, retAt := 900 }, 13700, 10, false, { dring0 0x10000 with busy := true, stale := 8, pi := 3, retAt := 900 },
   by decide⟩

theorem wit_SlotsAreFetched_2 : ∃ (s : State) (t : Nat) (q : Nat) (rq : Bool) (d : DRing),
    s.dring q rq = some d ∧
    (s.at t).mayFetch q rq = true ∧
    s.ready [linkDom d.loc.link] = true :=
  ⟨slotOf { dring0 0x10000 with pi := 1 }, 1000, 10, false, { dring0 0x10000 with pi := 1 },
   by decide⟩

theorem wit_SlotsAreFetched_3 : ∃ (s : State) (t : Nat) (q : Nat) (rq : Bool) (d : DRing),
    s.dring q rq = some d ∧
    d.retry = true ∧
    d.retAt + 100000 ≤ max s.now t :=
  ⟨slotOf { dring0 0x10000 with retry := true, pi := 1, retAt := 900 }, 100900, 10, false, { dring0 0x10000 with retry := true, pi := 1, retAt := 900 },
   by decide⟩

/-- The base state with an admin command accepted as record 1. -/
def withAdm (x : Rec) : State := base.putRec 1 x

def qpCreateRec : Rec := adm Op.QP_CREATE 0x80000 0 (1 * 2 ^ 60 + 4 * 2 ^ 48 + 6 * 2 ^ 43 + 64) (7 * 2 ^ 48 + 9)

theorem wit_QueueObjectsCreated_1 : ∃ (s : State) (t : Nat) (r : Nat) (x : Rec) (e1 : Extent),
    s.begins r Op.QP_CREATE x ∧
    s.takesEntry x x.links ∧
    (s.fld F.QMG_CAPS_FMT).testBit (bits x.desc.w4 60 4) = true ∧
    s.ringFor x.desc.part (bits x.desc.w5 48 16) = Stat.SUCCESS ∧
    bits x.desc.w4 38 5 = 0 ∧
    bit x.desc.w4 54 = false ∧
    2 ≤ bits x.desc.w4 48 6 ∧
    (s.part x.desc.part).queues.testBit (bits x.desc.w4 48 6) = true ∧
    s.qpsHeld x.desc.part < (s.part x.desc.part).qps ∧
    (∃ n, n < s.nQps ∧ (s.qp n).state = .free ∧ (bits x.desc.w4 36 2 = 0 ∨ n % 2 = bits x.desc.w4 36 2 - 2)) ∧
    s.xring x.desc.part x.desc.w2.toNat (2 ^ bits x.desc.w4 43 5 * 64) needR = (Stat.SUCCESS, 0, 0, e1) :=
  ⟨withAdm qpCreateRec, 1000, 1, qpCreateRec, ⟨none, 0x2000000080000, 4096, 0, 0, false⟩,
   by unfold State.begins; decide, by unfold State.takesEntry; decide, by decide, by decide, by decide, by decide, by decide, by decide, by decide, ⟨0, by decide⟩, by decide⟩

def ringCreateRec : Rec := adm Op.RING_CREATE 0x80000 (6 * 2 ^ 59 + 3 * 2 ^ 48) 0 0

theorem wit_QueueObjectsCreated_2 : ∃ (s : State) (t : Nat) (r : Nat) (x : Rec) (e1 : Extent),
    s.begins r Op.RING_CREATE x ∧
    s.takesEntry x x.links ∧
    s.ringsHeld x.desc.part < (s.part x.desc.part).rings ∧
    (∃ n, n < s.nRings ∧ (s.ring n).state = .free ∧ (bits x.desc.w3 45 2 = 0 ∨ n % 2 = bits x.desc.w3 45 2 - 2)) ∧
    s.xring x.desc.part x.desc.w2.toNat (2 ^ bits x.desc.w3 59 5 * 32) needW = (Stat.SUCCESS, 0, 0, e1) :=
  ⟨withAdm ringCreateRec, 1000, 1, ringCreateRec, ⟨none, 0x2000000080000, 2048, 0, 0, false⟩,
   by unfold State.begins; decide, by unfold State.takesEntry; decide, by decide, ⟨0, by decide⟩, by decide⟩

theorem wit_QueueObjectsDestroyed_1 : ∃ (s : State) (t : Nat) (r : Nat) (x : Rec),
    s.begins r Op.QP_DESTROY x ∧
    s.qpFor x = Stat.SUCCESS ∧
    (s.qp (bits x.desc.w2 0 16)).state ≠ .destroying ∧
    (s.qp (bits x.desc.w2 0 16)).state ≠ .halted :=
  ⟨withAdm (adm Op.QP_DESTROY 10 0 0 0), 1000, 1, adm Op.QP_DESTROY 10 0 0 0,
   by unfold State.begins; decide⟩

theorem wit_QueueObjectsDestroyed_2 : ∃ (s : State) (t : Nat) (n : Nat) (r : Nat) (x : Rec),
    (s.qp n).state = .destroying ∧
    s.qpDrained n = true ∧
    (s.qp n).destroyer = some r ∧
    s.getRec r = some x ∧
    isAdm x.queue = true ∧
    s.takesEntry x x.links :=
  ⟨(withAdm (adm Op.QP_DESTROY 10 0 0 0)).setQp 10 { qp10 with state := .destroying, destroyer := some 1 }, 1000, 10, 1, adm Op.QP_DESTROY 10 0 0 0,
   by unfold State.takesEntry; decide⟩

theorem wit_QueueObjectsDestroyed_3 : ∃ (s : State) (t : Nat) (r : Nat) (x : Rec),
    s.begins r Op.RING_DESTROY x ∧
    s.takesEntry x x.links ∧
    s.ringCmd x = Stat.SUCCESS :=
  ⟨withAdm (adm Op.RING_DESTROY 7 0 0 0), 1000, 1, adm Op.RING_DESTROY 7 0 0 0,
   by unfold State.begins State.takesEntry; decide⟩

theorem wit_QueueObjectsRearmed_1 : ∃ (s : State) (t : Nat) (r : Nat) (x : Rec) (e1 : Extent),
    s.begins r Op.QP_REARM x ∧
    s.takesEntry x x.links ∧
    s.qpFor x = Stat.SUCCESS ∧
    ((s.qp (bits x.desc.w2 0 16)).state = .error ∨ (s.qp (bits x.desc.w2 0 16)).state = .hostLost) ∧
    (s.qp (bits x.desc.w2 0 16)).rq = none ∧
    s.xring (s.qp (bits x.desc.w2 0 16)).part x.desc.w3.toNat (2 ^ (s.qp (bits x.desc.w2 0 16)).sq.log2 * 64) needR = (Stat.SUCCESS, 0, 0, e1) :=
  ⟨(withAdm (adm Op.QP_REARM 10 0x80000 0 0)).setQp 10 { qp10 with state := .error, rq := none }, 1000, 1, adm Op.QP_REARM 10 0x80000 0 0, ⟨none, 0x2000000080000, 4096, 0, 0, false⟩,
   by unfold State.begins State.takesEntry; decide⟩

theorem wit_QueueObjectsRearmed_2 : ∃ (s : State) (t : Nat) (r : Nat) (x : Rec),
    s.begins r Op.QP_REARM x ∧
    s.takesEntry x x.links ∧
    s.qpFor x = Stat.SUCCESS ∧
    (s.qp (bits x.desc.w2 0 16)).state ≠ .error ∧
    (s.qp (bits x.desc.w2 0 16)).state ≠ .hostLost :=
  ⟨withAdm (adm Op.QP_REARM 10 0x80000 0 0), 1000, 1, adm Op.QP_REARM 10 0x80000 0 0,
   by unfold State.begins State.takesEntry; decide⟩

theorem wit_QueueObjectsRearmed_3 : ∃ (s : State) (t : Nat) (r : Nat) (x : Rec) (e1 : Extent),
    s.begins r Op.RING_REARM x ∧
    s.takesEntry x x.links ∧
    s.ringCmd x = Stat.SUCCESS ∧
    (s.ring (bits x.desc.w2 0 16)).state = .hostLost ∧
    s.xring (s.ring (bits x.desc.w2 0 16)).part x.desc.w3.toNat (2 ^ (s.ring (bits x.desc.w2 0 16)).log2 * 32) needW = (Stat.SUCCESS, 0, 0, e1) :=
  ⟨(withAdm (adm Op.RING_REARM 7 0x80000 0 0)).setRing 7 { cring0 1 0x30000 with state := .hostLost }, 1000, 1, adm Op.RING_REARM 7 0x80000 0 0, ⟨none, 0x2000000080000, 2048, 0, 0, false⟩,
   by unfold State.begins State.takesEntry; decide⟩

theorem wit_QueueObjectsRearmed_4 : ∃ (s : State) (t : Nat) (r : Nat) (x : Rec),
    s.begins r Op.QP_QUERY x ∧
    s.takesEntry x x.links ∧
    ((s.qp (bits x.desc.w2 0 16)).state = .free ∨ (s.qp (bits x.desc.w2 0 16)).part = x.desc.part) :=
  ⟨withAdm (adm Op.QP_QUERY 10 0 0 0), 1000, 1, adm Op.QP_QUERY 10 0 0 0,
   by unfold State.begins State.takesEntry; decide⟩

theorem wit_QueueObjectsRearmed_5 : ∃ (s : State) (t : Nat) (r : Nat) (x : Rec),
    s.begins r Op.RING_QUERY x ∧
    s.takesEntry x x.links ∧
    ((s.ring (bits x.desc.w2 0 16)).state = .free ∨ (s.ring (bits x.desc.w2 0 16)).part = x.desc.part) :=
  ⟨withAdm (adm Op.RING_QUERY 7 0 0 0), 1000, 1, adm Op.RING_QUERY 7 0 0 0,
   by unfold State.begins State.takesEntry; decide⟩

theorem wit_TableCommandsMovePages_1 : ∃ (s : State) (t : Nat) (r : Nat) (x : Rec),
    s.begins r Op.TABLE_SYNC x ∧
    s.runBad x.desc = none ∧
    (s.link 0).lost = false :=
  ⟨withAdm (adm Op.TABLE_SYNC 1 1 0 0), 1000, 1, adm Op.TABLE_SYNC 1 1 0 0,
   by unfold State.begins; decide⟩

theorem wit_TableCommandsMovePages_2 : ∃ (s : State) (t : Nat) (r : Nat) (x : Rec),
    s.begins r Op.INVALIDATE_DRAIN x ∧
    s.runBad x.desc = none ∧
    (s.link 0).lost = false :=
  ⟨withAdm (adm Op.INVALIDATE_DRAIN 0 2 0 0), 1000, 1, adm Op.INVALIDATE_DRAIN 0 2 0 0,
   by unfold State.begins; decide⟩

theorem wit_TableCommandsMovePages_3 : ∃ (s : State) (t : Nat) (r : Nat) (x : Rec),
    s.begins r Op.TABLE_READBACK x ∧
    s.takesEntry x [0] ∧
    s.runBad x.desc = none ∧
    (s.link 0).lost = false :=
  ⟨withAdm (adm Op.TABLE_READBACK 0 2 0 0), 1000, 1, adm Op.TABLE_READBACK 0 2 0 0,
   by unfold State.begins State.takesEntry; decide⟩

/-- A drain that has committed and covers nothing more. -/
def drainRec : Rec := { adm Op.INVALIDATE_DRAIN 0 2 0 0 with phase := .waiting, aux := [1] }

theorem wit_TableCommandsMovePages_4 : ∃ (s : State) (t : Nat) (r : Nat) (x : Rec),
    s.getRec r = some x ∧
    isAdm x.queue = true ∧
    x.drainOver = true ∧
    s.takesEntry x x.links :=
  ⟨withAdm drainRec, 1000, 1, drainRec,
   by unfold State.takesEntry; decide⟩

def registerRec : Rec := adm Op.REGION_REGISTER 0x80000 8192 7 0x1234

theorem wit_RegionRegisterOpens_1 : ∃ (s : State) (t : Nat) (r : Nat) (i : Nat) (x : Rec) (e : Extent),
    s.begins r Op.REGION_REGISTER x ∧
    s.takesEntry x (linksOf x.xtra) ∧
    (∀ y ∈ x.xtra, y.node = none ∧ winOf y.addr ≠ 1 ∧ winOf y.addr ≠ 3) ∧
    s.xlate x.desc.part [⟨x.desc.w2.toNat, x.desc.w3.toNat, 1, 0, ⟨bit x.desc.w4 0, bit x.desc.w4 1, bit x.desc.w4 2, false⟩⟩] = .ok [[e]] ∧
    e.node = none ∧
    e.xts = bit x.desc.w4 3 ∧
    s.regionsHeld x.desc.part < (s.part x.desc.part).regions ∧
    s.regionTake e.addr = some i ∧
    (s.region i).state = .closed :=
  ⟨withAdm registerRec, 1000, 1, 0, registerRec, ⟨none, 0x2000000080000, 8192, 0, 0, false⟩,
   by unfold State.begins State.takesEntry; decide⟩

/-- Region 3 of partition 1, OPEN in generation 5 over 8 KiB of host memory. -/
def rgn3 : Region := { Region.fresh with base := 0x2000000080000, pages := 2, r := true, w := true, a := true, owner := 1, state := .open, gen := 5 }
def withRegion (x : Region) (y : Rec) : State := (withAdm y).setRegion 3 x
def key3 : Nat := keyOf 5 3

theorem wit_RevokeCloses_1 : ∃ (s : State) (t : Nat) (r : Nat) (x : Rec),
    s.begins r Op.REVOKE x ∧
    (s.region (keyIdx (bits x.desc.w2 0 32))).state = .open ∧
    keyGen (bits x.desc.w2 0 32) = (s.region (keyIdx (bits x.desc.w2 0 32))).gen ∧
    (devQueue ≤ x.queue ∨ (s.region (keyIdx (bits x.desc.w2 0 32))).owner = x.part) :=
  ⟨withRegion { rgn3 with gen := 8191 } (adm Op.REVOKE (keyOf 8191 3) 0 0 0), 1000, 1, adm Op.REVOKE (keyOf 8191 3) 0 0 0,
   by unfold State.begins; decide⟩

theorem wit_RevokeCloses_2 : ∃ (s : State) (t : Nat) (r : Nat) (x : Rec),
    s.begins r Op.REVOKE x ∧
    s.takesEntry x x.links ∧
    (s.region (keyIdx (bits x.desc.w2 0 32))).reaches (keyGen (bits x.desc.w2 0 32)) = false :=
  ⟨withRegion rgn3 (adm Op.REVOKE (keyOf 4 3) 0 0 0), 1000, 1, adm Op.REVOKE (keyOf 4 3) 0 0 0,
   by unfold State.begins State.takesEntry; decide⟩

def revokeRec : Rec := { adm Op.REVOKE key3 0 0 0 with phase := .waiting }

theorem wit_RevokeCloses_3 : ∃ (s : State) (t : Nat) (r : Nat) (x : Rec),
    s.getRec r = some x ∧
    isAdm x.queue = true ∧
    x.desc.op = Op.REVOKE ∧
    x.phase = .waiting ∧
    s.takesEntry x x.links ∧
    (s.region (keyIdx (bits x.desc.w2 0 32))).reaches (keyGen (bits x.desc.w2 0 32)) = false :=
  ⟨withRegion { rgn3 with state := .closed, gen := 6 } revokeRec, 1000, 1, revokeRec,
   by unfold State.takesEntry; decide⟩

theorem wit_RegionsAnswer_1 : ∃ (s : State) (t : Nat) (r : Nat) (x : Rec),
    s.begins r Op.REVOKE x ∧
    s.takesEntry x x.links ∧
    x.queue < devQueue ∧
    (s.region (keyIdx (bits x.desc.w2 0 32))).reaches (keyGen (bits x.desc.w2 0 32)) = true ∧
    (s.region (keyIdx (bits x.desc.w2 0 32))).owner ≠ x.part :=
  ⟨withRegion { rgn3 with owner := 2 } (adm Op.REVOKE key3 0 0 0), 1000, 1, adm Op.REVOKE key3 0 0 0,
   by unfold State.begins State.takesEntry; decide⟩

theorem wit_RegionsAnswer_2 : ∃ (s : State) (t : Nat) (r : Nat) (x : Rec),
    s.begins r Op.REGION_QUERY x ∧
    s.takesEntry x x.links ∧
    x.queue < devQueue ∧
    (s.region (bits x.desc.w2 0 19)).owner ≠ x.part :=
  ⟨withRegion { rgn3 with owner := 2 } (adm Op.REGION_QUERY 3 0 0 0), 1000, 1, adm Op.REGION_QUERY 3 0 0 0,
   by unfold State.begins State.takesEntry; decide⟩

/-- An admin command with a RESULT area of n bytes in host memory. -/
def resultRec (op w2 w3 n : Nat) : Rec := { adm op w2 w3 0 0 with xtra := [⟨none, 0x2000000090000, n, 0, 0, false⟩] }

theorem wit_RegionsAnswer_3 : ∃ (s : State) (t : Nat) (r : Nat) (x : Rec) (a : Extent),
    s.begins r Op.REGION_QUERY x ∧
    s.takesEntry x (linksOf x.xtra) ∧
    x.resultTo s a 40 ∧
    (devQueue ≤ x.queue ∨ (s.region (bits x.desc.w2 0 19)).owner = x.part) :=
  ⟨withRegion rgn3 (resultRec Op.REGION_QUERY 3 0 40), 1000, 1, resultRec Op.REGION_QUERY 3 0 40, ⟨none, 0x2000000090000, 40, 0, 0, false⟩,
   by unfold State.begins State.takesEntry Rec.resultTo; decide⟩

theorem wit_RegionsAnswer_4 : ∃ (s : State) (t : Nat) (r : Nat) (x : Rec),
    s.begins r Op.REGION_RECLAIM x ∧
    s.takesEntry x x.links ∧
    Tbl.rising s.xl.rgn = true :=
  ⟨withRegion { rgn3 with state := .retired, gen := 8191 } (adm Op.REGION_RECLAIM 1 0 0 0), 1000, 1, adm Op.REGION_RECLAIM 1 0 0 0,
   by unfold State.begins State.takesEntry; decide⟩

theorem wit_GalleryAllocGives_1 : ∃ (s : State) (t : Nat) (r : Nat) (x : Rec),
    s.begins r Op.GALLERY_ALLOC x ∧
    s.takesEntry x x.links ∧
    bit x.desc.w4 0 = false ∧
    1 ≤ bits x.desc.w2 0 22 ∧
    bits x.desc.w2 0 22 ≤ s.freeOn ((maskBits (bits x.desc.w3 0 20) 20).filter (fun k => decide (k < s.nStacks))) ∧
    s.blocksHeld x.desc.part + bits x.desc.w2 0 22 ≤ (s.part x.desc.part).blocks ∧
    (∃ b, b + bits x.desc.w2 0 22 ≤ 2097152 ∧ ∀ i < bits x.desc.w2 0 22, (s.gblk (b + i)).alloc = false) :=
  ⟨withAdm (adm Op.GALLERY_ALLOC 3 0xFFFFF 0 0), 1000, 1, adm Op.GALLERY_ALLOC 3 0xFFFFF 0 0,
   by unfold State.begins; decide +kernel, by unfold State.takesEntry; decide +kernel, by decide +kernel, by decide +kernel, by decide +kernel, by decide +kernel, ⟨1, by decide⟩⟩

theorem wit_GalleryAllocGives_2 : ∃ (s : State) (t : Nat) (r : Nat) (x : Rec),
    s.begins r Op.GALLERY_ALLOC x ∧
    s.takesEntry x x.links ∧
    bit x.desc.w4 0 = false ∧
    bit x.desc.w4 1 = false ∧
    s.freeOn ((maskBits (bits x.desc.w3 0 20) 20).filter (fun k => decide (k < s.nStacks))) < bits x.desc.w2 0 22 :=
  ⟨withAdm (adm Op.GALLERY_ALLOC 65536 4 0 0), 1000, 1, adm Op.GALLERY_ALLOC 65536 4 0 0,
   by unfold State.begins State.takesEntry; decide +kernel⟩

theorem wit_GalleryFreeRuns_1 : ∃ (s : State) (t : Nat) (r : Nat) (x : Rec),
    s.begins r Op.GALLERY_FREE x ∧
    (∀ i ∈ List.range' (x.desc.w2.toNat / blkBytes) (bits x.desc.w3 0 22), i < 2097152 ∧ (s.gblk i).alloc = true ∧ (s.gblk i).state ≠ .freeing
      ∧ (s.gblk i).owner = x.desc.part) ∧
    s.xl.rgn.any (fun e => (e.2.state == .open || e.2.state == .closing)
      && Extent.inBlocks ⟨none, e.2.base, e.2.pages * 4096, 0, 0, false⟩ (x.desc.w2.toNat / blkBytes) (bits x.desc.w3 0 22)) = false :=
  ⟨withAdm (adm Op.GALLERY_FREE 0 1 0 0), 1000, 1, adm Op.GALLERY_FREE 0 1 0 0,
   by unfold State.begins; decide⟩

theorem wit_GalleryFreeRuns_2 : ∃ (s : State) (t : Nat) (r : Nat) (x : Rec),
    s.begins r Op.GALLERY_FREE x ∧
    s.takesEntry x x.links ∧
    (∃ i ∈ List.range' (x.desc.w2.toNat / blkBytes) (bits x.desc.w3 0 22), (s.gblk i).alloc = false ∨ (s.gblk i).state = .freeing
      ∨ (s.gblk i).owner ≠ x.desc.part) :=
  ⟨withAdm (adm Op.GALLERY_FREE 0 2 0 0), 1000, 1, adm Op.GALLERY_FREE 0 2 0 0,
   by unfold State.begins State.takesEntry; decide⟩

/-- Gallery block 0 being freed for record 1. -/
def freeing (scrub : Bool) : State :=
  let s := (withAdm { adm Op.GALLERY_FREE 0 1 0 0 with phase := .waiting }).setGblk 0 ⟨true, .freeing, 1, false, 0, 2, 5, 0⟩
  { s.setBlk (physBlk 2 5) ⟨.freeing, .gallery 0⟩ with pool := { (s.setBlk (physBlk 2 5) ⟨.freeing, .gallery 0⟩).pool with freeing := [(0, ⟨some 1, 1, 0, 1, scrub⟩)] } }

theorem wit_GalleryFreeRuns_3 : ∃ (s : State) (t : Nat) (first : Nat) (f : Freeing),
    Tbl.find s.pool.freeing first = some f ∧
    f.scrub = false ∧
    (∀ r x, f.recId = some r → s.getRec r = some x → x.cover = []) :=
  ⟨freeing false, 1000, 0, ⟨some 1, 1, 0, 1, false⟩,
   by decide, by decide, by intro r x h1 h2; cases h1; cases h2; rfl⟩

theorem wit_GalleryFreeRuns_4 : ∃ (s : State) (t : Nat) (first : Nat) (r : Nat) (f : Freeing) (x : Rec),
    Tbl.find s.pool.freeing first = some f ∧
    f.scrub = true ∧
    f.recId = some r ∧
    f.first < areaKey 0 ∧
    s.getRec r = some x ∧
    isAdm x.queue = true ∧
    s.takesEntry x x.links :=
  ⟨freeing true, 1000, 0, 1, ⟨some 1, 1, 0, 1, true⟩, { adm Op.GALLERY_FREE 0 1 0 0 with phase := .waiting },
   by unfold State.takesEntry; decide⟩

theorem wit_GalleryQueryAndBias_1 : ∃ (s : State) (t : Nat) (r : Nat) (x : Rec) (a : Extent),
    s.begins r Op.GALLERY_QUERY x ∧
    s.takesEntry x (linksOf x.xtra) ∧
    x.resultTo s a (72 * bits x.desc.w3 0 5) :=
  ⟨withAdm (resultRec Op.GALLERY_QUERY 0 1 72), 1000, 1, resultRec Op.GALLERY_QUERY 0 1 72, ⟨none, 0x2000000090000, 72, 0, 0, false⟩,
   by unfold State.begins State.takesEntry Rec.resultTo; decide⟩

/-- Accelerator port 0 in CXL mode. -/
def cxlUp (x : Rec) : State := (withAdm x).setLink 1 { linkUp with mode := 2 }

theorem wit_GalleryQueryAndBias_2 : ∃ (s : State) (t : Nat) (r : Nat) (x : Rec),
    s.begins r Op.BIAS_SET x ∧
    s.takesEntry x x.links ∧
    1 ≤ bits x.desc.w3 0 22 ∧
    (∀ p ∈ List.range' (x.desc.w2.toNat / 4096) (bits x.desc.w3 0 22), p / 512 < 2097152 ∧ (s.gblk (p / 512)).alloc = true
      ∧ (s.gblk (p / 512)).state = .gallery ∧ (s.gblk (p / 512)).owner = x.desc.part) ∧
    (∀ k < 16, (bits x.desc.w4 0 16).testBit k = true → (s.part x.desc.part).accAllow.testBit k = true ∧ (s.link (1 + k)).mode = 2) :=
  ⟨cxlUp (adm Op.BIAS_SET 511 1 0 0) |>.modRec 1 (fun _ => adm Op.BIAS_SET (511 * 4096) 1 0x10001 0), 1000, 1, adm Op.BIAS_SET (511 * 4096) 1 0x10001 0,
   by unfold State.begins State.takesEntry; decide⟩

theorem wit_GalleryQueryAndBias_3 : ∃ (s : State) (t : Nat) (r : Nat) (k : Nat) (x : Rec),
    s.begins r Op.BIAS_SET x ∧
    s.takesEntry x x.links ∧
    1 ≤ bits x.desc.w3 0 22 ∧
    (∀ p ∈ List.range' (x.desc.w2.toNat / 4096) (bits x.desc.w3 0 22), p / 512 < 2097152 ∧ (s.gblk (p / 512)).alloc = true
      ∧ (s.gblk (p / 512)).state = .gallery ∧ (s.gblk (p / 512)).owner = x.desc.part) ∧
    k < 16 ∧
    (bits x.desc.w4 0 16).testBit k = true ∧
    ((s.part x.desc.part).accAllow.testBit k = false ∨ (s.link (1 + k)).mode ≠ 2) :=
  ⟨withAdm (adm Op.BIAS_SET (511 * 4096) 1 0x18001 0), 1000, 1, 15, adm Op.BIAS_SET (511 * 4096) 1 0x18001 0,
   by unfold State.begins State.takesEntry; decide⟩

theorem wit_LinkLosses_1 : ∃ (s : State) (t : Nat) (l : Nat),
    (s.link l).up = true :=
  ⟨base.setRegion 3 { Region.fresh with base := 0x2000000080000, pages := 2, state := .open, busy := 1 }, 1000, 0,
   by decide⟩

theorem wit_LinkLosses_2 : ∃ (s : State) (t : Nat) (l : Nat),
    s.linkFitted l = true ∧
    (s.link l).up = true :=
  ⟨base.setRegion 3 { Region.fresh with base := 0x2000000080000, pages := 2, state := .open, busy := 1 }, 1000, 0,
   by decide⟩

/-- A write of four bytes that waits on the host link. -/
def placing0 (s : State) : State := { s with io := { s.io with places := [(9, ⟨[(0x2000000080000, [1, 2, 3, 4])], none, 1, .copy 1, false, none⟩)] } }

theorem wit_LinkLosses_3 : ∃ (s : State) (t : Nat) (l : Nat),
    (s.link l).up = true ∧
    s.putWaiting l = true ∧
    (s.link l).acceptAt + s.stallLimit l ≤ t :=
  ⟨placing0 base, 1000000000, 0,
   by decide⟩

theorem wit_LinkLosses_4 : ∃ (s : State) (t : Nat),
    s.serving = true :=
  ⟨base, 1000,
   by decide⟩

theorem wit_LinkLosses_5 : ∃ (s : State) (t : Nat) (n : Nat),
    s.serving = true ∧
    n < s.nAcc :=
  ⟨base, 1000, 15,
   by decide⟩

/-- The host link lost and up again, with what was behind it. -/
def hostLost : State :=
  ((base.setLink 0 { linkUp with lost := true }).setAdmq 64 ⟨.hostLost, { dring0 0x70000 with pi := 5, fetch := 5 }⟩).setRing devQueue { cring0 0 0x50000 with state := .hostLost, tail := 4 }

theorem wit_LinksComeBack_1 : ∃ (s : State) (t : Nat),
    s.serving = true ∧
    (s.link 0).lost = true ∧
    (s.admq 64).state = .hostLost :=
  ⟨hostLost, 1000,
   by decide⟩

theorem wit_LinksComeBack_2 : ∃ (s : State) (t : Nat),
    (s.link 0).lost = false :=
  ⟨base, 1000,
   by decide⟩

theorem wit_LinksComeBack_3 : ∃ (s : State) (t : Nat) (n : Nat),
    s.serving = true ∧
    n < s.nAcc :=
  ⟨base.setLink 16 { linkUp with lost := true, losses := 3 }, 1000, 15,
   by decide⟩

theorem wit_LinksComeBack_4 : ∃ (s : State) (t : Nat),
    s.serving = true ∧
    (s.link 0).disabled = true :=
  ⟨base.setLink 0 { Link.down with disabled := true }, 1000,
   by decide⟩

theorem wit_LinksComeBack_5 : ∃ (s : State) (t : Nat) (n : Nat),
    s.serving = true ∧
    n < s.nAcc ∧
    (s.link (1 + n)).disabled = true :=
  ⟨base.setLink 16 { Link.down with disabled := true }, 1000, 15,
   by decide⟩

theorem wit_LinksComeBack_6 : ∃ (s : State) (t : Nat) (l : Nat) (mode : Nat) (width : Nat) (rate : Nat) (vfs : Nat) (limit : Nat) (ok : Bool) (ecrc : Bool),
    s.linkFitted l = true ∧
    (s.link l).training = true ∧
    (s.link l).perst = false ∧
    (s.link l).disabled = false ∧
    (s.dom (linkDom l)).state = .on ∧
    widthOk l width = true :=
  ⟨base.setLink 16 { Link.down with training := true }, 1000, 16, 2, 8, 6, 63, 10000000, true, false,
   by decide⟩

theorem wit_LinksComeBack_7 : ∃ (s : State) (t : Nat) (l : Nat),
    s.linkFitted l = true ∧
    (s.link l).up = false ∧
    (s.link l).disabled = false ∧
    s.chip.variant ≠ 0 ∧
    s.fld F.LAMP_STATUS_STAGE ≠ 8 ∧
    ((s.dom (linkDom l)).state = .off ∨ (s.dom (linkDom l)).state = .retain) :=
  ⟨(base.setLink 16 { Link.down with perst := true }).setDom 83 Domain.off, 1000, 16,
   by decide⟩

/-- Page 1 of the Gallery SHARED with accelerator ports 0 and 1, direct access of port 0 on for partition 1. -/
def direct : State :=
  let s := (base.setLink 1 { linkUp with mode := 2 }).setReg .ACC_MEM_CFG 0 0 (setBits (setBits 0 F.ACC_MEM_CFG_ENABLE.lo 1 1) F.ACC_MEM_CFG_PART.lo F.ACC_MEM_CFG_PART.width 1)
  { s with pool := { s.pool with bias := [(1, ⟨true, 3⟩)] } }

theorem wit_DirectAccess_1 : ∃ (s : State) (t : Nat) (n : Nat) (a : Nat),
    s.directOk n a = false :=
  ⟨direct, 1000, 0, 0,
   by decide⟩

theorem wit_DirectAccess_2 : ∃ (s : State) (t : Nat) (n : Nat) (a : Nat) (bs : List Byte),
    s.directOk n a = false :=
  ⟨direct, 1000, 1, 4096, [1, 2],
   by decide⟩

theorem wit_DirectAccess_3 : ∃ (s : State) (t : Nat) (n : Nat) (a : Nat),
    s.directOk n a = true ∧
    s.ready (s.needsOf (2 ^ 48 + a) 1) = true ∧
    s.io.places = [] ∧
    s.pool.bad = [] ∧
    s.linePoisoned (a / 64 * 64) = false :=
  ⟨direct, 1000, 0, 8128,
   by decide⟩

theorem wit_DirectAccess_4 : ∃ (s : State) (t : Nat) (n : Nat) (a : Nat) (bs : List Byte),
    s.directOk n a = true ∧
    s.ready (s.needsOf (2 ^ 48 + a) 1) = true ∧
    s.io.places = [] ∧
    s.pool.bad = [] ∧
    a % 64 + bs.length ≤ 64 ∧
    bs ≠ [] ∧
    s.linePoisoned (a / 64 * 64) = false ∧
    (s.gblk (a / blkBytes)).xts = false :=
  ⟨direct, 1000, 0, 8128, List.replicate 64 9,
   by decide⟩

/-- A read outstanding on the host link under tag 1. -/
def reading (s : State) (w : ReadWhy) : State := { s with io := { s.io with reads := [(1, ⟨⟨0, 1, 0x10000⟩, 64, 900, w⟩)] } }
def busyRing : DRing := { dring0 0x10000 with busy := true, pi := 3 }
def slotBytes (seq : Nat) : List Byte := wordBytes (word (seq * 2 ^ 32 + Op.NOP * 2 ^ 24)) ++ List.replicate 56 0

theorem wit_AccessesComplete_1 : ∃ (s : State) (t : Nat) (tag : Nat) (q : Nat) (rq : Bool) (b : List Byte) (fs : List LinkFlit) (d : DRing) (x : LinkRead),
    Tbl.find s.io.reads tag = some x ∧
    x.why = .fetch q rq ∧
    s.dring q rq = some d ∧
    s.takes q = true ∧
    (Desc.ofBytes b).seq ≠ d.fetch % 2 ^ 32 ∧
    (foldFlits (s.link x.loc.link).ecrc fs).bytes = b ∧
    x.len ≤ b.length :=
  ⟨reading (slotOf { busyRing with stale := 8 }) (.fetch 10 false), 1000, 1, 10, false, slotBytes 7, [⟨slotBytes 7, true, true⟩], { busyRing with stale := 8 }, ⟨⟨0, 1, 0x10000⟩, 64, 900, .fetch 10 false⟩,
   by decide⟩

theorem wit_AccessesComplete_2 : ∃ (s : State) (t : Nat) (tag : Nat) (q : Nat) (rq : Bool) (b : List Byte) (d : DRing) (x : LinkRead),
    Tbl.find s.io.reads tag = some x ∧
    x.why = .fetch q rq ∧
    s.dring q rq = some d ∧
    s.takes q = true ∧
    (Desc.ofBytes b).seq = d.fetch % 2 ^ 32 :=
  ⟨reading (slotOf busyRing) (.fetch 10 false), 1000, 1, 10, false, slotBytes 0, busyRing, ⟨⟨0, 1, 0x10000⟩, 64, 900, .fetch 10 false⟩,
   by decide⟩

def entry0 : Entry := ⟨Ty.DONE, 0, 0, 3, 10, 7, 64, 0, false, 0, 0, some 1, 9⟩

theorem wit_AccessesComplete_3 : ∃ (s : State) (t : Nat) (tag : Nat) (n : Nat) (r : Nat) (fs : List LinkFlit) (x : LinkRead) (e : Entry),
    Tbl.find s.io.reads tag = some x ∧
    x.why = .piece n 0 ∧
    Tbl.find s.io.builds n = some ⟨[none], .entry r e, none⟩ ∧
    (s.takeRead tag).piecesLeft n = false ∧
    (s.ring r).state = .active ∧
    (s.ring r).held = [] ∧
    s.tailOpen (s.ring r) = true ∧
    (s.ring r).split = false ∧
    (∀ p, e.owner = some p → (s.part p).gen = e.gen) ∧
    (∀ k ∈ s.io.builds, k.1 ≠ n → k.2.why.entryOf ≠ some e.recId) ∧
    x.len ≤ (foldFlits (s.link x.loc.link).ecrc fs).bytes.length :=
  ⟨{ (reading base (.piece 5 0)) with io := { (reading base (.piece 5 0)).io with builds := [(5, ⟨[none], .entry 7 entry0, none⟩)] } }, 1000, 1, 5, 7, [⟨List.replicate 64 0, true, true⟩], ⟨⟨0, 1, 0x10000⟩, 64, 900, .piece 5 0⟩, entry0,
   by decide, by decide, by decide, by decide, by decide, by decide, by decide, by decide, by intro p h; cases h; decide, by decide⟩

theorem wit_AccessesComplete_4 : ∃ (s : State) (t : Nat) (tag : Nat) (q : Nat) (rq : Bool) (d : DRing) (x : LinkRead),
    Tbl.find s.io.reads tag = some x ∧
    x.why = .fetch q rq ∧
    s.dring q rq = some d ∧
    x.at0 + (s.link x.loc.link).timeout ≤ t ∧
    (s.link x.loc.link).fails < 2 :=
  ⟨reading (slotOf busyRing) (.fetch 10 false), 10000900, 1, 10, false, busyRing, ⟨⟨0, 1, 0x10000⟩, 64, 900, .fetch 10 false⟩,
   by decide⟩

/-- A placement of four bytes on its way to Gallery memory. -/
def placing (s : State) : State := { s with io := { s.io with places := [(9, ⟨[(2 ^ 48 + 60, [1, 2, 3, 4])], none, 1, .copy 1, false, none⟩)] } }

theorem wit_AccessesComplete_5 : ∃ (s : State) (t : Nat) (id : Nat) (r : Nat) (g : Nat) (p : Placement) (x : Rec) (bs : List Byte),
    Tbl.find s.io.places id = some p ∧
    p.landed = false ∧
    p.parts = [(2 ^ 48 + g, bs)] ∧
    g < 2 ^ 42 ∧
    g % 64 + bs.length ≤ 64 ∧
    bs ≠ [] ∧
    (s.gblk (g / blkBytes)).xts = false ∧
    p.why = .copy r ∧
    p.region = none ∧
    s.getRec r = some x ∧
    2 ≤ x.localLeft :=
  ⟨(base.putRec 1 { rec0 10 Desc.zero with localLeft := 2 }) |> placing, 1000, 9, 1, 60, ⟨[(2 ^ 48 + 60, [1, 2, 3, 4])], none, 1, .copy 1, false, none⟩, { rec0 10 Desc.zero with localLeft := 2 }, [1, 2, 3, 4],
   by decide⟩

/-- A descriptor of queue pair 10 of an opcode, with words 2 to 6. -/
def dsc (op w2 w3 w4 w5 w6 : Nat) : Desc := ⟨word (op * 2 ^ 24), 7, word w2, word w3, word w4, word w5, word w6, 0⟩
def withRec (x : Rec) : State := base.putRec 1 x

theorem wit_PlainDescriptors_1 : ∃ (s : State) (t : Nat) (r : Nat) (x : Rec),
    s.recReady r Op.NOP = some x ∧
    s.takesEntry x x.links :=
  ⟨withRec (rec0 10 (dsc Op.NOP 0 0 0 0 0)), 1000, 1, rec0 10 (dsc Op.NOP 0 0 0 0 0),
   by unfold State.takesEntry; decide⟩

theorem wit_PlainDescriptors_2 : ∃ (s : State) (t : Nat) (r : Nat) (x : Rec),
    s.recReady r Op.RECV = some x :=
  ⟨withRec { rec0 10 (dsc Op.RECV 0 0 64 0 0) with rq := true }, 1000, 1, { rec0 10 (dsc Op.RECV 0 0 64 0 0) with rq := true },
   by decide⟩

theorem wit_PlainDescriptors_3 : ∃ (s : State) (t : Nat) (r : Nat) (x : Rec),
    s.recReady r Op.PLACEMENT_FENCE = some x ∧
    x.cover = [] ∧
    (s.qp x.queue).state = .active ∧
    (∀ p ∈ s.qm.recs, p.1 ≠ r → p.2.desc.op ≠ Op.PLACEMENT_FENCE) ∧
    s.takesEntry x x.links :=
  ⟨withRec (rec0 10 (dsc Op.PLACEMENT_FENCE 6 0 0 0 0)), 1000, 1, rec0 10 (dsc Op.PLACEMENT_FENCE 6 0 0 0 0),
   by unfold State.takesEntry; decide⟩

/-- A WRITE of 4,096 B from host memory to node 6. -/
def writeRec : Rec := { rec0 10 (dsc Op.WRITE 0x80000 0x300000000000 4096 0 0) with src := [⟨none, 0x2000000080000, 4096, 0, 0, false⟩], dst := [⟨some 6, 0x2000000001000, 4096, 0x00080003, 5, false⟩] }

theorem wit_PlainDescriptors_4 : ∃ (s : State) (t : Nat) (r : Nat) (x : Rec),
    s.recReady r Op.PLACEMENT_FENCE = some x ∧
    x.cover ≠ [] ∧
    (∀ p ∈ s.qm.recs, p.1 ≠ r → p.2.desc.op ≠ Op.PLACEMENT_FENCE) :=
  ⟨(withRec { rec0 10 (dsc Op.PLACEMENT_FENCE (2 ^ 16) 0 0 0 0) with idx := 1, cover := [2] }).putRec 2 writeRec, 1000, 1, { rec0 10 (dsc Op.PLACEMENT_FENCE (2 ^ 16) 0 0 0 0) with idx := 1, cover := [2] },
   by decide⟩

theorem wit_PlainDescriptors_5 : ∃ (s : State) (q : Nat) (d : DRing) (desc : Desc),
    isAdm q = false ∧
    (s.qp q).state = .active ∧
    (s.qp q).ethPort = none ∧
    desc.op = Op.PLACEMENT_FENCE ∧
    descOk desc false false = true ∧
    (s.qp q).beacon = false ∧
    s.refusedBy s.io.nextId (Rec.new q false d.fetch (s.qp q).part (s.part (s.qp q).part).gen desc s.now d.since) = none ∧
    s.flag F.CNT_SAMPLE_CFG_ENABLE = false :=
  ⟨(slotOf (dring0 0x10000)).putRec 2 writeRec, 10, dring0 0x10000, dsc Op.PLACEMENT_FENCE (2 ^ 16) 0 0 0 0,
   by decide +kernel⟩

theorem wit_TransfersMakeMessages_1 : ∃ (s : State) (t : Nat) (r : Nat) (n : Nat) (x : Rec) (e : Extent),
    s.recReady r Op.WRITE = some x ∧
    x.dst = [e] ∧
    e.node = some n ∧
    (∀ y ∈ x.src, y.node = none) ∧
    s.flightFree n ∧
    s.routed n = true :=
  ⟨withRec writeRec, 1000, 1, 6, writeRec, ⟨some 6, 0x2000000001000, 4096, 0x00080003, 5, false⟩,
   by unfold State.flightFree; decide⟩

theorem wit_TransfersMakeMessages_2 : ∃ (s : State) (t : Nat) (r : Nat) (n : Nat) (x : Rec) (e : Extent),
    s.getRec r = some x ∧
    isAdm x.queue = false ∧
    x.desc.op = Op.WRITE ∧
    x.phase = .running ∧
    x.started = false ∧
    x.dst = [e] ∧
    e.node = some n ∧
    (∀ y ∈ x.src, y.node = none) ∧
    s.flightFree n ∧
    s.routed n = true :=
  ⟨withRec { writeRec with phase := .running }, 1000, 1, 6, { writeRec with phase := .running }, ⟨some 6, 0x2000000001000, 4096, 0x00080003, 5, false⟩,
   by unfold State.flightFree; decide⟩

/-- A SEND of 4,096 B to queue pair 20 of node 6. -/
def sendRec : Rec := { rec0 10 (dsc Op.SEND 0x80000 (9 * 2 ^ 32 + 20 * 2 ^ 16 + 6) 4096 0 77) with src := [⟨none, 0x2000000080000, 4096, 0, 0, false⟩] }

theorem wit_TransfersMakeMessages_3 : ∃ (s : State) (t : Nat) (r : Nat) (x : Rec),
    s.recReady r Op.SEND = some x ∧
    (∀ y ∈ x.src ++ x.dst, y.node = none) ∧
    s.flightFree x.desc.sendNode ∧
    s.routed x.desc.sendNode = true :=
  ⟨withRec sendRec, 1000, 1, sendRec,
   by unfold State.flightFree; decide⟩

/-- A READ of 4,096 B from node 6 to host memory. -/
def readRec : Rec := { rec0 10 (dsc Op.READ 0x300000000000 0x80000 4096 0 0) with src := [⟨some 6, 0x2000000001000, 4096, 0x00080003, 5, false⟩], dst := [⟨none, 0x2000000080000, 4096, 0, 0, false⟩] }

theorem wit_TransfersMakeMessages_4 : ∃ (s : State) (t : Nat) (r : Nat) (n : Nat) (x : Rec) (e : Extent),
    s.recReady r Op.READ = some x ∧
    x.src = [e] ∧
    e.node = some n ∧
    (∀ y ∈ x.dst, y.node = none) ∧
    1 ≤ e.len ∧
    e.addr % 65536 + e.len ≤ 65536 ∧
    s.flightFree n ∧
    s.routed n = true :=
  ⟨withRec readRec, 1000, 1, 6, readRec, ⟨some 6, 0x2000000001000, 4096, 0x00080003, 5, false⟩,
   by unfold State.flightFree; decide⟩

/-- A fetching ADD of 5 to the Gallery word at 56. -/
def atomicRec : Rec := { rec0 10 (dsc Op.ATOMIC 0x200000000038 5 0 0x11 0) with dst := [⟨none, 2 ^ 48 + 56, 8, 0, 0, false⟩] }

theorem wit_AtomicsExecute_1 : ∃ (s : State) (t : Nat) (r : Nat) (x : Rec) (e : Extent) (es : List Extent),
    s.recReady r Op.ATOMIC = some x ∧
    x.dst = e :: es ∧
    e.node = none ∧
    winOf e.addr = 1 ∧
    s.io.places = [] ∧
    ((s.at t).atomicRead (bitsN e.addr 0 48) x.desc.aop).firstPoison (bitsN e.addr 0 48) (aopSize x.desc.aop) = none ∧
    bitsN e.addr 0 48 % 64 + aopSize x.desc.aop ≤ 64 ∧
    (s.gblk (bitsN e.addr 0 48 / blkBytes)).xts = false ∧
    x.msgs = [] ∧
    x.status = Stat.SUCCESS ∧
    s.cnt.blocks = 0 ∧
    s.takesEntry x x.links :=
  ⟨withRec atomicRec, 1000, 1, atomicRec, ⟨none, 2 ^ 48 + 56, 8, 0, 0, false⟩, [],
   by unfold State.takesEntry; decide⟩

/-- A packet of a type and class from node 6 to node 5, incarnation 5 and key of region 3 in generation 5, of one packet. -/
def pkt (type cls w5 w6 w3 w4 : Nat) (pay : List Byte) : Packet :=
  Packet.seal { Packet.zero with
    w0 := hdr0 1 type cls false false 5 6 0, w1 := hdr1 1 5 (keyOf 5 3), w2 := hdr2 8 0 pay.length 12 true, w3 := word w3, w4 := word w4
    w5 := word w5, w6 := word w6, pay := pay }
/-- An answer: it carries neither incarnation nor key. -/
def ans (type w5 w6 w3 w4 : Nat) (pay : List Byte) : Packet := Packet.seal { pkt type 2 w5 w6 w3 w4 pay with w1 := hdr1 1 0 0 }
/-- Region 3 over Gallery block 0, and packet p here off the fabric. -/
def arrived (p : Packet) : State :=
  let s := base.setRegion 3 { Region.fresh with base := 2 ^ 48, pages := 512, r := true, w := true, a := true, owner := 1, state := .open, gen := 5 }
  { s with nv := { s.nv with inc := 5 }, sw := { s.sw with ejected := [(900, p)] } }
def addReq : Packet := pkt Pk.ATOMIC_REQ 0 0x11 5 0 (2 ^ 48 + 56) []

theorem wit_AtomicsExecute_2 : ∃ (s : State) (t : Nat) (i : Nat) (p : Packet),
    s.arrives p Pk.ATOMIC_REQ ∧
    s.node ≠ some p.src ∧
    s.rd (rdKey p) = none ∧
    s.regionCheck p.inc p.key p.addr (aopSize p.aop) false false true = .ok i ∧
    (s.part (s.region (keyIdx p.key)).owner).fabricEnc = false ∧
    p.addr % aopSize p.aop = 0 ∧
    s.ready (s.needsOf p.addr 8) = true ∧
    winOf p.addr = 1 ∧
    s.io.places = [] ∧
    s.firstPoison (bitsN p.addr 0 48) (aopSize p.aop) = none ∧
    (s.gblk (bitsN p.addr 0 48 / blkBytes)).xts = false ∧
    (s.biasOf (bitsN p.addr 0 48 / 4096)).shared = false ∧
    s.pool.bad = [] ∧
    (s.freeEntry (s.dieOf p.src) p.beacon).isSome = true :=
  ⟨arrived addReq, 1000, 3, addReq,
   ⟨⟨900, by decide, by decide +kernel⟩, by decide +kernel⟩, by decide +kernel⟩

/-- An ATOMIC's message to node 6, entered and not begun, with a flight entry for the node. -/
def atomicMsg : Msg := { Msg.make 1 10 1 3 .atomic 6 8 12 1 false with raddr := 2 ^ 48 + 56, key := keyOf 5 3, inc := 5, opx := 1, opnd := 5, npkts := 1, left := 1, unsent := 64 }
def flight0 : Flight := ⟨1, none, 0, 0, 0, 0⟩
def withMsg (m : Msg) : State := { base with tr := { base.tr with msgs := [(8, m)], flights := [(6, flight0)] } }

theorem wit_MessagesBegin_1 : ∃ (s : State) (t : Nat) (id : Nat) (m : Msg),
    s.msg id = some m ∧
    (s.at t).mayBegin m = true ∧
    m.kind = .atomic ∧
    m.npkts = 1 ∧
    m.acked = [] ∧
    m.bad = [] ∧
    m.d = none ∧
    m.beacon = false ∧
    s.overEth m.node = false ∧
    s.node ≠ some m.node :=
  ⟨withMsg atomicMsg, 1000, 8, atomicMsg,
   by decide⟩

def readMsg : Msg := { Msg.make 1 10 1 3 .read 6 65536 12 1 false with raddr := 2 ^ 48, key := keyOf 5 3, inc := 5, left := 1 }

theorem wit_MessagesBegin_2 : ∃ (s : State) (t : Nat) (id : Nat) (m : Msg),
    s.msg id = some m ∧
    m.kind = .read ∧
    m.begun = false ∧
    m.units = 0 ∧
    s.overEth m.node = false ∧
    m.unitsNeeded ≤ s.freeUnits (s.dieOf m.node) :=
  ⟨withMsg readMsg, 1000, 8, readMsg,
   by decide⟩

theorem wit_MessagesBegin_3 : ∃ (s : State) (t : Nat) (p : Nat) (id : Nat) (m : Msg),
    s.tr.msgs = [(id, m)] ∧
    m.part = p ∧
    m.kind = .atomic ∧
    m.npkts = 1 ∧
    m.acked = [] ∧
    m.bad = [] ∧
    m.d = none ∧
    m.beacon = false ∧
    s.overEth m.node = false ∧
    s.node ≠ some m.node ∧
    (s.at t).mayBegin m = true :=
  ⟨withMsg atomicMsg, 1000, 1, 8, atomicMsg,
   by decide⟩

theorem wit_MessagesBegin_4 : ∃ (s : State) (t : Nat) (q : Nat),
    (s.qp q).beacon = true ∧
    (s.at t).debt (s.qp q) = 0 ∧
    (s.at t).mayFetch q false = true ∧
    s.ready [linkDom (s.qp q).sq.loc.link] = true ∧
    isAdm q = false :=
  ⟨base.setQp 10 { qp10 with beacon := true, rate := 1, debt := 5, debtAt := 1000, sq := { dring0 0x10000 with pi := 1 } }, 6000, 10,
   by decide +kernel⟩

theorem wit_MessagesBegin_5 : ∃ (s : State) (t : Nat) (q : Nat) (k : SwPkt) (ks : List SwPkt),
    Tbl.get [] s.sw.pacer q = k :: ks ∧
    Tbl.get 0 s.sw.pacerAt q ≤ ((max s.now t : Nat) : Rat) ∧
    (k.len : Rat) ≤ (s.at t).injLevel ∧
    (∀ e ∈ s.tr.msgs, (s.at t).tooLate e.2 = false) :=
  ⟨{ base with sw := { base.sw with pacer := [(10, [SwPkt.ofPacket Packet.zero 0 900 64])] } }, 1000, 10, SwPkt.ofPacket Packet.zero 0 900 64, [],
   by decide +kernel⟩

/-- The same message begun, its one copy out since 1000, with an RTO of 20 us. -/
def atomicOut : Msg := { atomicMsg with begun := true, beganAt := 990, d := some 1000, left := 0, unsent := 0, sent := [(0, 1000)], tmo := [(0, 20000)], hz := 10000000 }

theorem wit_TimersSendAgain_1 : ∃ (s : State) (t : Nat) (id : Nat) (at0 : Nat) (d : Nat) (m : Msg),
    s.msg id = some m ∧
    (m.kind = .read ∨ m.kind = .atomic) ∧
    m.beacon = false ∧
    s.node ≠ some m.node ∧
    Tbl.find m.sent 0 = some at0 ∧
    m.d = some d ∧
    0 ∉ m.acked ∧
    0 ∉ m.bad ∧
    at0 + Tbl.get s.rtoInit m.tmo 0 ≤ max s.now t ∧
    max s.now t ≤ m.lastSend d :=
  ⟨withMsg atomicOut, 30000, 8, 1000, 1000, atomicOut,
   by decide +kernel⟩

theorem wit_TimersSendAgain_2 : ∃ (s : State) (t : Nat) (id : Nat) (at0 : Nat) (w : Nat) (m : Msg),
    s.msg id = some m ∧
    (m.kind = .read ∨ m.kind = .atomic) ∧
    m.beacon = false ∧
    s.node ≠ some m.node ∧
    m.busy = some (at0, w) ∧
    m.busyPsn = none ∧
    m.npkts = 1 ∧
    m.acked = [] ∧
    m.bad = [] ∧
    at0 + w ≤ max s.now t ∧
    (∀ d, m.d = some d → max s.now t ≤ m.lastSend d) :=
  ⟨withMsg { atomicOut with busy := some (1000, 5000) }, 6000, 8, 1000, 5000, { atomicOut with busy := some (1000, 5000) },
   by decide, by decide, by decide, by decide, by decide, by decide, by decide, by decide, by decide, by decide, by intro d h; cases h; decide⟩

/-- The ATOMIC's record, running, with nothing but that message to wait for. -/
def atomicRun : Rec := { rec0 10 (dsc Op.ATOMIC 0x300000000038 5 0 0x11 0) with phase := .running, started := true, msgs := [8], dst := [⟨some 6, 0x2000000001000, 8, 0x00080003, 5, false⟩] }
def outFor (x : Rec) (m : Msg) : State := (withMsg m).putRec 1 x

theorem wit_TimersSendAgain_3 : ∃ (s : State) (t : Nat) (id : Nat) (r : Nat) (d : Nat) (m : Msg) (x : Rec),
    s.lastMsg r x id m ∧
    m.d = some d ∧
    d + m.hz ≤ max s.now t ∧
    s.takesEntry x x.links ∧
    m.queue = x.queue ∧
    (s.qp x.queue).state = .active ∧
    (∀ y ∈ s.recsOf x.queue, y.1 = r) :=
  ⟨outFor atomicRun atomicOut, 10001000, 8, 1, 1000, atomicOut, atomicRun,
   by unfold State.takesEntry State.lastMsg; decide⟩

/-- A WRITE of two packets, both out. -/
def writeOut : Msg := { Msg.make 1 10 1 3 .write 6 8192 12 1 false with npkts := 2, begun := true, beganAt := 990, d := some 1000, sent := [(0, 1000), (1, 1000)], hz := 100000 }
/-- An ACK of PSN 0 of message 8. -/
def ackPkt : Packet := ans Pk.ACK 0 0 0 1 []
def outTo (p : Packet) (s : State) : State := { s with sw := { s.sw with ejected := [(900, p)] } }

theorem wit_AnswersAct_1 : ∃ (s : State) (t : Nat) (p : Packet) (m : Msg),
    s.arrives p Pk.ACK ∧
    s.msg p.msgId = some m ∧
    m.node = p.src ∧
    m.kind ≠ .read ∧
    m.bad = [] ∧
    (m.acked ++ (ackPsnsOf p).filter (fun i => decide (i < m.npkts))).eraseDups.length ≠ m.npkts :=
  ⟨outTo ackPkt (withMsg writeOut), 1000, ackPkt, writeOut,
   ⟨⟨900, by decide, by decide +kernel⟩, by decide +kernel⟩, by decide⟩

theorem wit_AnswersAct_2 : ∃ (s : State) (t : Nat) (r : Nat) (p : Packet) (m : Msg) (x : Rec),
    s.arrives p Pk.ACK ∧
    s.lastMsg r x p.msgId m ∧
    m.node = p.src ∧
    (m.kind = .write ∨ m.kind = .send) ∧
    (x.desc.op = Op.WRITE ∨ x.desc.op = Op.SEND) ∧
    s.takesEntry x x.links ∧
    m.bad = [] ∧
    m.err = none ∧
    (m.acked ++ (ackPsnsOf p).filter (fun i => decide (i < m.npkts))).eraseDups.length = m.npkts :=
  ⟨outTo ackPkt (outFor { writeRec with phase := .running, started := true, msgs := [8], left := 1 } { writeOut with acked := [1] }), 1000, 1, ackPkt, { writeOut with acked := [1] }, { writeRec with phase := .running, started := true, msgs := [8], left := 1 },
   ⟨⟨900, by decide, by decide +kernel⟩, by decide +kernel⟩, by unfold State.takesEntry State.lastMsg; decide⟩

theorem wit_AnswersAct_3 : ∃ (s : State) (t : Nat) (p : Packet) (m : Msg),
    s.arrives p Pk.ACK ∧
    s.msg p.msgId = some m ∧
    m.node = p.src ∧
    m.kind ≠ .read ∧
    m.bad = [] ∧
    (m.acked ++ (ackPsnsOf p).filter (fun i => decide (i < m.npkts))).eraseDups.length = m.npkts ∧
    (∀ x ∈ s.qm.recs, x.2.source = 0) :=
  ⟨outTo ackPkt (outFor { writeRec with phase := .running, started := true, msgs := [8], left := 1 } { writeOut with acked := [1] }), 1000, ackPkt, { writeOut with acked := [1] },
   ⟨⟨900, by decide, by decide +kernel⟩, by decide +kernel⟩, by decide⟩

theorem wit_AnswersAct_4 : ∃ (s : State) (t : Nat) (p : Packet) (aes : Option AesHit) (c : Instr),
    s.msg p.msgId = none ∧
    ((s.arrives p Pk.ACK ∧ c = .ack t p) ∨ (s.arrives p Pk.NAK ∧ c = .nak t p) ∨ (s.arrives p Pk.ATOMIC_RSP ∧ c = .atomicRsp t p) ∨
      (s.arrives p Pk.ERROR_RSP ∧ c = .errorRsp t p) ∨ (s.arrives p Pk.READ_RSP ∧ c = .readRsp t p aes)) :=
  ⟨outTo ackPkt base, 1000, ackPkt, none, .ack 1000 ackPkt,
   by decide, .inl ⟨⟨⟨900, by decide, by decide +kernel⟩, by decide +kernel, by decide +kernel, by decide +kernel, by decide +kernel, by decide +kernel, by decide +kernel, by decide +kernel⟩, rfl⟩⟩

def rspPkt : Packet := ans Pk.ATOMIC_RSP 0 77 0 0 []

theorem wit_AnswersAct_5 : ∃ (s : State) (t : Nat) (r : Nat) (p : Packet) (m : Msg) (x : Rec),
    s.arrives p Pk.ATOMIC_RSP ∧
    s.lastMsg r x p.msgId m ∧
    m.node = p.src ∧
    m.kind = .atomic ∧
    x.desc.op = Op.ATOMIC ∧
    s.takesEntry x x.links :=
  ⟨outTo rspPkt (outFor atomicRun atomicOut), 1000, 1, rspPkt, atomicOut, atomicRun,
   ⟨⟨900, by decide, by decide +kernel⟩, by decide +kernel⟩, by unfold State.takesEntry State.lastMsg; decide⟩

/-- A NAK of message 8 with a reason. -/
def nakPkt (r : Nat) : Packet := ans Pk.NAK (r * 2 ^ 11) 0 0 0 []

theorem wit_AnswersAct_6 : ∃ (s : State) (t : Nat) (r : Nat) (p : Packet) (m : Msg) (x : Rec),
    s.arrives p Pk.NAK ∧
    s.lastMsg r x p.msgId m ∧
    m.node = p.src ∧
    (p.nakReason = Nk.REVOKED ∨ p.nakReason = Nk.DENIED ∨ p.nakReason = Nk.RECV_REFUSED) ∧
    s.takesEntry x x.links :=
  ⟨outTo (nakPkt Nk.REVOKED) (outFor atomicRun atomicOut), 1000, 1, nakPkt Nk.REVOKED, atomicOut, atomicRun,
   ⟨⟨900, by decide, by decide +kernel⟩, by decide +kernel⟩, by unfold State.takesEntry State.lastMsg; decide⟩

theorem wit_AnswersAct_7 : ∃ (s : State) (t : Nat) (p : Packet) (m : Msg),
    s.arrives p Pk.NAK ∧
    s.msg p.msgId = some m ∧
    m.node = p.src ∧
    p.nakReason = Nk.BUSY :=
  ⟨outTo (nakPkt Nk.BUSY) (outFor atomicRun atomicOut), 1000, nakPkt Nk.BUSY, atomicOut,
   ⟨⟨900, by decide, by decide +kernel⟩, by decide +kernel⟩, by decide⟩

def errPkt : Packet := ans Pk.ERROR_RSP (1 * 2 ^ 11) 0 0 0 []

theorem wit_AnswersAct_8 : ∃ (s : State) (t : Nat) (r : Nat) (p : Packet) (m : Msg) (x : Rec),
    s.arrives p Pk.ERROR_RSP ∧
    s.lastMsg r x p.msgId m ∧
    m.node = p.src ∧
    p.nakReason ≤ 1 ∧
    s.takesEntry x x.links ∧
    (m.kind = .read → m.err = none ∧ p.psn ∉ m.acked ∧ p.psn ∉ m.bad ∧ m.acked.length + m.bad.length + 1 = m.rspCount) :=
  ⟨outTo errPkt (outFor atomicRun atomicOut), 1000, 1, errPkt, atomicOut, atomicRun,
   ⟨⟨900, by decide, by decide +kernel⟩, by decide +kernel⟩, by unfold State.takesEntry State.lastMsg; decide⟩

/-- A read request of two packets that is out, and the ERROR_RSP of the first: the memory error is at 77. -/
def readOut2 : Msg := { Msg.make 1 10 1 3 .read 6 8192 12 1 false with raddr := 2 ^ 48, key := keyOf 5 3, inc := 5, begun := true, d := some 1000, sent := [(0, 1000)], hz := 100000, units := 2, dst := [⟨none, 0x2000000080000, 8192, 0, 0, false⟩] }
def errPkt0 : Packet := ans Pk.ERROR_RSP 0 0 0 77 []

theorem wit_AnswersAct_9 : ∃ (s : State) (t : Nat) (p : Packet) (m : Msg),
    s.arrives p Pk.ERROR_RSP ∧
    s.msg p.msgId = some m ∧
    m.node = p.src ∧
    m.kind = .read ∧
    m.err = none ∧
    p.nakReason = 0 ∧
    p.psn ∉ m.acked ∧
    p.psn ∉ m.bad ∧
    m.acked.length + m.bad.length + 1 ≠ m.rspCount :=
  ⟨outTo errPkt0 (outFor { readRec with phase := .running, started := true, msgs := [8] } readOut2), 1000, errPkt0, readOut2,
   ⟨⟨900, by decide, by decide +kernel⟩, by decide +kernel⟩, by decide +kernel⟩

/-- A WRITE of four bytes to the end of region 3. -/
def writePkt : Packet := pkt Pk.WRITE_DATA 0 0 0 (4 * 2 ^ 41) (2 ^ 48 + 2097148) [1, 2, 3, 4]

theorem wit_RequestsArePlaced_1 : ∃ (s : State) (t : Nat) (i : Nat) (p : Packet),
    s.arrives p Pk.WRITE_DATA ∧
    s.rd (rdKey p) = none ∧
    s.regionCheck p.inc p.key p.addr p.plen false true false = .ok i ∧
    (s.part (s.region (keyIdx p.key)).owner).fabricEnc = false ∧
    s.ready (s.needsOf p.addr p.plen) = true ∧
    s.partsPoison [(p.addr, p.pay)] = none ∧
    s.pool.bad = [] ∧
    (s.freeEntry (s.dieOf p.src) p.beacon).isSome = true ∧
    (p.msgLen ≤ p.plen ∨ (s.freeBitmap (s.dieOf p.src) p.beacon).isSome = true) :=
  ⟨arrived writePkt, 1000, 3, writePkt,
   ⟨⟨900, by decide, by decide +kernel⟩, by decide +kernel⟩, by decide +kernel⟩

/-- A SEND of four bytes to queue pair 10, which has a RECV of four bytes of host memory. -/
def sendPkt : Packet := Packet.seal { pkt Pk.SEND_DATA 0 0 0 (4 * 2 ^ 41 + 10 * 2 ^ 25 + 20 * 2 ^ 9) 77 [1, 2, 3, 4] with w1 := hdr1 1 0 9 }
def recvRec : Rec := { rec0 10 (dsc Op.RECV 0x80000 0 4 0 0) with rq := true, phase := .waiting, dst := [⟨none, 0x2000000080000, 4, 0, 0, false⟩] }
def recving : State := ((outTo sendPkt base).putRec 2 recvRec).setQp 10 { qp10 with recvs := [2] }

theorem wit_RequestsArePlaced_2 : ∃ (s : State) (t : Nat) (r : Nat) (p : Packet),
    s.arrives p Pk.SEND_DATA ∧
    s.rd (rdKey p) = none ∧
    s.receiveCheck p = .ok r ∧
    (s.part (s.qp p.destQpn).part).fabricEnc = false ∧
    s.ready (s.recvNeeds r p) = true ∧
    s.partsPoison (s.recvParts r p p.pay) = none ∧
    s.pool.bad = [] ∧
    (s.freeEntry (s.dieOf p.src) p.beacon).isSome = true ∧
    (p.msgLen ≤ p.plen ∨ (s.freeBitmap (s.dieOf p.src) p.beacon).isSome = true) :=
  ⟨recving, 1000, 2, sendPkt,
   ⟨⟨900, by decide, by decide +kernel⟩, by decide +kernel⟩, by decide +kernel⟩

/-- Stack 2 in RETAIN. -/
def asleep (s : State) : State := s.setDom (stackDom 2) { Domain.off with state := .retain }

theorem wit_RequestsArePlaced_3 : ∃ (s : State) (t : Nat) (i : Nat) (p : Packet),
    s.arrives p Pk.WRITE_DATA ∧
    s.rd (rdKey p) = none ∧
    s.regionCheck p.inc p.key p.addr p.plen false true false = .ok i ∧
    (s.part (s.region (keyIdx p.key)).owner).fabricEnc = false ∧
    s.ready (s.needsOf p.addr p.plen) = false :=
  ⟨asleep (arrived writePkt), 1000, 3, writePkt,
   ⟨⟨900, by decide, by decide +kernel⟩, by decide +kernel⟩, by decide +kernel⟩

/-- A Keeper message of 16 bytes, MTYPE 0x0D. -/
def lampPkt : Packet := Packet.seal { pkt Pk.MGT_DATA 4 0 0 (16 * 2 ^ 41) 0 (wordBytes 0x0D10000000000000 ++ wordBytes 0) with w1 := hdr1 1 0 0 }

theorem wit_RequestsArePlaced_4 : ∃ (s : State) (t : Nat) (p : Packet),
    s.arrives p Pk.MGT_DATA ∧
    s.rd (rdKey p) = none ∧
    p.msgLen = p.plen ∧
    p.destQpn = 0 ∧
    16 ≤ p.plen ∧
    bits (wordAt p.pay 0) 52 4 = 1 ∧
    1 ≤ bits (wordAt p.pay 0) 56 8 ∧
    bits (wordAt p.pay 0) 56 8 ≤ 0x0D ∧
    (s.freeEntry (s.dieOf p.src) p.beacon).isSome = true :=
  ⟨outTo lampPkt base, 1000, lampPkt,
   ⟨⟨900, by decide, by decide +kernel⟩, by decide +kernel⟩, by decide +kernel⟩

/-- A READ of 64 bytes at the end of region 3. -/
def readPkt : Packet := pkt Pk.READ_REQ 0 0 1 (64 * 2 ^ 41) (2 ^ 48 + 2097088) []

theorem wit_ReadsAreAnswered_1 : ∃ (s : State) (t : Nat) (i : Nat) (p : Packet),
    s.arrives p Pk.READ_REQ ∧
    s.node ≠ some p.src ∧
    s.regionCheck p.inc p.key p.addr p.msgLen true false false = .ok i ∧
    (s.part (s.region (keyIdx p.key)).owner).fabricEnc = false ∧
    s.ready (s.needsOf p.addr p.msgLen) = true ∧
    winOf p.addr = 1 ∧
    s.io.places = [] ∧
    s.firstPoison (bitsN p.addr 0 48) p.msgLen = none ∧
    s.pool.bad = [] ∧
    cutCount p.addr p.msgLen p.pshift = 1 ∧
    p.want.testBit 0 = true :=
  ⟨arrived readPkt, 1000, 3, readPkt,
   ⟨⟨900, by decide, by decide +kernel⟩, by decide +kernel⟩, by decide +kernel⟩

/-- A read request of 64 bytes that is out, and its response. -/
def readOut : Msg := { Msg.make 1 10 1 3 .read 6 64 12 1 false with raddr := 2 ^ 48, key := keyOf 5 3, inc := 5, begun := true, d := some 1000, sent := [(0, 1000)], hz := 100000, units := 1, dst := [⟨none, 0x2000000080000, 64, 0, 0, false⟩] }
def readRspPkt : Packet := ans Pk.READ_RSP 0 0 0 (2 ^ 48) (List.replicate 64 7)

theorem wit_ReadsAreAnswered_2 : ∃ (s : State) (t : Nat) (p : Packet) (m : Msg),
    s.arrives p Pk.READ_RSP ∧
    s.msg p.msgId = some m ∧
    m.node = p.src ∧
    m.lacks p.psn p.plen = true ∧
    s.pool.bad = [] ∧
    s.ready (s.partsNeeds (layOut (cutExt m.dst (cutAt m.raddr m.len m.pshift p.psn).1 (cutAt m.raddr m.len m.pshift p.psn).2) p.pay)) = true ∧
    s.partsPoison (layOut (cutExt m.dst (cutAt m.raddr m.len m.pshift p.psn).1 (cutAt m.raddr m.len m.pshift p.psn).2) p.pay) = none :=
  ⟨outTo readRspPkt (outFor { readRec with phase := .running, started := true, msgs := [8] } readOut), 1000, readRspPkt, readOut,
   ⟨⟨900, by decide, by decide +kernel⟩, by decide +kernel⟩, by decide +kernel⟩

/-- A recent-delivery entry of message 8 from node 6, an ACK due since 900. -/
def rd0 : Rd :=
  { src := 6, epoch := 1, msgId := 8, delivered := true, since := 900, psns := [], met := [], lens := [], bytes := 8388608, len := 8388608, bitmap := false
    bmRes := false, beacon := false, old := 0, fetching := false, isMgt := false, recv := none, qpn := 10, srcQpn := 20, imm := 0, part := 1
    due := [(2047, 77, false)], dueAt := 900, mgt := [], links := [] }

theorem wit_EntriesAcknowledgeAndExpire_1 : ∃ (s : State) (t : Nat) (k : Nat) (psn : Nat) (ts : Nat) (ece : Bool) (e : Rd),
    s.rd k = some e ∧
    e.due = [(psn, ts, ece)] ∧
    e.dueAt ≤ max s.now t ∧
    s.node ≠ some e.src ∧
    e.src < 2 ^ 14 ∧
    e.msgId < 2 ^ 32 ∧
    psn < 2 ^ 11 :=
  ⟨{ base with tr := { base.tr with rds := [(3, rd0)] } }, 5000000, 3, 2047, 77, false, rd0,
   by decide⟩

theorem wit_EntriesAcknowledgeAndExpire_2 : ∃ (s : State) (t : Nat) (k : Nat) (e : Rd),
    s.rd k = some e ∧
    e.delivered = true ∧
    e.since + tDup ≤ max s.now t :=
  ⟨{ base with tr := { base.tr with rds := [(3, rd0)] } }, 900 + tDup, 3, rd0,
   by decide⟩

theorem wit_EntriesAcknowledgeAndExpire_3 : ∃ (s : State) (t : Nat) (k : Nat) (r : Nat) (e : Rd),
    s.rd k = some e ∧
    e.delivered = false ∧
    e.since + tDup ≤ max s.now t ∧
    e.recv = some r :=
  ⟨({ base with tr := { base.tr with rds := [(3, { rd0 with delivered := false, recv := some 2 })] } }).putRec 2 recvRec, 900 + tDup, 3, 2, { rd0 with delivered := false, recv := some 2 },
   by decide⟩

/-- Port 0 in a state of training or service. -/
def port0 : Port := { Port.none with version := 0x11, peerValid := true, peerNode := 6, ownReserve := 4, peerReserve := 4 }
def withPort (x : Port) : State := base.setPort 0 x

theorem wit_PortsTrain_1 : ∃ (s : State) (t : Nat) (p : Nat) (w : Word),
    p < s.nPorts ∧
    bit (s.reg .FAB_PORT_CFG p) 31 = false ∧
    bit w 31 = true ∧
    s.engineOn p = true ∧
    s.writesNow .FAB_PORT_CFG p w ∧
    (s.port p).state = .disabled :=
  ⟨base, 1000, 127, word 0x80000000,
   by unfold State.writesNow; decide⟩

theorem wit_PortsTrain_2 : ∃ (s : State) (t : Nat) (p : Nat),
    (s.port p).state = .detect ∧
    s.engineOn p = true :=
  ⟨withPort { port0 with state := .detect }, 1000, 0,
   by decide⟩

theorem wit_PortsTrain_3 : ∃ (s : State) (t : Nat) (p : Nat),
    (s.port p).state = .align :=
  ⟨withPort { port0 with state := .align }, 1000, 0,
   by decide⟩

theorem wit_PortsTrain_4 : ∃ (s : State) (t : Nat) (p : Nat) (v : Nat) (node : Nat) (port : Nat) (dim : Nat) (dir : Nat) (reserve : Nat) (valid : Bool) (fs : Bool),
    (s.port p).state = .negotiate :=
  ⟨withPort { port0 with state := .negotiate }, 1000, 0, 3, 6, 0, 0, 0, 4, true, false,
   by decide⟩

theorem wit_PortsTrain_5 : ∃ (s : State) (t : Nat) (p : Nat) (time : Nat),
    ((s.port p).state = .measure ∨ (s.port p).state = .sync) :=
  ⟨withPort { port0 with state := .sync }, 1000, 0, 2 ^ 48 - 1,
   by decide⟩

theorem wit_PortsTrain_6 : ∃ (s : State) (t : Nat) (p : Nat) (echoed : Nat) (hold : Nat) (a : Rat),
    (s.port p).state = .measure ∧
    (s.port p).echoes = 63 ∧
    (s.port p).minDelay = some a :=
  ⟨withPort { port0 with state := .measure, echoes := 63, minDelay := some 120 }, 1000, 0, 700, 40, 120,
   by decide +kernel⟩

theorem wit_PortsRetrain_1 : ∃ (s : State) (t : Nat) (p : Nat),
    (s.port p).state = .up :=
  ⟨withPort { port0 with state := .up }, 1000, 0,
   by decide⟩

theorem wit_PortsRetrain_2 : ∃ (s : State) (t : Nat) (p : Nat),
    (s.port p).state = .up ∧
    max 1 (s.fld F.FAB_LINK_CFG_UE_LIMIT) ≤ ((s.port p).ueTimes.filter (fun a => decide (max s.now t < a + 1000000))).length ∧
    (s.port p).history = [] :=
  ⟨withPort { port0 with state := .up, ueTimes := [990, 995, 1000, 1000, 1000, 1000, 1000, 1000, 1000, 1000, 1000, 1000, 1000, 1000, 1000, 1000] }, 1000, 0,
   by decide⟩

theorem wit_PortsRetrain_3 : ∃ (s : State) (t : Nat) (p : Nat) (w : Word),
    p < s.nPorts ∧
    bit (s.reg .FAB_PORT_CFG p) 31 = true ∧
    bit w 31 = true ∧
    bit w 29 = true ∧
    (s.port p).history = [] ∧
    s.writesNow .FAB_PORT_CFG p w :=
  ⟨(withPort { port0 with state := .failed, reason := 5 }).setReg .FAB_PORT_CFG 0 0 0x80000000, 1000, 0, word 0xA0000000,
   by unfold State.writesNow; decide⟩

theorem wit_PortsRetrain_4 : ∃ (s : State) (t : Nat) (e : Nat),
    e < s.nEngines :=
  ⟨withPort { port0 with state := .up }, 1000, 0,
   by decide⟩

theorem wit_LinkFlits_1 : ∃ (s : State) (t : Nat) (p : Nat) (cs : List Nat),
    (s.port p).carries = true :=
  ⟨withPort { port0 with state := .up, ret := [(0, 5)] }, 1000, 0, [2, 1048575],
   by decide⟩

theorem wit_LinkFlits_2 : ∃ (s : State) (t : Nat) (p : Nat) (cs : List Nat),
    (s.port p).carries = true :=
  ⟨withPort { port0 with state := .up, rx := [(0, 5)] }, 1000, 0, [7],
   by decide⟩

theorem wit_LinkFlits_3 : ∃ (s : State) (t : Nat) (p : Nat),
    (s.port p).carries = true ∧
    256 ≤ 5 * (max s.now t - (s.port p).creditAt) :=
  ⟨withPort { port0 with state := .up, creditAt := 900 }, 952, 0,
   by decide⟩

theorem wit_LinkFlits_4 : ∃ (s : State) (t : Nat) (p : Nat) (c : Nat) (n : Nat),
    (s.port p).carries = true ∧
    (s.port p).version = 0x11 :=
  ⟨withPort { port0 with state := .up }, 1000, 0, 7, 9,
   by decide⟩

theorem wit_LinkFlits_5 : ∃ (s : State) (t : Nat) (p : Nat),
    (s.port p).carries = true ∧
    (s.port p).version = 0x11 ∧
    (s.port p).healthAt + 1000000 ≤ max s.now t :=
  ⟨withPort { port0 with state := .up }, 1000000, 0,
   by decide⟩

theorem wit_LinkFlits_6 : ∃ (s : State) (t : Nat) (p : Nat) (c : Codeword),
    p < s.nPorts ∧
    (s.port p).carries = true ∧
    cwBad c = true :=
  ⟨withPort { port0 with state := .up }, 1000, 0, ⟨List.replicate 10 (List.replicate 64 0), 0, false, true⟩,
   by decide⟩

/-- A codeword that carries one header flit. -/
def cw0 : Codeword :=
  let c : Codeword := ⟨addReq.bytes.take 64 :: List.replicate 9 (List.replicate 64 0), 0, false, false⟩
  { c with ctl := cwFcrc c }

set_option maxRecDepth 100000 in
theorem wit_LinkFlits_7 : ∃ (s : State) (t : Nat) (p : Nat) (c : Codeword) (b : List Byte) (rest : List (List Byte)),
    p < s.nPorts ∧
    (s.port p).state = .up ∧
    cwBad c = false ∧
    (s.port p).rxHead = none ∧
    (s.port p).parseLost = false ∧
    c.slots = b :: rest ∧
    (∀ y ∈ rest, (y.getD 7 0).toNat / 16 = 0) ∧
    (b.getD 7 0).toNat / 16 ≠ 0 ∧
    (Packet.ofBytes b).plen = 0 ∧
    (Packet.ofBytes b).enc = false ∧
    (aged (Packet.ofBytes b) 1 (s.port p).delay).isSome = true :=
  ⟨withPort { port0 with state := .up }, 1000, 0, cw0, (addReq.bytes.take 64), List.replicate 9 (List.replicate 64 0),
   by decide +kernel⟩

/-- A ring of 16 nodes in dimension 0, node 6 in the + direction, port 0 the one link there. -/
def routed : State :=
  let s := (((base.setPort 0 { port0 with state := .up }).setFld F.SWT_TOPO_SIZE_M1 15 0).setReg .SWT_DIR_LO 0 0 (word (2 ^ 12))).setFld F.FAB_PORT_CFG_DIM 0 0
  s.setFld F.FAB_PORT_CFG_ENABLE 1 0
/-- A packet from node 7 in input list 127, on port 127. -/
def transit (dst : Nat) : SwPkt :=
  { SwPkt.ofPacket { addReq with w0 := hdr0 1 Pk.ATOMIC_REQ 0 false false dst 7 0 } 0 900 64 with input := 127, inVc := 0, dimIn := some 0 }
def inSwitch (k : SwPkt) : State := { routed with sw := { routed.sw with inq := [(127, [k])] } }

theorem wit_SwitchMoves_1 : ∃ (s : State) (t : Nat) (i : Nat) (k : Nat) (x : SwPkt) (q : Packet),
    (s.inqOf i)[k]? = some x ∧
    x.msg = none ∧
    x.eject = false ∧
    ((s.inqOf i).take k).any (fun y => y.inVc == x.inVc) = false ∧
    s.node = some x.pkt.dst ∧
    s.ready (s.ejectDoms x) = true ∧
    (if x.pkt.type = Pk.COL_DATA then (s.colRoute x).all (fun r => decide (255 ≤ r.2.2)) else s.half || s.dieOf x.pkt.src == inputDie i) = true ∧
    aged x.pkt 1 (max s.now t - x.at0 + x.delta) = some q :=
  ⟨inSwitch { transit 5 with input := 127 }, 1000, 127, 0, transit 5, (aged (transit 5).pkt 1 100).getD Packet.zero,
   by decide +kernel⟩

theorem wit_SwitchMoves_2 : ∃ (s : State) (t : Nat) (i : Nat) (k : Nat) (x : SwPkt),
    (s.inqOf i)[k]? = some x ∧
    x.msg = none ∧
    x.eject = false ∧
    ((s.inqOf i).take k).any (fun y => y.inVc == x.inVc) = false ∧
    s.node ≠ some x.pkt.dst ∧
    x.pkt.type ≠ Pk.COL_DATA ∧
    s.overEth x.pkt.dst = false ∧
    s.hasRoute x.pkt.dst = false :=
  ⟨inSwitch (transit 63), 1000, 127, 0, transit 63,
   by decide +kernel⟩

def inSwitch0 (k : SwPkt) : State := { routed with sw := { routed.sw with inq := [(0, [k])] } }

theorem wit_SwitchMoves_3 : ∃ (s : State) (t : Nat) (i : Nat) (k : Nat) (x : SwPkt) (c : Cand),
    (s.inqOf i)[k]? = some x ∧
    x.msg = none ∧
    x.eject = false ∧
    ((s.inqOf i).take k).any (fun y => y.inVc == x.inVc) = false ∧
    s.node ≠ some x.pkt.dst ∧
    x.pkt.type ≠ Pk.COL_DATA ∧
    s.overEth x.pkt.dst = false ∧
    s.hasRoute x.pkt.dst = true ∧
    s.candidates x.pkt = [c] ∧
    s.barred c.o x = false ∧
    (s.poolFor c.o c.vc x.pkt.flits c.escape).isSome = true ∧
    (s.half || outputDie c.o == inputDie i) = true :=
  ⟨inSwitch0 (transit 6), 1000, 0, 0, transit 6, ⟨0, 1, true⟩,
   by decide +kernel⟩

theorem wit_SwitchMoves_4 : ∃ (s : State) (t : Nat) (i : Nat) (key : Nat) (k : Nat) (x : SwPkt),
    i < 256 ∧
    (s.inqOf i)[k]? = some x ∧
    x.frame = [] ∧
    aged x.pkt (b2n x.dimIn.isSome) (max s.now t - x.at0 + x.delta) = none :=
  ⟨inSwitch (transit 6), 900 + 40 * 1761, 127, 0, 0, transit 6,
   by decide +kernel⟩

/-- A packet of queue 4 waits on output 0. -/
def waitingOut : State :=
  routed.setOut 0 { Output.none with lists := [(4 * 16 + 1, [{ transit 6 with out := some 0, vc := 1 }])] }

theorem wit_SwitchMoves_5 : ∃ (s : State) (t : Nat) (o : Nat) (h : Nat × Nat × SwPkt) (d : Tbl Nat),
    o < 128 ∧
    (s.out o).busyTo < ((max s.now t : Nat) : Rat) + 1 ∧
    (s.at t).nextHead o = some (h, d) ∧
    h.2.2.frame = [] ∧
    h.2.2.msg = none ∧
    (∀ e ∈ s.tr.msgs, (s.at t).tooLate e.2 = false) ∧
    (aged h.2.2.pkt (b2n h.2.2.dimIn.isSome) (max s.now t - h.2.2.at0 + h.2.2.delta)).isSome = true :=
  ⟨waitingOut, 1000, 0, ((waitingOut.at 1000).nextHead 0).map (fun x => x.1) |>.getD (0, 0, transit 6), ((waitingOut.at 1000).nextHead 0).map (fun x => x.2) |>.getD [],
   by decide +kernel⟩

theorem wit_SwitchMoves_6 : ∃ (s : State) (t : Nat) (o : Nat),
    o < 128 ∧
    (s.port o).carries = true :=
  ⟨routed, 1000, 0,
   by decide⟩

theorem wit_SwitchMoves_7 : ∃ (s : State) (t : Nat) (w : Word),
    s.writesNow .SWT_ROUTE_CTRL 0 w :=
  ⟨base, 1000, word 0x80000003,
   by unfold State.writesNow; decide⟩

theorem wit_SchedulerSettings_1 : ∃ (s : State) (t : Nat) (w : Word),
    s.serving = true :=
  ⟨base, 1000, word (5 * 2 ^ 32),
   by decide⟩

theorem wit_SchedulerSettings_2 : ∃ (s : State) (t : Nat) (j : Nat) (w : Word),
    s.serving = true ∧
    s.outFitted j = true :=
  ⟨base, 1000, 0, word 0,
   by decide⟩

theorem wit_SchedulerSettings_3 : ∃ (s : State) (t : Nat) (w : Word),
    s.serving = true :=
  ⟨base, 1000, word 500,
   by decide⟩

theorem wit_SchedulerSettings_4 : ∃ (s : State) (t : Nat) (w : Word),
    s.serving = true :=
  ⟨base, 1000, word 3,
   by decide⟩

theorem wit_SchedulerSettings_5 : ∃ (s : State) (t : Nat),
    s.sw.sampleAt + max 100 (s.fld F.SCH_SAMPLE_CFG_PERIOD) ≤ max s.now t ∧
    Tbl.rising s.sw.outs = true :=
  ⟨waitingOut, 100000000,
   by decide⟩

theorem wit_SchedulerSettings_6 : ∃ (s : State) (t : Nat) (w : Word) (v : QSample),
    s.serving = true ∧
    Tbl.get QSample.none (s.out (bits w 8 8)).samples (bits w 0 6) = v :=
  ⟨base.setOut 255 { Output.none with samples := [(63, ⟨1, 2, 3, 4⟩)] }, 1000, word (2 ^ 31 + 255 * 2 ^ 8 + 63), ⟨1, 2, 3, 4⟩,
   by decide⟩

theorem wit_GroupsLive_1 : ∃ (s : State) (t : Nat) (r : Nat) (g : Nat) (x : Rec),
    s.begins r Op.GROUP_CREATE x ∧
    s.takesEntry x x.links ∧
    s.groupsHeld x.desc.part < (s.part x.desc.part).groups ∧
    g < s.nGroups ∧
    (s.group g).state = .free ∧
    (∀ h < g, (s.group h).state ≠ .free) ∧
    s.blocksHeld x.desc.part + bits x.desc.w2 0 22 ≤ (s.part x.desc.part).blocks ∧
    bits x.desc.w2 0 22 ≤ s.freeOn ((maskBits (bits x.desc.w3 0 20) 20).filter (fun k => decide (k < s.nStacks) && stackDie k == s.dieOf g)) :=
  ⟨withAdm (adm Op.GROUP_CREATE 2 0xFFFFF 3 0), 1000, 1, 0, adm Op.GROUP_CREATE 2 0xFFFFF 3 0,
   by unfold State.begins; decide +kernel, by unfold State.takesEntry; decide +kernel, by decide +kernel, by decide +kernel, by decide +kernel, by intro h hh; omega, by decide +kernel⟩

/-- Group 2 of partition 1, in generation 3. -/
def group2 : Group := ⟨.active, 1, 3, 2, 0⟩
def withGroup (x : Rec) : State := (withAdm x).setGroup 2 group2

theorem wit_GroupsLive_2 : ∃ (s : State) (t : Nat) (r : Nat) (x : Rec),
    s.begins r Op.GROUP_DESTROY x ∧
    s.takesEntry x x.links ∧
    (s.group (bits x.desc.w2 0 12)).state = .active ∧
    (s.group (bits x.desc.w2 0 12)).part = x.desc.part :=
  ⟨withGroup (adm Op.GROUP_DESTROY 2 0 0 0), 1000, 1, adm Op.GROUP_DESTROY 2 0 0 0,
   by unfold State.begins State.takesEntry; decide⟩

theorem wit_GroupsLive_3 : ∃ (s : State) (t : Nat) (r : Nat) (x : Rec) (a : Extent),
    s.begins r Op.GROUP_QUERY x ∧
    s.takesEntry x (linksOf x.xtra) ∧
    x.resultTo s a 32 ∧
    ((s.group (bits x.desc.w2 0 12)).state = .free ∨ (s.group (bits x.desc.w2 0 12)).part = x.desc.part) :=
  ⟨withGroup (resultRec Op.GROUP_QUERY 2 0 32), 1000, 1, resultRec Op.GROUP_QUERY 2 0 32, ⟨none, 0x2000000090000, 32, 0, 0, false⟩,
   by unfold State.begins State.takesEntry Rec.resultTo; decide⟩

/-- A plan part of member 0 (node 5) with member 1 at node 6: send 64 FP32 values, receive as many into a slot, reduce both. -/
def step0 : PStep :=
  { op := 1, peer := 1, route := 1, stream := false, afterA := 0xFFFF, afterB := 0xFFFF, srcSpace := 0, dstSpace := 0, ncontrib := 1, srcSlot := 0, dstSlot := 0
    aux := 1, srcOff := 0, dstOff := 0, len := 64, elem := 0, localPos := 0 }
def step1 : PStep := { step0 with op := 2, dstSpace := 2, aux := 0 }
def step2 : PStep := { step0 with op := 3, afterA := 1, srcSpace := 2, dstSpace := 1, ncontrib := 2, aux := 0, localPos := 1 }
def body0 : PlanBody :=
  { id := 77, members := 2, relays := 0, control := word (2 ^ 55 + 2 ^ 50), seed := 0, kind := 0, count := 64, lag := 10, abort := 50, self := 0, root := 0
    relay := false, inplace := false, mask := 1, ownStart := 0, ownLen := 64, arrays := 1, nodes := [5, 6], links := [], routes := [⟨1, 0xFF, 0xFF⟩]
    slots := [⟨5, 0, 0, 4096⟩], steps := [step0, step1, step2] }
def plan0 : Plan :=
  { body := body0, part := 1, group := 2, state := .loaded, arrays := [7], inv := 4, run := none, queue := [], loader := none, unloaders := [], readys := [] }
def colDesc : Desc := dsc Op.COLLECTIVE (2 * 2 ^ 32 + 3 * 2 ^ 48) 0x80000 0x90000 64 0
def bufs : List Extent := [⟨none, 0x2000000080000, 256, 0, 0, false⟩]
def colRec : Rec := { rec0 10 colDesc with phase := .running, src := bufs, dst := bufs }
def run0 : Run :=
  { uid := 9, recId := 1, src := bufs, dst := bufs, ovf := [], sig := colSig body0 colDesc, started := [0, 1], done := [], maps := [], met := []
    grants := [(1, 256)], sent := [], strm := [], next := [], cur := [], written := [], asked := [], since := [(1, 900)], noticed := [], bytes := 0, drops := []
    counts := [], ended := false }
/-- The adapter with the plan in slot 0 and a record. -/
def withPlan (x : Plan) (r : Rec) : State :=
  let s := (((base.putRec 1 r).setGroup 2 group2).setPlan 0 x).setBlk (physBlk 0 9) ⟨.internal, .groupArea 2 0⟩
  { s with arr := { s.arr with amap := [(7, 8)] } }

theorem wit_GroupsLive_4 : ∃ (s : State) (t : Nat) (r : Nat) (x : Rec),
    s.begins r Op.GROUP_ABORT x ∧
    (s.group (bits x.desc.w2 0 12)).state = .active ∧
    (s.group (bits x.desc.w2 0 12)).part = x.desc.part ∧
    s.plansOf (bits x.desc.w2 0 12) ≠ [] :=
  ⟨withPlan { plan0 with run := some run0 } colRec |>.putRec 2 (adm Op.GROUP_ABORT 2 0 0 0), 1000, 2, adm Op.GROUP_ABORT 2 0 0 0,
   by unfold State.begins; decide⟩

theorem wit_GroupsLive_5 : ∃ (s : State) (t : Nat) (g : Nat),
    (s.group g).state = .aborting ∧
    (∀ e ∈ s.plansOf g, s.colPlacing e.1 = false ∧ (s.plan e.1).any (·.running) = false ∧ e.2.queue = []) :=
  ⟨(withPlan plan0 colRec).setGroup 2 { group2 with state := .aborting }, 1000, 2,
   by decide⟩

/-- A PLAN_LOAD of a part without steps, 136 B long, in Gallery memory. -/
def imgWords : List Word :=
  [word (0x4C50515A * 2 ^ 32 + 2 ^ 16), word (5 * 2 ^ 32 + 2 ^ 16), 0, 0, word (4 * 2 ^ 56), word (10 * 2 ^ 32), 0, 0, 0, 0, 0, 0, 0, 0, 0, 0, word 5]
def loadRec : Rec := { adm Op.PLAN_LOAD 0x200000000000 136 2 0 with src := [⟨none, 2 ^ 48, 136, 0, 0, false⟩] }
def loadS : State := (withGroup loadRec).memWrite (base.galleryPhys 0) (imgWords.flatMap wordBytes)

theorem wit_PlansLoadAndUnload_1 : ∃ (s : State) (v : State) (t : Nat) (r : Nat) (x : Rec) (b : List Byte),
    s.begins r Op.PLAN_LOAD x ∧
    s.takesEntry x x.links ∧
    ((s.at t).admWait r).gather x.part x.src (.admin r) = (v, some (.bytes b)) :=
  ⟨loadS, ((loadS.at 1000).admWait 1).gather 1 loadRec.src (.admin 1) |>.1, 1000, 1, loadRec, (match (((loadS.at 1000).admWait 1).gather 1 loadRec.src (.admin 1)).2 with | some (.bytes b) => b | _ => []),
   by unfold State.begins State.takesEntry; decide +kernel⟩

theorem wit_PlansLoadAndUnload_2 : ∃ (s : State) (t : Nat) (r : Nat) (x : Rec) (p : Plan),
    s.begins r Op.PLAN_UNLOAD x ∧
    s.plan (bits x.desc.w2 0 14) = some p ∧
    p.state ≠ .loading ∧
    p.part = x.desc.part ∧
    p.queue = [] :=
  ⟨withPlan { plan0 with run := some run0 } colRec |>.putRec 2 (adm Op.PLAN_UNLOAD 0 0 0 0), 1000, 2, adm Op.PLAN_UNLOAD 0 0 0 0, { plan0 with run := some run0 },
   by unfold State.begins; decide +kernel⟩

theorem wit_PlansLoadAndUnload_3 : ∃ (s : State) (t : Nat) (k : Nat) (r : Nat) (x : Rec) (p : Plan),
    s.plan k = some p ∧
    p.state = .unloading ∧
    p.running = false ∧
    p.unloaders = [r] ∧
    s.getRec r = some x ∧
    isAdm x.queue = true ∧
    s.takesEntry x x.links :=
  ⟨withPlan { plan0 with state := .unloading, unloaders := [1] } (adm Op.PLAN_UNLOAD 0 0 0 0), 1000, 0, 1, adm Op.PLAN_UNLOAD 0 0 0 0, { plan0 with state := .unloading, unloaders := [1] },
   by unfold State.takesEntry; decide⟩

theorem wit_PlansLoadAndUnload_4 : ∃ (s : State) (t : Nat) (r : Nat) (x : Rec) (a : Extent) (p : Plan),
    s.begins r Op.PLAN_QUERY x ∧
    s.takesEntry x (linksOf x.xtra) ∧
    x.resultTo s a 32 ∧
    s.plan (bits x.desc.w2 0 14) = some p ∧
    p.part = x.desc.part :=
  ⟨withPlan plan0 (resultRec Op.PLAN_QUERY 0 0 32), 1000, 1, resultRec Op.PLAN_QUERY 0 0 32, ⟨none, 0x2000000090000, 32, 0, 0, false⟩, plan0,
   by unfold State.begins State.takesEntry Rec.resultTo; decide⟩

theorem wit_InvocationsRun_1 : ∃ (s : State) (t : Nat) (r : Nat) (x : Rec),
    s.recReady r Op.COLLECTIVE = some x ∧
    s.plan (bits x.desc.w2 0 14) = none ∧
    s.takesEntry x x.links :=
  ⟨withRec { colRec with phase := .accepted }, 1000, 1, { colRec with phase := .accepted },
   by unfold State.takesEntry; decide⟩

theorem wit_InvocationsRun_2 : ∃ (s : State) (t : Nat) (r : Nat) (x : Rec) (y : Plan),
    s.recReady r Op.COLLECTIVE = some x ∧
    s.plan (bits x.desc.w2 0 14) = some y ∧
    y.part = x.part ∧
    y.state = .loaded ∧
    s.unloadFetched (bits x.desc.w2 0 14) y.part = false ∧
    bits x.desc.w2 32 12 = y.group ∧
    bits x.desc.w2 48 16 ≠ (s.group y.group).gen ∧
    s.takesEntry x x.links :=
  ⟨(withPlan plan0 { colRec with phase := .accepted }).setGroup 2 { group2 with gen := 4 }, 1000, 1, { colRec with phase := .accepted }, plan0,
   by unfold State.takesEntry; decide⟩

theorem wit_InvocationsRun_3 : ∃ (s : State) (t : Nat) (r : Nat) (x : Rec) (y : Plan) (e : List (List Extent)),
    s.recReady r Op.COLLECTIVE = some x ∧
    s.plan (bits x.desc.w2 0 14) = some y ∧
    y.part = x.part ∧
    y.state = .loaded ∧
    s.unloadFetched (bits x.desc.w2 0 14) y.part = false ∧
    bits x.desc.w2 32 12 = y.group ∧
    bits x.desc.w2 48 16 = (s.group y.group).gen ∧
    (s.group y.group).state = .active ∧
    bits x.desc.w5 0 40 = y.body.count ∧
    y.body.kind ≠ 5 ∧
    s.colTranslate x.part x.desc (y.body.sizes 0) = .ok e ∧
    (∀ l ∈ linksOf (e.getD 0 [] ++ e.getD 1 [] ++ e.getD 2 []), (s.link l).lost = false) :=
  ⟨withPlan plan0 { colRec with phase := .accepted }, 1000, 1, { colRec with phase := .accepted }, plan0, [bufs, [⟨none, 0x2000000090000, 256, 0, 0, false⟩], []],
   by decide⟩

theorem wit_InvocationsRun_4 : ∃ (s : State) (t : Nat) (k : Nat) (c : Nat) (y : Plan) (d : Rec),
    s.plan k = some y ∧
    y.running = false ∧
    (s.group y.group).state = .active ∧
    (s.colQueue y).head? = some c ∧
    s.getRec c = some d ∧
    d.phase = .waiting ∧
    s.ready (s.colDoms k y (d.src ++ d.dst)) = true :=
  ⟨withPlan { plan0 with queue := [1] } { colRec with phase := .waiting }, 1000, 0, 1, { plan0 with queue := [1] }, { colRec with phase := .waiting },
   by decide⟩

theorem wit_InvocationsRun_5 : ∃ (s : State) (t : Nat) (k : Nat) (y : Plan) (r : Run) (c : Rec),
    s.runOf k = some (y, r) ∧
    (∀ i < y.body.steps.length, i ∈ r.done) ∧
    y.body.kind ≠ 5 ∧
    r.drops = [] ∧
    s.getRec r.recId = some c ∧
    s.takesEntry c c.links :=
  ⟨withPlan { plan0 with run := some { run0 with done := [0, 1, 2], started := [0, 1, 2], bytes := 256 } } colRec, 1000, 0, { plan0 with run := some { run0 with done := [0, 1, 2], started := [0, 1, 2], bytes := 256 } }, { run0 with done := [0, 1, 2], started := [0, 1, 2], bytes := 256 }, colRec,
   by unfold State.takesEntry; decide +kernel⟩

theorem wit_InvocationsRun_6 : ∃ (s : State) (t : Nat) (k : Nat) (i : Nat) (y : Plan) (r : Run) (st : PStep),
    s.runOf k = some (y, r) ∧
    y.body.steps[i]? = some st ∧
    st.op = 3 ∧
    i ∈ r.started ∧
    Tbl.get 0 r.next i < st.passes ∧
    Tbl.has r.cur i = false ∧
    r.missing y.body i st (Tbl.get 0 r.next i) = [] ∧
    s.arrayFree ((y.arrays[st.aux]?).getD 0) = true ∧
    s.clean :=
  ⟨withPlan { plan0 with run := some { run0 with started := [0, 1, 2], maps := [(1, [0])], met := [(1, [0])] } } colRec, 1000, 0, 2, { plan0 with run := some { run0 with started := [0, 1, 2], maps := [(1, [0])], met := [(1, [0])] } }, { run0 with started := [0, 1, 2], maps := [(1, [0])], met := [(1, [0])] }, step2,
   by unfold State.clean; decide +kernel⟩

/-- Two contributions of 64 FP32 values, 1.0 and 2.0. -/
def twoVecs : List (List Byte × List Byte) := [((List.replicate 64 (leBytes 4 0x3F800000)).flatMap id, []), ((List.replicate 64 (leBytes 4 0x40000000)).flatMap id, [])]

theorem wit_InvocationsRun_7 : ∃ (s : State) (t : Nat) (k : Nat) (i : Nat) (y : Plan) (r : Run) (st : PStep) (p : Pass) (cs : List (List Byte × List Byte)),
    s.runOf k = some (y, r) ∧
    y.body.steps[i]? = some st ∧
    Tbl.find r.cur i = some p ∧
    p.contribs = some cs ∧
    s.clean :=
  ⟨withPlan { plan0 with run := some { run0 with started := [0, 1, 2], maps := [(1, [0])], met := [(1, [0])], next := [(2, 1)], cur := [(2, ⟨0, some twoVecs⟩)] } } colRec, 1000, 0, 2, { plan0 with run := some { run0 with started := [0, 1, 2], maps := [(1, [0])], met := [(1, [0])], next := [(2, 1)], cur := [(2, ⟨0, some twoVecs⟩)] } }, { run0 with started := [0, 1, 2], maps := [(1, [0])], met := [(1, [0])], next := [(2, 1)], cur := [(2, ⟨0, some twoVecs⟩)] }, step2, ⟨0, some twoVecs⟩, twoVecs,
   by unfold State.clean; decide +kernel⟩

theorem wit_InvocationsRun_8 : ∃ (s : State) (t : Nat) (k : Nat) (i : Nat) (kind : Nat) (y : Plan) (r : Run) (st : PStep) (p : Pass),
    s.runOf k = some (y, r) ∧
    y.body.steps[i]? = some st ∧
    Tbl.find r.cur i = some p ∧
    p.contribs.isSome = true ∧
    (s.group y.group).state = .active ∧
    (kind = 1 ∨ kind = 2) :=
  ⟨withPlan { plan0 with run := some { run0 with started := [0, 1, 2], maps := [(1, [0])], met := [(1, [0])], next := [(2, 1)], cur := [(2, ⟨0, some twoVecs⟩)] } } colRec, 1000, 0, 2, 2, { plan0 with run := some { run0 with started := [0, 1, 2], maps := [(1, [0])], met := [(1, [0])], next := [(2, 1)], cur := [(2, ⟨0, some twoVecs⟩)] } }, { run0 with started := [0, 1, 2], maps := [(1, [0])], met := [(1, [0])], next := [(2, 1)], cur := [(2, ⟨0, some twoVecs⟩)] }, step2, ⟨0, some twoVecs⟩,
   by decide +kernel⟩

/-- A collective packet of member 1 for step 1: words 1, 3, 4 and 6 and the payload. -/
def colPkt (ckind cause inv step w4 : Nat) (w6 : Word) (pay : List Byte) : Packet :=
  Packet.seal { Packet.zero with
    w0 := hdr0 1 Pk.COL_DATA 3 false false 5 6 0, w1 := word (77 * 2 ^ 32 + 3 * 2 ^ 16 + step), w2 := hdr2 8 0 pay.length 12 true
    w3 := word (inv * 2 ^ 32 + 2 ^ 20 + 2 ^ 8 + ckind * 16 + cause), w4 := word w4, w5 := 0, w6 := w6, pay := pay }
def dataPkt : Packet := colPkt 0 0 4 1 0 (colSig body0 colDesc) [1, 2, 3, 4]
def colIn (p : Packet) (x : Plan) : State := outTo p (withPlan x colRec)
def running (r : Run) : Plan := { plan0 with run := some r }

theorem wit_CollectivePacketsAct_1 : ∃ (s : State) (t : Nat) (k : Nat) (p : Packet) (x : Plan) (r : Run) (st : PStep),
    s.colArrives p 0 k x ∧
    x.run = some r ∧
    r.ended = false ∧
    p.inv = x.inv ∧
    x.ended p = false ∧
    x.body.steps[p.colStep]? = some st ∧
    st.recvOf p.origin = true ∧
    p.colStep ∈ r.started ∧
    p.w6 = r.sig ∧
    p.colOff / 4096 ∉ Tbl.get [] r.maps p.colStep ∧
    p.colOff + p.plen ≤ Tbl.get 0 r.grants p.colStep ∧
    1 ≤ p.plen ∧
    st.toStream = false ∧
    s.pool.bad = [] ∧
    s.partsPoison (s.colParts x r st p p.pay) = none :=
  ⟨colIn dataPkt (running run0), 1000, 0, dataPkt, running run0, run0, step1,
   ⟨⟨⟨900, by decide, by decide +kernel⟩, by decide +kernel⟩, by decide +kernel⟩, by decide +kernel⟩

theorem wit_CollectivePacketsAct_2 : ∃ (s : State) (t : Nat) (k : Nat) (p : Packet) (x : Plan) (r : Run) (st : PStep),
    s.colArrives p 0 k x ∧
    x.run = some r ∧
    p.inv = x.inv ∧
    x.ended p = false ∧
    x.body.steps[p.colStep]? = some st ∧
    st.recvOf p.origin = true ∧
    p.colStep ∈ r.started ∧
    p.w6 = r.sig ∧
    p.colOff / 4096 ∈ Tbl.get [] r.maps p.colStep ∧
    p.colOff / 4096 ∈ Tbl.get [] r.met p.colStep :=
  ⟨colIn dataPkt (running { run0 with maps := [(1, [0])], met := [(1, [0])] }), 1000, 0, dataPkt, running { run0 with maps := [(1, [0])], met := [(1, [0])] }, { run0 with maps := [(1, [0])], met := [(1, [0])] }, step1,
   ⟨⟨⟨900, by decide, by decide +kernel⟩, by decide +kernel⟩, by decide +kernel⟩, by decide +kernel⟩

theorem wit_CollectivePacketsAct_3 : ∃ (s : State) (t : Nat) (k : Nat) (p : Packet) (x : Plan) (r : Run) (st : PStep),
    s.colArrives p 0 k x ∧
    x.run = some r ∧
    p.inv = x.inv ∧
    x.ended p = false ∧
    x.body.steps[p.colStep]? = some st ∧
    st.recvOf p.origin = true ∧
    p.colStep ∈ r.started ∧
    p.w6 ≠ r.sig ∧
    (s.group x.group).state = .active :=
  ⟨colIn dataPkt (running { run0 with sig := 5 }), 1000, 0, dataPkt, running { run0 with sig := 5 }, { run0 with sig := 5 }, step1,
   ⟨⟨⟨900, by decide, by decide +kernel⟩, by decide +kernel⟩, by decide +kernel⟩, by decide +kernel⟩

def readyPkt : Packet := colPkt 1 0 5 1 256 0 []

theorem wit_CollectivePacketsAct_4 : ∃ (s : State) (t : Nat) (k : Nat) (i : Nat) (p : Packet) (x : Plan),
    s.colArrives p 1 k x ∧
    x.run = none ∧
    p.inv = (x.inv + 1) % 2 ^ 32 ∧
    x.body.sendFor p.origin p.colStep = some i :=
  ⟨colIn readyPkt plan0, 1000, 0, 0, readyPkt, plan0,
   ⟨⟨⟨900, by decide, by decide +kernel⟩, by decide +kernel⟩, by decide +kernel⟩, by decide +kernel⟩

def abortPkt : Packet := colPkt 2 6 4 65535 (2 * 2 ^ 12 + 1) 0 []

theorem wit_CollectivePacketsAct_5 : ∃ (s : State) (t : Nat) (k : Nat) (p : Packet) (x : Plan),
    s.colArrives p 2 k x ∧
    (s.group x.group).state = .active :=
  ⟨colIn abortPkt (running run0), 1000, 0, abortPkt, running run0,
   ⟨⟨⟨900, by decide, by decide +kernel⟩, by decide +kernel⟩, by decide +kernel⟩, by decide +kernel⟩

theorem wit_CollectivePacketsAct_6 : ∃ (s : State) (t : Nat) (k : Nat) (i : Nat) (t0 : Nat) (m : Nat) (x : Plan) (r : Run) (c : Rec),
    s.lagOf k i = some (x, r, t0, m) ∧
    t0 + x.body.lag * 1000 ≤ max s.now t ∧
    i ∉ r.noticed ∧
    s.getRec r.recId = some c ∧
    s.takesEntry c [] ∧
    m < 4096 ∧
    i < 65536 :=
  ⟨withPlan (running run0) colRec, 10900, 0, 1, 900, 1, running run0, run0, colRec,
   by unfold State.takesEntry; decide +kernel⟩

theorem wit_CollectivePacketsAct_7 : ∃ (s : State) (t : Nat) (k : Nat) (i : Nat) (t0 : Nat) (m : Nat) (x : Plan) (r : Run),
    s.lagOf k i = some (x, r, t0, m) ∧
    x.body.abort ≠ 0 ∧
    t0 + x.body.abort * 1000 ≤ max s.now t ∧
    (s.group x.group).state = .active :=
  ⟨withPlan (running run0) colRec, 50900, 0, 1, 900, 1, running run0, run0,
   by decide +kernel⟩

/-- Queue pair 10 as an Ethernet queue pair of port 0, the port up. -/
def ethQp : Qp := { qp10 with ethPort := some 0 }
def ethPort0 : EthPort := { EthPort.down with up := true }
def onEth (x : EthPort) : State :=
  (((base.setQp 10 ethQp).setEthPort 0 x).setFld F.ETH_MAC_OWNER 1 0 3).setFld F.ETH_MAC_VALID 1 0 3 |>.setFld F.ETH_MAC_ADDR 0x020000000001 0 3
/-- Filter entry 4: partition 1, every address, any tag, any EtherType; to queue pair 10. -/
def filt4 : Nat × Word × Word := (4, word (2 ^ 63 + 1 * 2 ^ 56 + 0xFF * 2 ^ 48 + 2 ^ 33), word 10)
/-- 60 bytes of a frame to and from address 02-00-00-00-00-01, EtherType 0x88B5. -/
def raw60 : List Byte := [2, 0, 0, 0, 0, 1, 2, 0, 0, 0, 0, 1, 0x88, 0xB5] ++ List.replicate 46 7
def ethSendRec : Rec := { rec0 10 (dsc Op.ETH_SEND 0x200000000000 0 60 0 0) with src := [⟨none, 2 ^ 48, 60, 0, 0, false⟩] }
def sendS : State := ((onEth { ethPort0 with filters := [filt4] }).putRec 1 ethSendRec).memWrite (base.galleryPhys 0) raw60
def gat (s : State) (x : Rec) (r : Nat) : State × Option Got := ((s.at 1000).putRec r { x with phase := .running }).gather x.part x.src (.ethFrame r)
def bytesOf (g : Option Got) : List Byte := match g with | some (.bytes b) => b | _ => []

theorem wit_EthernetFramesMove_1 : ∃ (s : State) (v : State) (t : Nat) (r : Nat) (e : Nat) (x : Rec) (b : List Byte),
    s.recReady r Op.ETH_SEND = some x ∧
    (s.qp x.queue).ethPort = some e ∧
    ((s.at t).putRec r { x with phase := .running }).gather x.part x.src (.ethFrame r) = (v, some (.bytes b)) ∧
    (s.ethPort e).up = true ∧
    s.takesEntry x x.links :=
  ⟨sendS, (gat sendS ethSendRec 1).1, 1000, 1, 0, ethSendRec, bytesOf (gat sendS ethSendRec 1).2,
   by decide, by decide, by decide +kernel, by unfold State.takesEntry; decide⟩

/-- An ETH_SEGMENT of device queue pair 10: a 54 B header and 128 B of payload, 64 B a segment. -/
def ethSegRec : Rec :=
  { rec0 10 (dsc Op.ETH_SEGMENT 0x200000000000 0 128 (54 * 2 ^ 56 + 14 * 2 ^ 48 + 34 * 2 ^ 40 + 64) 0) with part := 0, src := [⟨none, 2 ^ 48, 182, 0, 0, false⟩] }
def segS : State := ((onEth ethPort0).putRec 1 ethSegRec).memWrite (base.galleryPhys 0) (raw60 ++ List.replicate 122 9)

theorem wit_EthernetFramesMove_2 : ∃ (s : State) (v : State) (t : Nat) (r : Nat) (e : Nat) (x : Rec) (b : List Byte),
    s.recReady r Op.ETH_SEGMENT = some x ∧
    (s.qp x.queue).ethPort = some e ∧
    ((s.at t).putRec r { x with phase := .running }).gather x.part x.src (.ethFrame r) = (v, some (.bytes b)) ∧
    (s.ethPort e).up = true ∧
    x.part = 0 ∧
    x.desc.op = Op.ETH_SEGMENT :=
  ⟨segS, (gat segS ethSegRec 1).1, 1000, 1, 0, ethSegRec, bytesOf (gat segS ethSegRec 1).2,
   by decide, by decide, by decide +kernel, by decide⟩

def ethRecvRec : Rec := { rec0 10 (dsc Op.ETH_RECV 0x80000 0 9216 0 0) with rq := true, dst := [⟨none, 0x2000000080000, 9216, 0, 0, false⟩] }

theorem wit_EthernetFramesMove_3 : ∃ (s : State) (t : Nat) (r : Nat) (e : Nat) (x : Rec),
    s.recReady r Op.ETH_RECV = some x ∧
    (s.qp x.queue).ethPort = some e ∧
    (∀ f ∈ (s.ethPort e).held, f.qpn ≠ x.queue) :=
  ⟨(onEth ethPort0).putRec 1 ethRecvRec, 1000, 1, 0, ethRecvRec,
   by decide⟩

def frame60 : EthFrame := ⟨closeFrame raw60, false, false, false⟩
/-- Port 0 with the filter, a RECV waiting on queue pair 10 and 64 KiB for priority 0. -/
def recvS : State :=
  (((onEth { ethPort0 with filters := [filt4] }).setQp 10 { ethQp with recvs := [1] }).putRec 1 { ethRecvRec with phase := .waiting }).setFld F.ETH_PFC_THRESH_LIMIT 64 0 0

theorem wit_EthernetFramesMove_4 : ∃ (s : State) (t : Nat) (e : Nat) (i : Nat) (r : Nat) (f : EthFrame) (w0 : Word) (w1 : Word) (x : Rec),
    (s.ethPort e).up = true ∧
    (s.dom (portDom e)).state = .on ∧
    64 ≤ f.bytes.length ∧
    f.bytes.length ≤ 9216 ∧
    f.ended = false ∧
    f.codeErr = false ∧
    f.crcBad = false ∧
    fcsOk f.bytes = true ∧
    frameType f.bytes ≠ 0x8808 ∧
    s.isKt e f.bytes = false ∧
    s.filterFor e f.bytes = some (i, w0, w1) ∧
    bit w0 62 = false ∧
    (s.qp (bits w1 0 16)).state = .active ∧
    (s.qp (bits w1 0 16)).part = bits w0 56 6 ∧
    (s.qp (bits w1 0 16)).ethPort = some e ∧
    (s.qp (bits w1 0 16)).rq.isSome = true ∧
    s.fld F.SCH_PART_POLICE_RATE (bits w0 56 6) = 0 ∧
    (s.ethPort e).held = [] ∧
    f.bytes.length ≤ s.fld F.ETH_PFC_THRESH_LIMIT e (s.prioOf e f.bytes) * 1024 ∧
    (s.qp (bits w1 0 16)).recvs.head? = some r ∧
    s.getRec r = some x ∧
    (delivered (s.qp (bits w1 0 16)) f.bytes).length ≤ x.desc.len ∧
    s.pool.bad = [] ∧
    s.partsPoison (layOut (cutExt x.dst 0 (delivered (s.qp (bits w1 0 16)) f.bytes).length) (delivered (s.qp (bits w1 0 16)) f.bytes)) = none :=
  ⟨recvS, 1000, 0, 4, 1, frame60, filt4.2.1, filt4.2.2, { ethRecvRec with phase := .waiting },
   by decide +kernel⟩

theorem wit_EthernetFramesMove_5 : ∃ (s : State) (t : Nat) (e : Nat) (f : EthFrame),
    (s.ethPort e).up = true ∧
    (s.dom (portDom e)).state = .on ∧
    18 ≤ f.bytes.length ∧
    f.ended = false ∧
    frameType f.bytes ≠ 0x8808 ∧
    s.isKt e f.bytes = false ∧
    s.filterFor e f.bytes = none :=
  ⟨onEth ethPort0, 1000, 0, frame60,
   by decide +kernel⟩

def heldF : HeldFrame := ⟨closeFrame raw60, false, false, 0, 10, 4, 900⟩

theorem wit_EthernetFramesMove_6 : ∃ (s : State) (t : Nat) (e : Nat) (f : HeldFrame) (fs : List HeldFrame),
    (s.ethPort e).held = f :: fs ∧
    f.at0 + s.fld F.ETH_RX_CFG_RX_HOLD e * 1000 ≤ max s.now t :=
  ⟨(onEth { ethPort0 with held := [heldF] }).setFld F.ETH_RX_CFG_RX_HOLD 1 0, 2000, 0, heldF, [],
   by decide +kernel⟩

def txPkt : SwPkt := { SwPkt.ofPacket Packet.zero 0 900 84 with frame := closeFrame raw60, recId := some 1, part := 1, queue := some 4 }
/-- A frame of record 1 is being sent on port 0. -/
def sending : State := ((onEth ethPort0).putRec 1 { ethSendRec with phase := .running, left := 1 }).setOut 128 { Output.none with cur := some txPkt, busyTo := 990 }

theorem wit_EthernetFramesMove_7 : ∃ (s : State) (t : Nat) (e : Nat) (r : Nat) (k : SwPkt) (x : Rec),
    (s.out (128 + e)).cur = some k ∧
    (s.out (128 + e)).busyTo ≤ ((max s.now t : Nat) : Rat) ∧
    k.recId = some r ∧
    s.getRec r = some x ∧
    x.left = 1 ∧
    x.desc.op = Op.ETH_SEND ∧
    s.takesEntry x x.links :=
  ⟨sending, 1000, 0, 1, txPkt, { ethSendRec with phase := .running, left := 1 },
   by unfold State.takesEntry; decide +kernel⟩

theorem wit_EthernetFramesMove_8 : ∃ (s : State) (t : Nat) (e : Nat) (r : Nat) (k : SwPkt) (x : Rec),
    (s.out (128 + e)).cur = some k ∧
    (s.out (128 + e)).busyTo ≤ ((max s.now t : Nat) : Rat) ∧
    k.recId = some r ∧
    s.getRec r = some x ∧
    k.psn ∉ x.aux :=
  ⟨sending, 1000, 0, 1, txPkt, { ethSendRec with phase := .running, left := 1 },
   by decide +kernel⟩

theorem wit_EthernetPortsRun_1 : ∃ (s : State) (t : Nat) (e : Nat) (p : Nat) (a : Nat),
    Tbl.find (s.ethPort e).xoff p = some a ∧
    a + max 1 (s.fld F.ETH_RX_CFG_PFC_REFRESH e) * 1000 ≤ max s.now t ∧
    (s.out (128 + e)).cur = none ∧
    (s.ethPort e).pfcDue = [] :=
  ⟨onEth { ethPort0 with xoff := [(3, 500)] }, 900000, 0, 3, 500,
   by decide⟩

theorem wit_EthernetPortsRun_2 : ∃ (s : State) (t : Nat) (e : Nat) (p : Nat) (a : Rat),
    Tbl.find (s.ethPort e).pauses p = some a ∧
    a ≤ ((max s.now t : Nat) : Rat) :=
  ⟨onEth { ethPort0 with pauses := [(3, 995)] }, 1000, 0, 3, 995,
   by decide +kernel⟩

theorem wit_EthernetPortsRun_3 : ∃ (s : State) (t : Nat) (e : Nat),
    (s.ethPort e).training = true :=
  ⟨onEth { EthPort.down with training := true }, 1000, 0,
   by decide⟩

theorem wit_EthernetPortsRun_4 : ∃ (s : State) (t : Nat) (e : Nat) (far : Bool),
    (s.ethPort e).up = true :=
  ⟨sending.setOut 128 { Output.none with lists := [(64, [txPkt])] }, 1000, 0, true,
   by decide⟩

theorem wit_EthernetPortsRun_5 : ∃ (s : State) (t : Nat) (e : Nat) (w : Word),
    e < s.nEth ∧
    bit w 31 = true ∧
    s.serving = true ∧
    s.start.lampOut = false :=
  ⟨base, 1000, 0, word (2 ^ 31 + 1),
   by decide⟩

theorem wit_EthernetPortsRun_6 : ∃ (s : State) (t : Nat) (e : Nat) (f : Nat) (w : Word),
    e < s.nEth ∧
    f < 256 ∧
    s.serving = true :=
  ⟨base, 1000, 0, 4, word 10,
   by decide⟩

/-- The gates of port 0 run from timer value 100; the timer shows 5,000. -/
def running0 : State := ((base.setEthPort 0 { ethPort0 with gates := 2 ^ 64 - 1, start := 100, timerOff := 4000 }).setFld F.ETH_GATE_CTRL_STOPPED 0 0).setFld F.ETH_GATE_CTRL_RUN 1 0

theorem wit_EthernetPortsRun_7 : ∃ (s : State) (t : Nat) (e : Nat) (w : Word),
    e < s.nEth ∧
    bit w 31 = false ∧
    s.flag F.ETH_GATE_CTRL_STOPPED e = false ∧
    s.writesNow .ETH_GATE_CTRL e w :=
  ⟨running0, 1000, 0, word 0,
   by unfold State.writesNow; decide⟩

theorem wit_EthernetPortsRun_8 : ∃ (s : State) (t : Nat) (e : Nat) (a : Nat),
    (s.ethPort e).stopAt = some a ∧
    a ≤ (s.at t).ethTimer e :=
  ⟨(running0.setEthPort 0 { ethPort0 with timerOff := 4000, stopAt := some 4900 }), 1000, 0, 4900,
   by decide⟩

theorem wit_EthernetPortsRun_9 : ∃ (s : State) (t : Nat) (e : Nat) (w : Word),
    e < s.nEth ∧
    bit w 31 = true ∧
    s.flag F.ETH_GATE_CTRL_STOPPED e = true ∧
    s.writesNow .ETH_GATE_CTRL e w :=
  ⟨((running0.setFld F.ETH_GATE_CTRL_STOPPED 1 0).setFld F.ETH_GCL_W0_GATES (2 ^ 64 - 1) 0 0).setFld F.ETH_GATE_CYCLE_CYCLE 1000 0, 1000, 0, word (2 ^ 31 + 1),
   by unfold State.writesNow; decide⟩

theorem wit_EthernetPortsRun_10 : ∃ (s : State) (t : Nat) (e : Nat),
    s.flag F.ETH_GATE_CTRL_STOPPED e = false ∧
    (s.ethPort e).start ≤ (s.at t).ethTimer e :=
  ⟨running0, 1000, 0,
   by decide⟩

theorem wit_EthernetPortsRun_11 : ∃ (s : State) (t : Nat) (e : Nat) (w : Word),
    e < s.nEth ∧
    s.writesNow .ETH_TIMER_ADJ e w :=
  ⟨running0.setFld F.ETH_GATE_CTRL_STOPPED 1 0, 1000, 0, word (2 ^ 64 - 5),
   by unfold State.writesNow; decide⟩

/-- Port die 0 OFF with the detector armed for magic packets to 02-00-00-00-00-01. -/
def wakeS : State :=
  ((((base.setDom 76 Domain.off).setFld F.ETH_WAKE_CFG_ENABLE 1).setFld F.ETH_WAKE_CFG_MAGIC 1).setFld F.ETH_MAC_ADDR 0x020000000001 0 0).setFld F.ETH_MAC_VALID 1 0 0
def wakeFrame : EthFrame :=
  ⟨closeFrame ([2, 0, 0, 0, 0, 1, 2, 0, 0, 0, 0, 2, 0x08, 0x42] ++ List.replicate 6 0xFF ++ (List.replicate 16 [2, 0, 0, 0, 0, 1]).flatMap id), false, false, false⟩

theorem wit_EthernetPortsRun_12 : ∃ (s : State) (t : Nat) (f : EthFrame),
    s.flag F.ETH_WAKE_CFG_ENABLE = true ∧
    ((s.dom (portDom 0)).state = .off ∨ (s.dom (portDom 0)).state = .retain) ∧
    s.fld F.LAMP_STATUS_STAGE ≠ 8 ∧
    s.wakeSources f.bytes ≠ 0 :=
  ⟨wakeS, 1000, wakeFrame,
   by decide +kernel⟩

/-- A command of the device admin queue about partition p. -/
def dev (op p w2 w3 w4 w7 : Nat) : Rec := { rec0 65600 ⟨word (op * 2 ^ 24 + p), 7, word w2, word w3, word w4, 0, 0, word w7⟩ with part := 0, gen := 0 }

theorem wit_PartitionsLive_1 : ∃ (s : State) (t : Nat) (r : Nat) (x : Rec),
    s.admStart r Op.PART_CREATE = some x ∧
    (s.part x.desc.part).state = .free :=
  ⟨withAdm (dev Op.PART_CREATE 2 0x10000 0 0 0), 1000, 1, dev Op.PART_CREATE 2 0x10000 0 0 0,
   by decide⟩

/-- A small partition record: 16 queue pairs and rings, 2 regions, 2 table pages. -/
def quota2 : Desc := ⟨word (16 * 2 ^ 32 + 16), word (2 * 2 ^ 32 + 2), word (4 * 2 ^ 32), word (2 ^ 48 + 2 ^ 32), 0, 0, 0, 0⟩

theorem wit_PartitionsLive_2 : ∃ (s : State) (v : State) (r : Nat) (x : Rec) (q : Desc),
    (s.part x.desc.part).state = .free ∧
    s.recordBad q = none ∧
    s.sumBad x.desc.part q = none ∧
    s.takePool x.desc.part 0 (poolBlocks (Part.ofQuota q).pagesWanted) = some v :=
  ⟨withAdm (dev Op.PART_CREATE 2 0x10000 0 0 0), ((withAdm (dev Op.PART_CREATE 2 0x10000 0 0 0)).takePool 2 0 1).getD base, 1, dev Op.PART_CREATE 2 0x10000 0 0 0, quota2,
   by decide +kernel⟩

theorem wit_PartitionsLive_3 : ∃ (s : State) (t : Nat) (r : Nat) (x : Rec),
    s.begins r Op.PART_QUOTA x :=
  ⟨withAdm (dev Op.PART_QUOTA 1 0x10000 0 0 0), 1000, 1, dev Op.PART_QUOTA 1 0x10000 0 0 0,
   by unfold State.begins; decide⟩

theorem wit_PartitionsLive_4 : ∃ (s : State) (v : State) (r : Nat) (x : Rec) (q : Desc),
    s.recordBad q = none ∧
    s.sumBad x.desc.part q = none :=
  ⟨withAdm (dev Op.PART_QUOTA 1 0x10000 0 0 0), ((withAdm (dev Op.PART_QUOTA 1 0x10000 0 0 0)).takePool 1 1 1).getD base, 1, dev Op.PART_QUOTA 1 0x10000 0 0 0, quota2,
   by decide +kernel⟩

theorem wit_PartitionsLive_5 : ∃ (s : State) (t : Nat) (r : Nat) (x : Rec),
    s.begins r Op.PART_QUERY x ∧
    s.takesEntry x x.links :=
  ⟨withAdm (dev Op.PART_QUERY 1 0 0 0 0x20000), 1000, 1, dev Op.PART_QUERY 1 0 0 0 0x20000,
   by unfold State.begins State.takesEntry; decide⟩

theorem wit_PartitionsLive_6 : ∃ (s : State) (t : Nat) (r : Nat) (x : Rec),
    s.begins r Op.PART_RESET x :=
  ⟨(withAdm (dev Op.PART_RESET 1 0 0 0 0)).setRegion 3 rgn3, 1000, 1, dev Op.PART_RESET 1 0 0 0 0,
   by unfold State.begins; decide⟩

theorem wit_PartitionsLive_7 : ∃ (s : State) (t : Nat) (f : Nat),
    1 ≤ f ∧
    f < 64 ∧
    (s.part f).state = .active :=
  ⟨base, 1000, 1,
   by decide⟩

theorem wit_PartitionsLive_8 : ∃ (s : State) (t : Nat) (p : Nat),
    (s.part p).state = .resetting ∧
    s.readsOf p = false :=
  ⟨base.setPart 1 { part1 with state := .resetting }, 1000, 1,
   by decide +kernel⟩

theorem wit_PartitionsLive_9 : ∃ (s : State) (t : Nat) (r : Nat) (x : Rec),
    s.begins r Op.PART_DESTROY x ∧
    (s.part x.desc.part).state = .active :=
  ⟨withAdm (dev Op.PART_DESTROY 1 0 0 0 0), 1000, 1, dev Op.PART_DESTROY 1 0 0 0 0,
   by unfold State.begins; decide⟩

def destroyS : State := { base.setPart 1 { part1 with state := .destroying } with pool := { base.pool with gmap := [] } }

theorem wit_PartitionsLive_10 : ∃ (s : State) (t : Nat) (p : Nat),
    (s.part p).state = .destroying ∧
    s.readsOf p = false ∧
    s.ownBlocks p = [] ∧
    (∀ e ∈ s.pool.freeing, e.2.part ≠ p) :=
  ⟨destroyS, 1000, 1,
   by decide +kernel⟩

/-- A Keeper message of node 6 in the inbox, and the adapter's Keeper state. -/
def kbytes (mtype term seq : Nat) (body : List Byte) : List Byte := wordBytes (word (mtype * 2 ^ 56 + 2 ^ 52 + term)) ++ wordBytes (word (seq * 2 ^ 32)) ++ body
def withK (k : Kpr) : State := { base with kpr := k }
def inK (k : Kpr) (src : Nat) (bs : List Byte) : State := { withK k with tr := { base.tr with inbox := [(src, 0, bs)] } }
def kmsg (s : State) (ty : Nat) : KMsg := ((s.takeMsg 0 ty).map (·.1)).getD (KMsg.of 0 [])
def kafter (s : State) (ty : Nat) : State := ((s.takeMsg 0 ty).map (·.2)).getD s
def solo : Kpr := { Kpr.reset with role := .solo, term := 4, other := some 7, active := some 5, size := 2 }
def worker : Kpr := { Kpr.reset with role := .worker, term := 4, other := some 7, active := some 6, size := 2 }
def mirror : Kpr := { Kpr.reset with role := .mirror, term := 4, other := some 6, active := some 6, size := 1 }

theorem wit_KeepersDecide_1 : ∃ (s : State) (t : Nat) (r : Nat) (x : Rec),
    s.admStart r Op.KEEPER_SET = some x ∧
    s.takesEntry x x.links ∧
    s.kpr.copier = none ∧
    bits x.desc.w2 60 4 ≤ 2 :=
  ⟨withAdm (dev Op.KEEPER_SET 0 (1 * 2 ^ 60 + 3 * 2 ^ 48 + 6) 2 0 0), 1000, 1, dev Op.KEEPER_SET 0 (1 * 2 ^ 60 + 3 * 2 ^ 48 + 6) 2 0 0,
   by unfold State.takesEntry; decide⟩

theorem wit_KeepersDecide_2 : ∃ (s : State) (t : Nat) (r : Nat) (x : Rec),
    s.admStart r Op.FOG_PUBLISH = some x ∧
    s.takesEntry x x.links :=
  ⟨(withK solo).putRec 1 (dev Op.FOG_PUBLISH 0 (2 * 2 ^ 60) 0 0 0), 1000, 1, dev Op.FOG_PUBLISH 0 (2 * 2 ^ 60) 0 0 0,
   by unfold State.takesEntry; decide⟩

theorem wit_KeepersDecide_3 : ∃ (s : State) (t : Nat) (r : Nat) (x : Rec),
    s.admStart r Op.REDIRECT_SET = some x ∧
    s.takesEntry x x.links ∧
    s.kpr.role.isActive = true ∧
    (Tbl.has s.tr.redirs (bits x.desc.w2 32 32) = true ∨ s.tr.redirs.length < 4096) :=
  ⟨(withK solo).putRec 1 ({ dev Op.REDIRECT_SET 0 (77 * 2 ^ 32 + 5) 6 4096 0 with desc := { (dev Op.REDIRECT_SET 0 (77 * 2 ^ 32 + 5) 6 4096 0).desc with w6 := 1 } }), 1000, 1, { dev Op.REDIRECT_SET 0 (77 * 2 ^ 32 + 5) 6 4096 0 with desc := { (dev Op.REDIRECT_SET 0 (77 * 2 ^ 32 + 5) 6 4096 0).desc with w6 := 1 } },
   by decide, by unfold State.takesEntry; decide, by decide, .inr (by decide)⟩

theorem wit_KeepersDecide_4 : ∃ (s : State) (t : Nat),
    s.kpr.role ≠ .worker ∧
    s.kpr.lightAt + s.lightPeriod ≤ max s.now t ∧
    s.kpr.seq < 2 ^ 32 :=
  ⟨withK { solo with role := .paired, seq := 9 }, 2000000,
   by decide⟩

theorem wit_KeepersDecide_5 : ∃ (s : State) (t : Nat) (n : Nat),
    s.kpr.role = .mirror ∧
    s.kpr.other = some n ∧
    (s.at t).silent n = true ∧
    (s.at t).quorum = true :=
  ⟨withK mirror, 90000000, 6,
   by decide⟩

theorem wit_KeepersDecide_6 : ∃ (s : State) (t : Nat) (n : Nat),
    s.kpr.role = .worker ∧
    n ∈ s.members ∧
    (∀ m ∈ s.members, (s.at t).silent m = true) :=
  ⟨withK worker, 90000000, 6,
   by decide⟩

theorem wit_KeepersDecide_7 : ∃ (s : State) (t : Nat) (r : Nat) (x : Rec),
    s.getRec r = some x ∧
    isAdm x.queue = true ∧
    x.desc.op = Op.FOG_PUBLISH ∧
    x.phase = .waiting ∧
    s.kpr.role = .waiting ∧
    x.aux.getD 0 0 + 100000000 ≤ max s.now t ∧
    s.takesEntry x x.links :=
  ⟨(withK { solo with role := .waiting }).putRec 1 { dev Op.FOG_PUBLISH 0 (2 * 2 ^ 60) 0 0 0 with phase := .waiting, aux := [900] }, 100000900, 1, { dev Op.FOG_PUBLISH 0 (2 * 2 ^ 60) 0 0 0 with phase := .waiting, aux := [900] },
   by unfold State.takesEntry; decide⟩

theorem wit_KeepersDecide_8 : ∃ (s : State) (t : Nat),
    s.kpr.role ≠ .worker ∧
    s.fld F.KPR_CFG_SW_LIMIT ≠ 0 ∧
    s.kpr.swAt + s.fld F.KPR_CFG_SW_LIMIT * 1000000 ≤ max s.now t :=
  ⟨(withK solo).setFld F.KPR_CFG_SW_LIMIT 1, 2000000,
   by decide⟩

theorem wit_KeepersDecide_9 : ∃ (s : State) (t : Nat),
    s.serving = true :=
  ⟨withK solo, 2000,
   by decide⟩

def kDecide10 : State := inK worker 7 (kbytes 1 5 1 (wordBytes 0 ++ wordBytes (word (2 ^ 60 + 6))))

theorem wit_KeepersDecide_10 : ∃ (s : State) (v : State) (t : Nat) (k : Nat) (m : KMsg),
    s.takeMsg k 0x01 = some (m, v) ∧
    m.kgroup = s.kpr.kgroup :=
  ⟨kDecide10, kafter kDecide10 1, 1000, 0, kmsg kDecide10 1,
   by decide +kernel⟩

def kDecide11 : State := inK solo 6 (kbytes 2 4 1 (wordBytes (word (2 ^ 47))))

theorem wit_KeepersDecide_11 : ∃ (s : State) (v : State) (t : Nat) (k : Nat) (m : KMsg),
    s.takeMsg k 0x02 = some (m, v) ∧
    s.kpr.role ≠ .worker ∧
    (s.mapEntry m.src).kgroup = s.kpr.kgroup :=
  ⟨kDecide11, kafter kDecide11 2, 1000, 0, kmsg kDecide11 2,
   by decide +kernel⟩

def kDecide12 : State := inK { solo with role := .waiting, other := some 6 } 6 (kbytes 3 5 1 (wordBytes 0))

theorem wit_KeepersDecide_12 : ∃ (s : State) (v : State) (t : Nat) (k : Nat) (m : KMsg),
    s.takeMsg k 0x03 = some (m, v) ∧
    m.kgroup = s.kpr.kgroup ∧
    s.kpr.role = .waiting ∧
    s.kpr.other = some m.src :=
  ⟨kDecide12, kafter kDecide12 3, 1000, 0, kmsg kDecide12 3,
   by decide +kernel⟩

def kDecide13 : State := inK mirror 6 (kbytes 10 4 1 (wordBytes 1 ++ wordBytes (word (2 ^ 60 + 7 * 2 ^ 46)) ++ wordBytes 2))

theorem wit_KeepersDecide_13 : ∃ (s : State) (v : State) (t : Nat) (k : Nat) (n : Nat) (m : KMsg) (w : Word),
    s.takeMsg k 0x0A = some (m, v) ∧
    s.kpr.other = some m.src ∧
    s.kpr.role = .mirror ∧
    m.body ≠ [] ∧
    Change.ofBytes m.body = some (.fog w n none) :=
  ⟨kDecide13, kafter kDecide13 10, 1000, 0, 2, kmsg kDecide13 10, word (2 ^ 60 + 7 * 2 ^ 46),
   by decide +kernel⟩

def kDecide14 : State := inK { solo with other := some 6, role := .paired, syncs := [(3, .fog (word (2 ^ 60 + 7 * 2 ^ 46)) 1 none)] } 6 (kbytes 10 4 3 ([]))

theorem wit_KeepersDecide_14 : ∃ (s : State) (v : State) (t : Nat) (k : Nat) (m : KMsg) (c : Change),
    s.takeMsg k 0x0A = some (m, v) ∧
    s.kpr.other = some m.src ∧
    m.body = [] ∧
    Tbl.find s.kpr.syncs m.seq = some c :=
  ⟨kDecide14, kafter kDecide14 10, 1000, 0, kmsg kDecide14 10, .fog (word (2 ^ 60 + 7 * 2 ^ 46)) 1 none,
   by decide +kernel⟩

theorem wit_KeepersReport_1 : ∃ (s : State) (t : Nat),
    s.node = none ∧
    s.kpr.joinAt + 1000000 ≤ max s.now t ∧
    5 ≤ s.stage ∧
    s.stage ≠ 8 :=
  ⟨{ base.setPort 0 { port0 with state := .mgtOnly } with node := none }, 2000000,
   by decide⟩

def kReport2 : State := inK worker 65537 (kbytes 4 0 1 (wordBytes 9))

theorem wit_KeepersReport_2 : ∃ (s : State) (v : State) (t : Nat) (k : Nat) (m : KMsg),
    s.takeMsg k 0x04 = some (m, v) :=
  ⟨kReport2, kafter kReport2 4, 1000, 0, kmsg kReport2 4,
   by decide +kernel⟩

def kReport3 : State := inK solo 6 (kbytes 5 4 1 (wordBytes 3 ++ kbytes 4 0 1 []))

theorem wit_KeepersReport_3 : ∃ (s : State) (v : State) (t : Nat) (k : Nat) (m : KMsg),
    s.takeMsg k 0x05 = some (m, v) :=
  ⟨kReport3, kafter kReport3 5, 1000, 0, kmsg kReport3 5,
   by decide +kernel⟩

def kReport4 : State := { inK Kpr.reset 65537 (kbytes 6 4 1 (wordBytes (word (9 * 2 ^ 50 + 3 * 2 ^ 38)) ++ wordBytes 4)) with node := none }

theorem wit_KeepersReport_4 : ∃ (s : State) (v : State) (t : Nat) (k : Nat) (m : KMsg),
    s.takeMsg k 0x06 = some (m, v) ∧
    s.node = none ∧
    65536 ≤ m.src :=
  ⟨kReport4, kafter kReport4 6, 1000, 0, kmsg kReport4 6,
   by decide +kernel⟩

def kReport5 : State := inK solo 6 (kbytes 7 4 1 (reportBody 1 7 0 1 1))

theorem wit_KeepersReport_5 : ∃ (s : State) (v : State) (t : Nat) (k : Nat) (m : KMsg),
    s.takeMsg k 0x07 = some (m, v) ∧
    s.kpr.role.isActive = true ∧
    (s.mapEntry m.src).kind ≠ 0 ∧
    (s.mapEntry m.src).kgroup = s.kpr.kgroup ∧
    s.kpr.susp.length < 1024 :=
  ⟨kReport5, kafter kReport5 7, 1000, 0, kmsg kReport5 7,
   by decide +kernel⟩

theorem wit_KeepersReport_6 : ∃ (s : State) (t : Nat) (p : Nat) (own : Nat),
    s.node = some own ∧
    (s.port p).downAt.isSome = true ∧
    (s.at t).heldDown p = true ∧
    (s.port p).peerValid = true ∧
    own < (s.port p).peerNode ∧
    (∀ y ∈ s.kpr.supp, ¬ (y.kind = 2 ∧ y.node = own ∧ y.port = p)) ∧
    s.kpr.supp.length < 255 :=
  ⟨base.setPort 0 { port0 with state := .detect, downAt := some 900 }, 90000000, 0, 5,
   by decide +kernel⟩

theorem wit_KeepersReport_7 : ∃ (s : State) (t : Nat) (i : Nat) (x : Suppress),
    s.kpr.supp[i]? = some x ∧
    x.kept = false ∧
    x.at0 + s.suppressTime ≤ max s.now t ∧
    s.kpr.role.isActive = false :=
  ⟨withK { worker with supp := [⟨2, 5, 0, 1, 900, 3, false⟩] }, 90000000000, 0, ⟨2, 5, 0, 1, 900, 3, false⟩,
   by decide⟩

theorem wit_KeepersReport_8 : ∃ (s : State) (t : Nat) (i : Nat) (a : Nat) (x : Suspect),
    s.kpr.susp[i]? = some x ∧
    x.probeAt = some a ∧
    x.verdict = false ∧
    x.kind = 1 ∧
    a + s.fld F.KPR_LC_CFG_PROBE_WAIT * 1000 ≤ max s.now t ∧
    s.kpr.role = .solo ∧
    s.kpr.copier = none :=
  ⟨withK { solo with susp := [⟨1, 7, 0, 1, 0, [5, 6], 900, some 900, false, false⟩] }, 90000000, 0, 900, ⟨1, 7, 0, 1, 0, [5, 6], 900, some 900, false, false⟩,
   by decide⟩

def kReport9 : State := inK worker 6 (kbytes 8 4 1 (wordBytes (word (2 ^ 60 + 7 * 2 ^ 46 + 1)) ++ wordBytes 1 ++ wordBytes 2))

theorem wit_KeepersReport_9 : ∃ (s : State) (v : State) (t : Nat) (k : Nat) (n : Nat) (m : KMsg),
    s.takeMsg k 0x08 = some (m, v) ∧
    s.fromActive m = true ∧
    bits (wordAt m.body 0) 60 4 = 1 ∧
    bits (wordAt m.body 0) 46 14 = n ∧
    s.node ≠ some n :=
  ⟨kReport9, kafter kReport9 8, 1000, 0, 7, kmsg kReport9 8,
   by decide +kernel⟩

def kReport10 : State := inK worker 6 (kbytes 9 4 1 (wordBytes 8 ++ wordBytes (word (9 * 2 ^ 50 + 1 * 2 ^ 48 + 2 * 2 ^ 18 + 12)) ++ List.replicate 32 0 ++ List.replicate 8 0))

theorem wit_KeepersReport_10 : ∃ (s : State) (v : State) (t : Nat) (k : Nat) (n : Nat) (m : KMsg) (e : MapEntry),
    s.takeMsg k 0x09 = some (m, v) ∧
    s.fromActive m = true ∧
    mapEntries ((m.body.drop 8).length / 48) (m.body.drop 8) = [(n, e)] ∧
    e.kind ≠ 0 :=
  ⟨kReport10, kafter kReport10 9, 1000, 0, 9, kmsg kReport10 9, ⟨1, false, false, 0, 2, 12, 0, 0, 0⟩,
   by decide +kernel⟩

def kReport11 : State := inK solo 6 (kbytes 11 4 1 (wordBytes (word (2 ^ 60)) ++ List.replicate 32 5))

theorem wit_KeepersReport_11 : ∃ (s : State) (v : State) (t : Nat) (k : Nat) (m : KMsg),
    s.takeMsg k 0x0B = some (m, v) ∧
    s.kpr.role = .solo ∧
    s.kpr.copier = none ∧
    (s.mapEntry m.src).kgroup = s.kpr.kgroup ∧
    bits (wordAt m.body 0) 60 4 = 1 :=
  ⟨kReport11, kafter kReport11 11, 1000, 0, kmsg kReport11 11,
   by decide +kernel⟩

def kReport12 : State := inK worker 6 (kbytes 12 4 1 (descBytes (adm Op.QP_DESTROY 10 0 0 0).desc))

theorem wit_KeepersReport_12 : ∃ (s : State) (v : State) (t : Nat) (k : Nat) (m : KMsg),
    s.takeMsg k 0x0C = some (m, v) ∧
    s.fromActive m = true ∧
    64 ≤ m.body.length ∧
    s.admOk (Desc.ofBytes m.body) = true ∧
    s.start.lampOut = false ∧
    admRanges2 (Desc.ofBytes m.body) = ([], []) ∧
    admHost (Desc.ofBytes m.body).op = false :=
  ⟨kReport12, kafter kReport12 12, 1000, 0, kmsg kReport12 12,
   by decide +kernel⟩

def kReport13 : State := inK solo 6 (kbytes 13 4 1 (List.replicate 32 5))

theorem wit_KeepersReport_13 : ∃ (s : State) (v : State) (t : Nat) (k : Nat) (m : KMsg),
    s.takeMsg k 0x0D = some (m, v) ∧
    s.kpr.role.isActive = true ∧
    (s.mapEntry m.src).kgroup = s.kpr.kgroup :=
  ⟨kReport13, kafter kReport13 13, 1000, 0, kmsg kReport13 13,
   by decide +kernel⟩

theorem wit_StartsRun_1 : ∃ (s : State) (t : Nat),
    s.pwr.pgAt = none :=
  ⟨State.reset, 1000,
   by decide⟩

/-- What a start finds on a whole adapter, and the adapter with its supplies good for 1 ms. -/
def sound : StartInput := ⟨0xFFFFFFFF3FFFFFFF, [], [], true, true, []⟩
def pgood : State := { State.reset with pwr := { State.reset.pwr with pgAt := some 1000 } }
def atStage (n : Nat) (x : Start) : State := { base.setFld F.LAMP_STATUS_STAGE n with start := x }

theorem wit_StartsRun_2 : ∃ (s : State) (t : Nat) (a : Nat) (x : StartInput),
    s.pwr.pgAt = some a ∧
    a + 1000000 ≤ max s.now t ∧
    s.stage = 0 ∧
    s.start.running = false ∧
    s.pwr.atWarn = [] ∧
    s.soundStart x ∧
    (∀ k < 20, (s.stack k).state ≠ .evacuating) :=
  ⟨pgood, 2000000, 1000, sound,
   by unfold State.soundStart; decide +kernel⟩

theorem wit_StartsRun_3 : ∃ (s : State) (t : Nat) (w : Nat),
    s.start.running = true ∧
    s.stage = 3 ∧
    w = s.start.waves.length ∧
    w < s.sized 8 ∧
    s.nv.ledger = [] ∧
    s.arr.failed = [] :=
  ⟨atStage 3 { Start.reset with running := true }, 1000, 0,
   by decide +kernel⟩

theorem wit_StartsRun_4 : ∃ (s : State) (t : Nat),
    s.start.running = true ∧
    s.stage = 3 ∧
    s.start.waves.length = s.sized 8 :=
  ⟨atStage 3 { Start.reset with running := true, waves := List.range 8 }, 1000,
   by decide +kernel⟩

theorem wit_StartsRun_5 : ∃ (s : State) (t : Nat) (e : Nat),
    s.start.running = true ∧
    s.stage = 5 ∧
    s.start.engines = [e] ∧
    (s.engine e).failed = false :=
  ⟨(atStage 5 { Start.reset with running := true, engines := [3] }).setPort 12 { port0 with state := .disabled } |>.setFld F.FAB_PORT_CFG_ENABLE 1 12, 1000, 3,
   by decide +kernel⟩

theorem wit_LossesAndResets_3 : ∃ (s : State) (t : Nat) (w : Word) (x : StartInput),
    (bits w 16 16 ≠ 0xD5E7 ∨ bit w 0 = false) :=
  ⟨base, 1000, word 1, sound,
   .inl (by decide)⟩

theorem wit_LossesAndResets_4 : ∃ (s : State) (t : Nat) (w : Word) (x : StartInput),
    bits w 16 16 = 0xD5E7 ∧
    bit w 0 = true ∧
    s.pwr.atWarn = [] ∧
    s.soundStart x ∧
    s.poolGone = false ∧
    Tbl.rising s.parts = true :=
  ⟨base, 1000, word (0xD5E7 * 2 ^ 16 + 1), sound,
   by unfold State.soundStart; decide +kernel⟩

theorem wit_LossesAndResets_5 : ∃ (s : State) (t : Nat) (r : Nat) (x : Rec) (y : StartInput),
    s.begins r Op.DEVICE_RESET x ∧
    s.pwr.atWarn = [] ∧
    s.soundStart y ∧
    s.poolGone = false ∧
    Tbl.rising s.parts = true :=
  ⟨withAdm (dev Op.DEVICE_RESET 0 0 0 0 0), 1000, 1, dev Op.DEVICE_RESET 0 0 0 0 0, sound,
   by unfold State.begins State.soundStart; decide +kernel⟩

theorem wit_TripsEndService_1 : ∃ (s : State) (t : Nat) (die : Nat) (temp : Nat),
    die ≤ 30 :=
  ⟨base, 1000, 3, 106,
   by decide⟩

theorem wit_TripsEndService_2 : ∃ (s : State) (t : Nat) (w : Word) (x : StartInput),
    bits w 16 16 = 0xD5E7 ∧
    bit w 0 = true ∧
    s.pwr.atWarn ≠ [] :=
  ⟨{ base with pwr := { base.pwr with atWarn := [3] } }, 1000, word (0xD5E7 * 2 ^ 16 + 1), sound,
   by decide⟩

theorem wit_TripsEndService_3 : ∃ (s : State) (t : Nat) (r : Nat) (x : Rec) (y : StartInput),
    s.begins r Op.DEVICE_RESET x ∧
    s.pwr.atWarn ≠ [] :=
  ⟨{ withAdm (dev Op.DEVICE_RESET 0 0 0 0 0) with pwr := { base.pwr with atWarn := [3] } }, 1000, 1, dev Op.DEVICE_RESET 0 0 0 0 0, sound,
   by unfold State.begins; decide +kernel⟩

theorem wit_TripsEndService_4 : ∃ (s : State) (t : Nat) (x : StartInput),
    s.pwr.waiting = none :=
  ⟨{ base with pwr := { base.pwr with atWarn := [3] } }, 1000, sound,
   by decide⟩

theorem wit_TripsEndService_5 : ∃ (s : State) (t : Nat) (x : StartInput),
    s.pwr.waiting = some true ∧
    s.soundStart x ∧
    s.poolGone = false ∧
    Tbl.rising s.parts = true :=
  ⟨{ base with pwr := { base.pwr with atWarn := [3], waiting := some true } }, 1000, sound,
   by unfold State.soundStart; decide +kernel⟩

/-- An IMAGE_STAGE of 64 bytes of the Gallery at offset 0 of 128, and the staging area taking pieces. -/
def stageRec : Rec := { dev Op.IMAGE_STAGE 0 0x10000 64 0 0 with src := [⟨none, 2 ^ 48, 64, 0, 0, false⟩], desc := { (dev Op.IMAGE_STAGE 0 0x10000 64 0 0).desc with w5 := 128 } }
def staging (s : State) (runs : List (Nat × Nat)) : State :=
  let s := (s.setStg .staging).setBlk (physBlk 3 9) ⟨.internal, .staging 0⟩
  { s with stg := { s.stg with total := 128, runs := runs } }
def imgS : State := (staging (withAdm stageRec) [(64, 128)]).memWrite (base.galleryPhys 0) (List.replicate 64 7)
def admGat (s : State) (x : Rec) : State × Option Got := ((s.at 1000).admWait 1).gather 1 x.src (.admin 1)
def admGat0 (s : State) (x : Rec) : State × Option Got := ((s.at 1000).admWait 1).gather 0 x.src (.admin 1)
theorem some_getD {α : Type} {o : Option α} (d : α) (h : o.isSome = true) : o = some (o.getD d) := by cases o with | none => cases h | some a => rfl
def isBytes (g : Option Got) : Bool := match g with | some (.bytes _) => true | _ => false
theorem isBytes_eq {g : State × Option Got} (h : isBytes g.2 = true) : g = (g.1, some (.bytes (bytesOf g.2))) := by
  obtain ⟨s, g⟩ := g
  match g, h with
  | some (.bytes b), _ => rfl

theorem wit_ImagesMove_1 : ∃ (s : State) (v : State) (t : Nat) (r : Nat) (x : Rec) (b : List Byte),
    s.begins r Op.IMAGE_STAGE x ∧
    ((s.at t).admWait r).gather x.part x.src (.admin r) = (v, some (.bytes b)) :=
  ⟨imgS, (admGat0 imgS stageRec).1, 1000, 1, stageRec, bytesOf (admGat0 imgS stageRec).2,
   by unfold State.begins; decide, isBytes_eq (g := admGat0 imgS stageRec) (by decide +kernel)⟩

theorem wit_ImagesMove_2 : ∃ (s : State) (t : Nat) (r : Nat) (x : Rec),
    s.begins r Op.IMAGE_COMMIT x ∧
    s.takesEntry x x.links :=
  ⟨staging (withAdm (dev Op.IMAGE_COMMIT 0 0 0 0 0)) [(0, 128)], 1000, 1, dev Op.IMAGE_COMMIT 0 0 0 0 0,
   by unfold State.begins State.takesEntry; decide +kernel⟩

theorem wit_ImagesMove_3 : ∃ (s : State) (t : Nat),
    s.stg? = .verifying ∧
    s.pool.bad = [] :=
  ⟨(staging base [(0, 128)]).setStg .verifying, 1000,
   by decide⟩

/-- A committed image of 128 bytes of zeros being written. -/
def writing (lampOut : Bool) : State :=
  let s := (staging (withAdm { dev Op.IMAGE_COMMIT 0 0 0 0 0 with phase := .waiting }) [(0, 128)]).setStg .writing
  { s with stg := { s.stg with commit := if lampOut then none else some 1, auto := lampOut, digest := imgDigest [] }, start := { s.start with lampOut := lampOut } }

theorem wit_ImagesMove_4 : ∃ (s : State) (t : Nat) (ok : Bool) (x : StartInput),
    s.stg? = .writing ∧
    s.start.lampOut = false ∧
    s.pool.bad = [] :=
  ⟨writing false, 1000, true, sound,
   by decide +kernel⟩

set_option maxRecDepth 100000 in
theorem wit_ImagesMove_5 : ∃ (s : State) (t : Nat) (x : StartInput),
    s.stg? = .writing ∧
    s.start.lampOut = true ∧
    s.pool.bad = [] ∧
    s.stgGood 0 s.stg.total = true ∧
    imgDigest (s.staged.take (imgLen s.staged)) = s.stg.digest ∧
    s.pwr.atWarn = [] ∧
    s.soundStart x :=
  ⟨writing true, 1000, sound,
   by decide, by decide, by decide, by decide +kernel, congrArg imgDigest (by decide +kernel : (writing true).staged.take (imgLen (writing true).staged) = []), by unfold State.soundStart; decide +kernel⟩

theorem wit_ImagesMove_6 : ∃ (s : State) (t : Nat) (r : Nat) (x : Rec),
    s.begins r Op.IMAGE_DISCARD x ∧
    s.takesEntry x x.links ∧
    s.stg.commit = none :=
  ⟨staging (withAdm (dev Op.IMAGE_DISCARD 0 0 0 0 0)) [], 1000, 1, dev Op.IMAGE_DISCARD 0 0 0 0 0,
   by unfold State.begins State.takesEntry; decide⟩

/-- A manifest for 128 workers at most: one worker, node 6 under node 5, one chunk of an image of 7,232 bytes. -/
def manHead : List Byte :=
  wordBytes (word (0x5A514D46 * 2 ^ 32 + 2 ^ 16)) ++ wordBytes (word (7232 * 2 ^ 32 + 1)) ++ wordBytes (word (2 ^ 48 + 1)) ++ List.replicate 40 0
    ++ leBytes 4 (5 * 2 ^ 14 + 6) ++ List.replicate 64 9
def man1 : List Byte := manHead ++ List.replicate 7232 0
def dbytes (ty n chunk relay origin : Nat) (body : List Byte) : List Byte :=
  wordBytes (word (ty * 2 ^ 56 + 2 ^ 52 + n)) ++ (wordBytes (word (chunk * 2 ^ 48 + relay * 2 ^ 40 + body.length)) ++ wordBytes (word origin) ++ wordBytes 0 ++ body)
def inD (s : State) (src : Nat) (bs : List Byte) : State := { s with tr := { s.tr with inbox := [(src, 1, bs)] } }
def dmsg (s : State) (ty : Nat) : DMsg := ((s.takeDist 0 ty).map (·.1)).getD (DMsg.of 0 [])
def dafter (s : State) (ty : Nat) : State := ((s.takeDist 0 ty).map (·.2)).getD s
def verified (s : State) : State :=
  let s := (s.setStg .verified).setBlk (physBlk 3 9) ⟨.internal, .staging 0⟩
  { s with kpr := solo, stg := { s.stg with total := 7232 } }
def distRec : Rec := { dev Op.IMAGE_DISTRIBUTE 0 0x10000 7364 0 0 with src := [⟨none, 2 ^ 48, 7364, 0, 0, false⟩] }
def distS : State := (verified (withAdm distRec)).memWrite (base.galleryPhys 0) manHead

set_option maxRecDepth 100000 in
theorem wit_ImagesAreDistributed_1 : ∃ (s : State) (v : State) (t : Nat) (r : Nat) (x : Rec) (b : List Byte),
    s.begins r Op.IMAGE_DISTRIBUTE x ∧
    s.kpr.role.isActive = true ∧
    s.stg? = .verified ∧
    s.stg.dist = none ∧
    ((s.at t).admWait r).gather x.part x.src (.admin r) = (v, some (.bytes b)) ∧
    manForm b = true ∧
    manLen b = s.stg.total :=
  ⟨distS, (admGat0 distS distRec).1, 1000, 1, distRec, bytesOf (admGat0 distS distRec).2,
   by unfold State.begins; decide, by decide, by decide, by decide, isBytes_eq (g := admGat0 distS distRec) (by decide +kernel), by decide +kernel, by decide +kernel⟩

theorem wit_ImagesAreDistributed_2 : ∃ (s : State) (t : Nat) (r : Nat) (x : Rec),
    s.begins r Op.IMAGE_DISTRIBUTE x ∧
    s.takesEntry x x.links ∧
    s.kpr.role.isActive = false :=
  ⟨withAdm distRec, 1000, 1, distRec,
   by unfold State.begins State.takesEntry; decide⟩

def manS : State := inD { base with kpr := worker } 6 (dbytes 1 0 0 255 6 (wordBytes 1))

theorem wit_ImagesAreDistributed_3 : ∃ (s : State) (v : State) (w : State) (t : Nat) (k : Nat) (m : DMsg),
    (s.at t).takeDist k 1 = some (m, v) ∧
    (if s.start.lampOut = true then 65536 ≤ m.src else m.src < 65536 ∧ m.relay = 255 ∧ s.kpr.active = some m.origin) ∧
    s.stgFree = true ∧
    v.stgTake (manLen m.body) true = some w :=
  ⟨manS, dafter (manS.at 1000) 1, ((dafter (manS.at 1000) 1).stgTake 0 true).getD base, 1000, 0, dmsg (manS.at 1000) 1,
   by decide +kernel⟩

def manB : State := manS.setStg .staging

theorem wit_ImagesAreDistributed_4 : ∃ (s : State) (v : State) (t : Nat) (k : Nat) (m : DMsg),
    s.takeDist k 1 = some (m, v) ∧
    m.src < 65536 ∧
    m.relay = 255 ∧
    s.start.lampOut = false ∧
    s.kpr.active = some m.origin ∧
    (s.stgFree = false ∨ s.manifestOk m.body = false) ∧
    s.node ≠ some m.origin :=
  ⟨manB, dafter manB 1, 1000, 0, dmsg manB 1,
   by decide +kernel, by decide +kernel, by decide +kernel, by decide +kernel, by decide +kernel, .inl (by decide +kernel), by decide +kernel⟩

def manR : State := (inD { base with kpr := worker } 6 (dbytes 1 0 0 3 6 (wordBytes 1))).setPort 3 { port0 with state := .mgtOnly }

theorem wit_ImagesAreDistributed_5 : ∃ (s : State) (v : State) (t : Nat) (k : Nat) (m : DMsg),
    s.takeDist k 1 = some (m, v) ∧
    m.src < 65536 ∧
    m.relay ≠ 255 ∧
    s.kpr.active = some m.src ∧
    (s.port m.relay).state = .mgtOnly ∧
    (∀ n, s.node = some n → n < 16384) :=
  ⟨manR, dafter manR 1, 1000, 0, dmsg manR 1,
   by decide +kernel⟩

theorem leNat_lt (l : List Byte) : leNat l < 256 ^ l.length := by
  induction l with
  | nil => decide
  | cons b l ih =>
    have := b.isLt
    simp only [leNat, List.length_cons, Nat.pow_succ]
    omega
theorem leNat_leBytes (n : Nat) : ∀ x, leNat (leBytes n x) = x % 256 ^ n := by
  induction n with
  | zero => intro x; simp [leBytes, leNat, Nat.mod_one]
  | succ n ih =>
    intro x
    simp only [leBytes, leNat, ih, BitVec.toNat_ofNat]
    show _ = x % (256 ^ n * 256)
    rw [Nat.mul_comm (256 ^ n) 256]
    exact Nat.mod_mul.symm
theorem leBytes_length (n : Nat) : ∀ x, (leBytes n x).length = n := by
  induction n with
  | zero => intro x; rfl
  | succ n ih => intro x; simp [leBytes, ih]
theorem wordAt_zero (w : Word) (l : List Byte) : wordAt (wordBytes w ++ l) 0 = w := by
  have h : ((wordBytes w ++ l).drop (8 * 0)).take 8 = wordBytes w := by
    rw [Nat.mul_zero, List.drop_zero]; exact List.take_left' (leBytes_length 8 w.toNat)
  unfold wordAt; rw [h]; unfold wordBytes; rw [leNat_leBytes]
  apply BitVec.eq_of_toNat_eq
  simp only [word, BitVec.toNat_ofNat]
  have := w.isLt
  omega
theorem manifestId_lt (m : List Byte) : manifestId m < 2 ^ 32 := by
  refine Nat.lt_of_lt_of_le (leNat_lt _) (Nat.le_trans (Nat.pow_le_pow_right (by decide) (List.length_take_le 4 _)) (by decide))
theorem take_dbytes (s : State) (src ty n chunk relay origin : Nat) (body : List Byte) (hn : n < 2 ^ 32) (ht : ty < 256) :
    (inD s src (dbytes ty n chunk relay origin body)).takeDist 0 ty
      = some (DMsg.of src (dbytes ty n chunk relay origin body), inD s src (dbytes ty n chunk relay origin body) |> fun s => { s with tr := { s.tr with inbox := [] } }) := by
  have h : mtypeOf (dbytes ty n chunk relay origin body) = ty := by
    unfold mtypeOf dbytes; rw [wordAt_zero]; simp only [bits, bitsN, word, BitVec.toNat_ofNat]; omega
  unfold State.takeDist inD
  simp only [List.getElem?_cons_zero, h, and_self, if_true, List.eraseIdx_cons_zero]
theorem id_dbytes (src ty n chunk relay origin : Nat) (body : List Byte) (hn : n < 2 ^ 32) (ht : ty < 256) :
    (DMsg.of src (dbytes ty n chunk relay origin body)).id = n := by
  unfold DMsg.of dbytes; rw [wordAt_zero]; simp only [bits, bitsN, word, BitVec.toNat_ofNat]; omega
def chunkS : State := let s := verified base |>.setStg .staging
  { s with kpr := worker, stg := { s.stg with man := man1 } }

theorem wit_ImagesAreDistributed_6 : ∃ (s : State) (v : State) (t : Nat) (k : Nat) (m : DMsg),
    s.takeDist k 2 = some (m, v) ∧
    (m.src < 65536 → m.relay = 255) ∧
    s.stg? = .staging ∧
    s.ownManifest m.id = true ∧
    s.stg.port = (if 65536 ≤ m.src then some (m.src - 65536) else none) ∧
    m.chunk < manChunks s.stg.man ∧
    m.chunk ∉ s.stg.got :=
  ⟨inD chunkS 6 (dbytes 2 (manifestId man1) 0 255 6 []), { inD chunkS 6 (dbytes 2 (manifestId man1) 0 255 6 []) with tr := { (inD chunkS 6 (dbytes 2 (manifestId man1) 0 255 6 [])).tr with inbox := [] } }, 1000, 0, DMsg.of 6 (dbytes 2 (manifestId man1) 0 255 6 []),
   take_dbytes chunkS 6 2 (manifestId man1) 0 255 6 [] (manifestId_lt _) (by decide), fun _ => by decide +kernel, by decide +kernel, by rw [show State.ownManifest _ _ = (man1 != [] && manifestId man1 == _) from rfl, (id_dbytes 6 2 (manifestId man1) 0 255 6 [] (manifestId_lt _) (by decide)), beq_self_eq_true]; decide +kernel, by decide +kernel, by decide +kernel, by decide +kernel⟩

theorem wit_ImagesAreDistributed_7 : ∃ (s : State) (t : Nat) (a : Nat),
    s.stg? = .staging ∧
    s.fld F.SEC_STAGE_SOURCE = 1 ∧
    s.stg.lastAt + 5000000 ≤ max s.now t ∧
    s.start.lampOut = false ∧
    s.stg.port = none ∧
    s.kpr.active = some a ∧
    s.node ≠ some a :=
  ⟨((staging { base with kpr := worker } []).setFld F.SEC_STAGE_SOURCE 1), 6000000, 6,
   by decide⟩

def reqS : State := let s := verified base
  { s with stg := { s.stg with distMan := man1 } }

theorem wit_ImagesAreDistributed_8 : ∃ (s : State) (v : State) (t : Nat) (k : Nat) (c : Nat) (m : DMsg),
    s.takeDist k 3 = some (m, v) ∧
    m.src < 65536 ∧
    m.relay = 255 ∧
    s.node ≠ some m.src ∧
    s.stg.distMan ≠ [] ∧
    manifestId s.stg.distMan = m.id ∧
    s.stg? = .verified ∧
    s.stg.total = manLen s.stg.distMan ∧
    c < manChunks s.stg.distMan ∧
    ((m.body.getD (c / 8) 0).toNat).testBit (c % 8) = true ∧
    s.stgGood (65536 * c) (chunkLen s.stg.total c) = true ∧
    s.pool.bad = [] :=
  ⟨inD reqS 6 (dbytes 3 (manifestId man1) 0 255 6 [1]), { inD reqS 6 (dbytes 3 (manifestId man1) 0 255 6 [1]) with tr := { (inD reqS 6 (dbytes 3 (manifestId man1) 0 255 6 [1])).tr with inbox := [] } }, 1000, 0, 0, DMsg.of 6 (dbytes 3 (manifestId man1) 0 255 6 [1]),
   take_dbytes reqS 6 3 (manifestId man1) 0 255 6 [1] (manifestId_lt _) (by decide), by decide +kernel, by decide +kernel, by decide +kernel, by decide +kernel, (id_dbytes 6 3 (manifestId man1) 0 255 6 [1] (manifestId_lt _) (by decide)).symm, by decide +kernel, by decide +kernel, by decide +kernel, by decide +kernel, by decide +kernel, by decide⟩

def statS : State := let s := verified base
  { s with stg := { s.stg with distMan := man1, dist := some 1 } }

theorem wit_ImagesAreDistributed_9 : ∃ (s : State) (v : State) (t : Nat) (k : Nat) (r : Nat) (m : DMsg),
    s.takeDist k 4 = some (m, v) ∧
    m.src < 65536 ∧
    m.relay = 255 ∧
    m.origin = m.src ∧
    s.stg.dist = some r ∧
    manifestId s.stg.distMan = m.id ∧
    m.src ∈ (manTree s.stg.distMan).map (·.2) :=
  ⟨inD statS 6 (dbytes 4 (manifestId man1) 0 255 6 []), { inD statS 6 (dbytes 4 (manifestId man1) 0 255 6 []) with tr := { (inD statS 6 (dbytes 4 (manifestId man1) 0 255 6 [])).tr with inbox := [] } }, 1000, 0, 1, DMsg.of 6 (dbytes 4 (manifestId man1) 0 255 6 []),
   take_dbytes statS 6 4 (manifestId man1) 0 255 6 [] (manifestId_lt _) (by decide), by decide +kernel, by decide +kernel, by decide +kernel, rfl, (id_dbytes 6 4 (manifestId man1) 0 255 6 [] (manifestId_lt _) (by decide)).symm, by decide +kernel⟩

theorem wit_ImagesAreDistributed_10 : ∃ (s : State) (t : Nat) (r : Nat) (x : Rec),
    s.stg.dist = some r ∧
    s.stg.sentAt + 10000000000 ≤ max s.now t ∧
    s.mayReply r x :=
  ⟨(let s := withAdm { distRec with phase := .waiting }; { s with stg := { s.stg with dist := some 1, good := [6], bad := [7] } }), 10000000000, 1, { distRec with phase := .waiting },
   by unfold State.mayReply State.takesEntry; decide⟩

theorem wit_DaymarkAnswers_1 : ∃ (s : State) (t : Nat) (r : Nat) (x : Rec) (a : Extent),
    s.begins r Op.LEDGER_READ x ∧
    s.takesEntry x (linksOf x.xtra) ∧
    x.resultTo s a (32 * bits x.desc.w3 0 9) ∧
    (∀ e ∈ s.nv.ledger, e.length = 4) ∧
    1 ≤ bits x.desc.w3 0 9 ∧
    bits x.desc.w2 0 20 + bits x.desc.w3 0 9 ≤ s.nv.ledger.length :=
  ⟨{ (withAdm ({ dev Op.LEDGER_READ 1 (0) (1) 0 0 with xtra := [⟨none, 0x2000000090000, 32, 0, 0, false⟩] })) with nv := { base.nv with ledger := [base.ledgerEntry 2 3 1 0] } }, 1000, 1, { dev Op.LEDGER_READ 1 (0) (1) 0 0 with xtra := [⟨none, 0x2000000090000, 32, 0, 0, false⟩] }, ⟨none, 0x2000000090000, 32, 0, 0, false⟩,
   by unfold State.begins State.takesEntry Rec.resultTo; decide +kernel⟩

theorem wit_DaymarkAnswers_2 : ∃ (s : State) (t : Nat) (r : Nat) (x : Rec) (a : Extent) (b : List Byte),
    s.begins r Op.DAYMARK_READ x ∧
    s.takesEntry x (linksOf x.xtra) ∧
    b = (if bits x.desc.w2 0 4 = 0 then s.identity else Config.certChain (bits x.desc.w2 0 4)).take (bits x.desc.w3 0 15) ∧
    x.resultTo s a b.length ∧
    b ≠ [] :=
  ⟨withAdm ({ dev Op.DAYMARK_READ 1 (0) (32) 0 0 with xtra := [⟨none, 0x2000000090000, 32, 0, 0, false⟩] }), 1000, 1, { dev Op.DAYMARK_READ 1 (0) (32) 0 0 with xtra := [⟨none, 0x2000000090000, 32, 0, 0, false⟩] }, ⟨none, 0x2000000090000, 32, 0, 0, false⟩, (withAdm ({ dev Op.DAYMARK_READ 1 (0) (32) 0 0 with xtra := [⟨none, 0x2000000090000, 32, 0, 0, false⟩] })).identity.take 32,
   by unfold State.begins; decide, by unfold State.takesEntry; decide, rfl, by unfold Rec.resultTo; decide +kernel⟩

def attRec : Rec := { dev Op.ATTEST 1 0x10000 64 0 0 with src := [⟨none, 2 ^ 48, 64, 0, 0, false⟩], xtra := [⟨none, 0x2000000090000, 4992, 0, 0, false⟩] }
def attS : State := (withAdm attRec).memWrite (base.galleryPhys 0) (List.replicate 64 7)

theorem wit_DaymarkAnswers_3 : ∃ (s : State) (v : State) (t : Nat) (r : Nat) (x : Rec) (a : Extent) (b : List Byte),
    s.begins r Op.ATTEST x ∧
    s.takesEntry x (linksOf x.xtra) ∧
    x.resultTo s a 4992 ∧
    ((s.at t).admWait r).gather x.part x.src (.admin r) = (v, some (.bytes b)) :=
  ⟨attS, (admGat0 attS attRec).1, 1000, 1, attRec, ⟨none, 0x2000000090000, 4992, 0, 0, false⟩, bytesOf (admGat0 attS attRec).2,
   by unfold State.begins; decide, by unfold State.takesEntry; decide, by unfold Rec.resultTo; decide, isBytes_eq (g := admGat0 attS attRec) (by decide +kernel)⟩

def keyGat (s : State) (x : Rec) : State × Option Got := ((s.at 1000).markGen 1 x |>.admWait 1).gather x.part x.src (.admin 1)
def kekSRec : Rec := { adm Op.KEK_ESTABLISH 0x200000000000 1568 3 0 with src := [⟨none, 2 ^ 48, 1568, 0, 0, false⟩] }
def kekS : State := withAdm kekSRec

theorem wit_KeysAreLoaded_1 : ∃ (s : State) (v : State) (t : Nat) (r : Nat) (x : Rec) (b : List Byte),
    s.begins r Op.KEK_ESTABLISH x ∧
    s.takesEntry x x.links ∧
    ((s.at t).markGen r x |>.admWait r).gather x.part x.src (.admin r) = (v, some (.bytes b)) :=
  ⟨kekS, (keyGat kekS kekSRec).1, 1000, 1, kekSRec, bytesOf (keyGat kekS kekSRec).2,
   by unfold State.begins; decide, by unfold State.takesEntry; decide, isBytes_eq (g := keyGat kekS kekSRec) (by decide +kernel)⟩

def keySRec : Rec := { adm Op.KEY_LOAD 0x200000000000 48 3 0 with src := [⟨none, 2 ^ 48, 48, 0, 0, false⟩] }
def keyS : State := withAdm keySRec

theorem wit_KeysAreLoaded_2 : ∃ (s : State) (v : State) (t : Nat) (r : Nat) (x : Rec) (b : List Byte),
    s.begins r Op.KEY_LOAD x ∧
    s.takesEntry x x.links ∧
    bit x.desc.w4 5 = false ∧
    ((s.at t).markGen r x |>.admWait r).gather x.part x.src (.admin r) = (v, some (.bytes b)) :=
  ⟨keyS, (keyGat keyS keySRec).1, 1000, 1, keySRec, bytesOf (keyGat keyS keySRec).2,
   by unfold State.begins; decide, by unfold State.takesEntry; decide, by decide, isBytes_eq (g := keyGat keyS keySRec) (by decide +kernel)⟩

theorem wit_KeysAreLoaded_3 : ∃ (s : State) (t : Nat) (r : Nat) (x : Rec),
    s.begins r Op.KEY_LOAD x ∧
    s.takesEntry x x.links ∧
    bit x.desc.w4 5 = true ∧
    bits x.desc.w5 0 32 = 0 :=
  ⟨{ (withAdm (adm Op.KEY_LOAD 0 0 (2 ^ 5 + 3) 0)) with sec := { base.sec with tkeys := [(19, [1])], tx := [(1, 3)] } }, 1000, 1, adm Op.KEY_LOAD 0 0 (2 ^ 5 + 3) 0,
   by unfold State.begins State.takesEntry; decide⟩

theorem wit_LampQueuesAndSamples_1 : ∃ (s : State) (t : Nat) (r : Nat) (x : Rec) (e : Extent),
    s.begins r Op.FAULTQ_CREATE x ∧
    s.takesEntry x x.links ∧
    s.xring x.desc.part x.desc.w2.toNat (2 ^ bits x.desc.w3 59 5 * 32) needW = (Stat.SUCCESS, 0, 0, e) :=
  ⟨withAdm (adm Op.FAULTQ_CREATE 0x80000 (6 * 2 ^ 59 + 3 * 2 ^ 48) 0 0), 1000, 1, adm Op.FAULTQ_CREATE 0x80000 (6 * 2 ^ 59 + 3 * 2 ^ 48) 0 0, ⟨none, 0x2000000080000, 2048, 0, 0, false⟩,
   by unfold State.begins State.takesEntry; decide⟩

theorem wit_LampQueuesAndSamples_2 : ∃ (s : State) (t : Nat) (r : Nat) (x : Rec),
    s.begins r Op.FAULTQ_DESTROY x ∧
    s.takesEntry x x.links ∧
    (s.faultq x.desc.part).state ≠ .free ∧
    x.desc.part < 64 :=
  ⟨(withAdm (adm Op.FAULTQ_DESTROY 0 0 0 0)).setFaultq 1 { (base.faultq 1) with state := .active }, 1000, 1, adm Op.FAULTQ_DESTROY 0 0 0 0,
   by unfold State.begins State.takesEntry; decide⟩

theorem wit_LampQueuesAndSamples_4 : ∃ (s : State) (t : Nat) (r : Nat) (x : Rec),
    s.begins r Op.SAMPLE_ALLOC x ∧
    s.takesEntry x x.links :=
  ⟨withAdm (dev Op.SAMPLE_ALLOC 0 1 0xFFFFF 0 0), 1000, 1, dev Op.SAMPLE_ALLOC 0 1 0xFFFFF 0 0,
   by unfold State.begins State.takesEntry; decide +kernel⟩

theorem wit_LampQueuesAndSamples_5 : ∃ (s : State) (t : Nat) (r : Nat) (x : Rec),
    s.begins r Op.SAMPLE_FREE x ∧
    s.takesEntry x x.links :=
  ⟨(let s := (withAdm (dev Op.SAMPLE_FREE 0 0 0 0 0)).setBlk (physBlk 3 9) ⟨.internal, .sample 0⟩; { s with cnt := { s.cnt with blocks := 1 } }), 1000, 1, dev Op.SAMPLE_FREE 0 0 0 0 0,
   by unfold State.begins State.takesEntry; decide⟩

theorem wit_LampQueuesAndSamples_6 : ∃ (s : State) (t : Nat) (r : Nat) (x : Rec) (a : Extent),
    s.begins r Op.SAMPLE_READ x ∧
    s.takesEntry x (linksOf x.xtra) ∧
    s.cnt.blocks ≠ 0 ∧
    s.clean ∧
    x.resultTo s a (128 * bits x.desc.w3 0 13) ∧
    1 ≤ bits x.desc.w3 0 13 :=
  ⟨(let s := (withAdm ({ dev Op.SAMPLE_READ 1 (0) (1) 0 0 with xtra := [⟨none, 0x2000000090000, 128, 0, 0, false⟩] })).setBlk (physBlk 3 9) ⟨.internal, .sample 0⟩; { s with cnt := { s.cnt with blocks := 1 } }), 1000, 1, { dev Op.SAMPLE_READ 1 (0) (1) 0 0 with xtra := [⟨none, 0x2000000090000, 128, 0, 0, false⟩] }, ⟨none, 0x2000000090000, 128, 0, 0, false⟩,
   by unfold State.begins State.takesEntry Rec.resultTo State.clean; decide⟩

theorem wit_LampQueuesAndSamples_7 : ∃ (s : State) (t : Nat) (h : Nat),
    h < 2 ^ 32 ∧
    s.serving = true :=
  ⟨base, 1000, 77,
   by decide⟩

theorem wit_LampQueuesAndSamples_10 : ∃ (s : State) (t : Nat) (a : Nat) (i : Nat) (j : Nat) (q : Nat) (h : Nat) (w : Word) (r : RegName),
    regAt a = some (r, i, j) ∧
    s.seqOf r i w = some q ∧
    Tbl.find s.io.stops q = some h ∧
    h ≠ 2 ∧
    r.place.width = 64 :=
  ⟨{ base with io := { base.io with stops := [(0, 1)] } }, 1000, 0x6A0100, 0, 0, 0, 1, word 77, RegName.SWT_DIR_LO,
   by decide +kernel⟩

theorem wit_LampQueuesAndSamples_11 : ∃ (s : State) (t : Nat) (d : Desc),
    s.admOk d = true ∧
    s.start.lampOut = false ∧
    admRanges2 d = ([], []) ∧
    admHost d.op = false :=
  ⟨base, 1000, (dev Op.PART_RESET 1 0 0 0 0).desc,
   by decide +kernel⟩

/-- A domain in a state since 900, with ceiling c, in an adapter otherwise without work. -/
def dozing (d c : Nat) (x : DomState) : State :=
  ((base.setDom d ⟨x, some 900, 0, 0, false, c, 0⟩).setFld F.PWR_DOMAIN_CEILING c d).setFld F.PWR_DOMAIN_HOLD 0 d

theorem wit_DomainsSleepAndWake_1 : ∃ (s : State) (t : Nat) (d : Nat),
    s.domFitted d = true ∧
    (s.dom d).state = .on ∧
    s.flag F.PWR_DOMAIN_HOLD d = false ∧
    ((s.dom d).ceil = 1 ∨ (s.dom d).ceil = 2) ∧
    (s.at t).idle d = true ∧
    (s.at t).idleOver d = true :=
  ⟨dozing 3 2 .on, 90000000000, 3,
   by decide +kernel⟩

theorem wit_DomainsSleepAndWake_2 : ∃ (s : State) (t : Nat) (d : Nat),
    (s.flag F.PWR_DOMAIN_HOLD d = true ∨ (s.dom d).ceil = 0) :=
  ⟨base.setFld F.PWR_DOMAIN_HOLD 1 3, 90000000000, 3,
   .inl (by decide)⟩

theorem wit_DomainsSleepAndWake_3 : ∃ (s : State) (t : Nat) (d : Nat),
    s.domFitted d = true ∧
    (s.dom d).state = .retain ∧
    s.flag F.PWR_DOMAIN_HOLD d = false ∧
    (s.dom d).ceil = 2 ∧
    (s.at t).idle d = true ∧
    (s.at t).offOk d = true ∧
    (s.at t).idleOver d = true :=
  ⟨dozing 3 2 .retain, 90000000000, 3,
   by decide +kernel⟩

theorem wit_DomainsSleepAndWake_4 : ∃ (s : State) (t : Nat) (d : Nat),
    (s.dom d).state = .waking ∧
    s.waiting = [] :=
  ⟨base.setDom 24 ⟨.waking, none, 0, 900, true, 0, 0⟩, 1000, 24,
   by decide⟩

theorem wit_DomainsSleepAndWake_5 : ∃ (s : State) (t : Nat) (d : Nat),
    (s.dom d).state = .waking ∧
    (s.dom d).wakeAt + wakeMax d (s.dom d).fromOff < max s.now t ∧
    s.waiting = [] ∧
    (d < 16 ∨ (44 ≤ d ∧ d < 76)) :=
  ⟨{ base.setDom 3 ⟨.waking, none, 0, 900, true, 0, 0⟩ with arr := { base.arr with amap := [(96, 103)] } }, 90000000, 3,
   by decide, by decide, by decide, .inl (by decide)⟩

theorem wit_DomainsSleepAndWake_6 : ∃ (s : State) (t : Nat),
    s.flag F.LAMP_RTC_ALARM_ENABLE = true ∧
    (s.at t).rtc = s.fld F.LAMP_RTC_ALARM_AT :=
  ⟨((base.setFld F.LAMP_RTC_ALARM_ENABLE 1).setFld F.LAMP_RTC_ALARM_AT (base.at 1000).rtc).setLink 0 { linkUp with vecs := [(0, ⟨0xFEE00000, 7, false, false⟩)] }, 1000,
   by decide⟩

theorem wit_DomainsSleepAndWake_7 : ∃ (s : State) (t : Nat) (l : Nat),
    s.linkFitted l = true ∧
    (s.link l).l1 = true :=
  ⟨base.setLink 1 { linkUp with l1 := true }, 1000, 1,
   by decide⟩

theorem wit_DomainsSleepAndWake_8 : ∃ (s : State) (t : Nat) (l : Nat),
    s.linkFitted l = true ∧
    (s.link l).up = true :=
  ⟨base, 1000, 1,
   by decide⟩

theorem wit_DomainsSleepAndWake_9 : ∃ (s : State) (t : Nat) (p : Nat),
    p < s.nPorts :=
  ⟨(base.setDom 44 Domain.off).setDom 16 ⟨.retain, none, 0, 0, false, 0, 0⟩, 1000, 0,
   by decide⟩

theorem wit_DomainsSleepAndWake_10 : ∃ (s : State) (t : Nat) (d : Nat) (w : Word),
    d < 84 :=
  ⟨base.setDom 3 Domain.off, 1000, 3, word (2 ^ 13 + 2 ^ 14 + 5 * 2 ^ 16),
   by decide⟩

theorem wit_UnitsFail_1 : ∃ (s : State) (t : Nat) (die : Nat) (temp : Nat),
    die ≤ 30 ∧
    temp < 256 :=
  ⟨base, 1000, 3, 95,
   by decide⟩

theorem wit_UnitsFail_3 : ∃ (s : State) (t : Nat) (e : Nat) (temp : Nat),
    e < s.nEngines ∧
    90 ≤ temp ∧
    s.waiting = [] :=
  ⟨base.setPort 12 { port0 with state := .up }, 1000, 3, 90,
   by decide⟩

theorem wit_UnitsFail_5 : ∃ (s : State) (t : Nat),
    s.waiting = [] :=
  ⟨base, 1000,
   by decide⟩

theorem wit_UnitsFail_6 : ∃ (s : State) (t : Nat) (unit : Nat) (detail : Nat),
    unit < s.nDies :=
  ⟨base, 1000, 1, 0,
   by decide⟩

theorem wit_UnitsFail_8 : ∃ (s : State) (t : Nat) (unit : Nat) (detail : Nat),
    unit < s.sized 8 ∧
    s.waiting = [] :=
  ⟨base, 1000, 0, 0,
   by decide⟩

theorem wit_UnitsFail_9 : ∃ (s : State) (t : Nat) (unit : Nat) (detail : Nat),
    unit < 4 ∧
    2 * unit < s.sized 8 ∧
    s.waiting = [] :=
  ⟨base, 1000, 3, 0,
   by decide⟩

theorem wit_StacksAndBlocksAreLost_1 : ∃ (s : State) (t : Nat) (k : Nat),
    k < s.nStacks ∧
    (s.stack k).state ≠ .absent ∧
    (s.stack k).state ≠ .lost ∧
    s.areasOn k = [] ∧
    s.waiting = [] :=
  ⟨base, 1000, 2,
   by decide⟩

theorem wit_StacksAndBlocksAreLost_2 : ∃ (s : State) (t : Nat) (k : Nat),
    ((s.stack k).state = .absent ∨ (s.stack k).state = .lost) :=
  ⟨base.setStack 2 ⟨.lost, 0, 0, 0⟩, 1000, 2,
   .inr (by decide)⟩

/-- The Gallery block on its way to stack 3. -/
def moving : State := { ((base.setFld F.GRT_EVAC_CFG_AUTO 0).setBlk (physBlk 3 6) ⟨.gallery, .gallery 0⟩).memWrite (base.galleryPhys 0) [1, 2, 3] with
  pool := { (((base.setFld F.GRT_EVAC_CFG_AUTO 0).setBlk (physBlk 3 6) ⟨.gallery, .gallery 0⟩).memWrite (base.galleryPhys 0) [1, 2, 3]).pool with migr := [(physBlk 2 5, ⟨physBlk 2 5, physBlk 3 6⟩)] } }
theorem no_evacuating (k : Nat) (l : List Nat) :
    (Tbl.get Stack.none (l.map (fun k => (k, (⟨.serving, 0, 0, 0⟩ : Stack)))) k).state ≠ .evacuating := by
  induction l with
  | nil => exact (by decide : Stack.none.state ≠ .evacuating)
  | cons a l ih => simp only [List.map_cons, Tbl.get]; split; exact (by decide : StackState.serving ≠ .evacuating); exact ih

theorem wit_StacksAndBlocksAreLost_3 : ∃ (s : State) (t : Nat) (b : Nat) (m : Migration),
    Tbl.find s.pool.migr b = some m ∧
    (s.blk b).state = .gallery ∧
    m.dst ≠ b ∧
    s.waiting = [] ∧
    (∀ k, (s.stack k).state ≠ .evacuating) ∧
    s.flag F.GRT_EVAC_CFG_AUTO = false ∧
    Memory.wf s.pool.mem = true ∧
    (∀ c ∈ s.pool.mem, c.1 / blkBytes ≠ m.dst) :=
  ⟨moving, 1000, physBlk 2 5, ⟨physBlk 2 5, physBlk 3 6⟩,
   by decide +kernel, by decide +kernel, by decide +kernel, by decide +kernel, by intro k; exact no_evacuating k (List.range 20), by decide +kernel, by decide +kernel, by decide +kernel⟩

theorem wit_CountersCount_1 : ∃ (s : State) (t : Nat) (n : Nat),
    n < 128 ∧
    2 ^ 32 ≤ Tbl.get 0 (s.at t).cnt.vals n :=
  ⟨{ base with cnt := { base.cnt with vals := [(3, 2 ^ 32 + 5)] } }, 1000, 3,
   by decide⟩

theorem wit_CountersCount_2 : ∃ (s : State) (t : Nat) (a : Nat),
    a < 2 ^ 48 ∧
    s.serving = true :=
  ⟨base, 1000, 900,
   by decide⟩

theorem wit_CountersCount_3 : ∃ (s : State) (t : Nat),
    s.flag F.CNT_STOP_ARMED = true :=
  ⟨base.setFld F.CNT_STOP_ARMED 1, 1000,
   by decide⟩

theorem wit_CountersCount_4 : ∃ (s : State) (t : Nat),
    s.serving = true :=
  ⟨base, 1000,
   by decide⟩

theorem wit_CountersCount_5 : ∃ (s : State) (t : Nat) (n : Nat) (v : Nat),
    n < 128 ∧
    s.serving = true :=
  ⟨base, 1000, 127, 2 ^ 32 + 4,
   by decide⟩

theorem wit_CountersCount_6 : ∃ (s : State) (t : Nat) (n : Nat) (w : Word),
    n < 128 ∧
    s.serving = true :=
  ⟨base, 1000, 127, word (2 ^ 31 + 5),
   by decide⟩

theorem wit_CountersCount_7 : ∃ (s : State) (t : Nat),
    max s.now t % (s.cnt.window * 1000) = 0 ∧
    s.cnt.winAt < max s.now t ∧
    Tbl.rising s.cnt.tx = true ∧
    Tbl.rising s.cnt.rx = true :=
  ⟨base, 100000,
   by decide +kernel⟩

theorem wit_RegistersAreWritten_1 : ∃ (s : State) (t : Nat) (a : Nat) (i : Nat) (j : Nat) (w : Word) (r : RegName),
    r ∈ plainRegs ∧
    a < partBar ∧
    regAt a = some (r, i, j) ∧
    s.regServes r i j = true ∧
    s.io.late = [] :=
  ⟨base, 1000, 264, 0, 0, word 77, RegName.LAMP_POSITION,
   by decide +kernel⟩

theorem wit_RegistersAreWritten_2 : ∃ (s : State) (t : Nat) (a : Nat) (width : Nat) (w : Word),
    a < partBar ∧
    regAt a = none :=
  ⟨base, 1000, 1, 8, word 77,
   by decide +kernel⟩

theorem wit_RegistersAreWritten_3 : ∃ (s : State) (t : Nat) (l : Nat) (a : Nat) (width : Nat) (w : Word),
    l ≠ 0 ∧
    a < partBar :=
  ⟨base, 1000, 1, 264, 32, word 77,
   by decide +kernel⟩

theorem wit_RegistersAreWritten_4 : ∃ (s : State) (a : Nat) (i : Nat) (j : Nat) (r : RegName),
    a < partBar ∧
    a % 8 = 0 ∧
    regAt a = some (r, i, j) ∧
    regAt (a + 4) = none ∧
    r.place.width = 64 :=
  ⟨base, 0x6A0100, 0, 0, RegName.SWT_DIR_LO,
   by decide +kernel⟩

theorem wit_RegistersAreWritten_5 : ∃ (s : State) (t : Nat) (l : Nat) (p : Nat) (v : Nat) (w : Word),
    p < 64 ∧
    v < 2048 :=
  ⟨base.setLink 0 { linkUp with vecs := [(2049, ⟨0xFEE00000, 7, true, true⟩)] }, 1000, 0, 1, 1, word 9,
   by decide +kernel⟩

theorem wit_QueriesFrame_1 : ∃ (c : Instr) (r : Nat) (s : State) (u : State),
    queryRec c = some r ∧
    exec c s = .next u :=
  ⟨.qpQuery 1000 1, 1, base, base.at 1000,
   by decide, rfl⟩

set_option maxRecDepth 100000 in
theorem wit_StepKeepsMemoryForm_1 : ∃ (s : State) (u : State),
    Memory.wf s.pool.mem = true ∧
    step s = .next u :=
  ⟨{ base with pending := [.lampRtcSet 1000 5] }, (base.at 1000).rtcSet 5,
   by decide, rfl⟩

/-- Any command at all goes on: the premise of PlainCommandsFrame. -/
theorem wit_PlainCommandsFrame : ∃ (c : Instr) (s u : State), exec c s = .next u := ⟨.lampRtcSet 1000 5, base, (base.at 1000).rtcSet 5, rfl⟩

/-! ### Terms that are not well formed -/

def goodWord : Codeword := ⟨List.replicate 10 (List.replicate 64 0), 0, false, false⟩
def badPkt : Packet := { Packet.zero with trailer := [0] }
theorem test_wf_long_payload : Packet.wf { Packet.zero with pay := List.replicate 8193 0 } = false := by rw [Packet.wf, List.length_replicate]; rfl

/-- The check of a start input refuses these. -/
theorem test_wf_start_input : [(Instr.supplyGood 1 (StartInput.mk 0 [(9, 0, 0)] [] true true [])).wf, (Instr.lampResetWrite 1 0 (StartInput.mk 0
    [(9, 0, 0)] [] true true [])).wf, (Instr.deviceReset 1 1 (StartInput.mk 0 [(9, 0, 0)] [] true true [])).wf, (Instr.imageWriteDone 1 true
    (StartInput.mk 0 [(9, 0, 0)] [] true true [])).wf, (Instr.dieBelowWarnAt 1 (StartInput.mk 0 [(9, 0, 0)] [] true true [])).wf].all (fun b => !b)
    = true := by decide

/-- The check of a wave refuses these. -/
theorem test_wf_wave : [(Instr.arrayWave 1 8 []).wf].all (fun b => !b) = true := by decide

/-- The check of a die refuses these. -/
theorem test_wf_die : [(Instr.thermalWarn 1 31 1).wf, (Instr.thermalTrip 1 31 1).wf].all (fun b => !b) = true := by decide

/-- The check of a engine refuses these. -/
theorem test_wf_engine : [(Instr.engineOverheat 1 32 1).wf, (Instr.laserLost 1 32 true).wf].all (fun b => !b) = true := by decide

/-- The check of a domain refuses these. -/
theorem test_wf_domain : [(Instr.idleTimerExpiry 1 84).wf, (Instr.retainToOff 1 84).wf, (Instr.domainOn 1 84).wf, (Instr.wakeFailed 1 84).wf,
    (Instr.pwrHoldWrite 1 84 0).wf].all (fun b => !b) = true := by decide

/-- The check of a link refuses these. -/
theorem test_wf_link : [(Instr.linkL1Exit 1 17).wf, (Instr.perstDeassert 1 17).wf, (Instr.perstAssert 1 17).wf, (Instr.linkDllDown 1 17).wf,
    (Instr.linkStall 1 17).wf, (Instr.flr 1 17 1).wf, (Instr.qpDoorbell 1 17 1 1 4 0).wf, (Instr.ringDoorbell 1 17 1 1 4 0).wf, (Instr.linkL1Entry 1
    17).wf].all (fun b => !b) = true := by decide

/-- The check of a port refuses these. -/
theorem test_wf_port : [(Instr.fabricLinkWake 1 128).wf, (Instr.codewordReceived 1 128 goodWord).wf, (Instr.credit 1 128 []).wf, (Instr.audit 1 128
    []).wf, (Instr.echo 1 128 1).wf, (Instr.echoRsp 1 128 1 1).wf, (Instr.train 1 128 1 true 1 1 1 1 1 true).wf, (Instr.health 1 128 1 1).wf,
    (Instr.creditFlitTimer 1 128).wf, (Instr.fabLaneLock 1 128).wf, (Instr.fabAlignDone 1 128).wf, (Instr.fabLockLost 1 128).wf,
    (Instr.ueLimitReached 1 128).wf, (Instr.fabPortEnable 1 128 0).wf, (Instr.fabPortRetrain 1 128 0).wf, (Instr.linkHoldExpiry 1 128).wf,
    (Instr.healthFlitTimer 1 128).wf].all (fun b => !b) = true := by decide

/-- The check of a number of 32 bits refuses these. -/
theorem test_wf_number_of_32_bits : [(Instr.pwrHoldWrite 1 1 (word (2 ^ 32))).wf, (Instr.lampResetWrite 1 (word (2 ^ 32)) sound).wf,
    (Instr.admSqDoorbell 1 (2 ^ 32)).wf, (Instr.cntValueWrite 1 1 (2 ^ 32)).wf, (Instr.cntSampleHeadWrite 1 (2 ^ 32)).wf].all (fun b => !b) = true
    := by decide

/-- The check of a time of 48 bits refuses these. -/
theorem test_wf_time_of_48_bits : [(Instr.lampRtcSet 1 (2 ^ 48)).wf, (Instr.echo 1 1 (2 ^ 48)).wf, (Instr.cntStopArm 1 (2 ^ 48)).wf].all (fun b =>
    !b) = true := by decide

/-- The check of a i3c request refuses these. -/
theorem test_wf_i3c_request : [(Instr.i3cRequest 1 (.read 3 64)).wf].all (fun b => !b) = true := by decide

/-- The check of a accelerator port refuses these. -/
theorem test_wf_accelerator_port : [(Instr.accDetach 1 16).wf, (Instr.accAttach 1 16).wf, (Instr.accEnable 1 16).wf, (Instr.cxlMemAccess 1 16 64
    none).wf].all (fun b => !b) = true := by decide

/-- The check of a function refuses these. -/
theorem test_wf_function : [(Instr.flr 1 1 64).wf].all (fun b => !b) = true := by decide

/-- The check of a cxl line refuses these. -/
theorem test_wf_cxl_line : [(Instr.cxlMemAccess 1 1 32 none).wf, (Instr.cxlMemAccess 1 1 64 (some [])).wf].all (fun b => !b) = true := by decide

/-- The check of a queue refuses these. -/
theorem test_wf_queue : [(Instr.fetchRetryTimer 1 65601 true).wf, (Instr.refetchTimer 1 65601 true).wf, (Instr.fetchResume 1 65601 true).wf].all
    (fun b => !b) = true := by decide

/-- The check of a partition refuses these. -/
theorem test_wf_partition : [(Instr.qpDoorbell 1 1 64 1 4 0).wf, (Instr.ringDoorbell 1 1 64 1 4 0).wf, (Instr.qmgPadmEnable 1 0 0).wf,
    (Instr.qmgPadmEnable 1 64 0).wf, (Instr.partResetReadsDone 1 64).wf, (Instr.shaperDebtCleared 1 64 true).wf].all (fun b => !b) = true := by
    decide

/-- The check of a number of 16 bits refuses these. -/
theorem test_wf_number_of_16_bits : [(Instr.qpDoorbell 1 1 1 65536 4 0).wf, (Instr.ringDoorbell 1 1 1 65536 4 0).wf, (Instr.qpDestroyDone 1
    65536).wf].all (fun b => !b) = true := by decide

/-- The check of a doorbell length refuses these. -/
theorem test_wf_doorbell_length : [(Instr.qpDoorbell 1 1 1 1 2 0).wf, (Instr.ringDoorbell 1 1 1 1 2 0).wf].all (fun b => !b) = true := by decide

/-- The check of a slot bytes refuses these. -/
theorem test_wf_slot_bytes : [(Instr.descriptorFetchReturn 1 1 []).wf].all (fun b => !b) = true := by decide

/-- The check of a plan refuses these. -/
theorem test_wf_plan : [(Instr.planUnloadResume 1 16384).wf, (Instr.invocationStart 1 16384).wf, (Instr.invocationEnd 1 16384).wf, (Instr.passBegin
    1 16384 1 []).wf, (Instr.passEnd 1 16384 1 1).wf, (Instr.lagLimitTimer 1 16384 1).wf, (Instr.abortAfterTimer 1 16384 1).wf].all (fun b => !b) =
    true := by decide

/-- The check of a packet refuses these. -/
theorem test_wf_packet : [(Instr.writeData 1 badPkt none []).wf, (Instr.sendData 1 badPkt none).wf, (Instr.readReq 1 badPkt none []).wf,
    (Instr.readRsp 1 badPkt none).wf, (Instr.atomicReq 1 badPkt none []).wf, (Instr.atomicRsp 1 badPkt).wf, (Instr.ack 1 badPkt).wf, (Instr.nak 1
    badPkt).wf, (Instr.errorRsp 1 badPkt).wf, (Instr.mgtData 1 badPkt).wf, (Instr.colData 1 badPkt none).wf, (Instr.colReady 1 badPkt none).wf,
    (Instr.colAbort 1 badPkt none).wf].all (fun b => !b) = true := by decide

/-- The check of a aes finding refuses these. -/
theorem test_wf_aes_finding : [(Instr.writeData 1 Packet.zero (some ⟨32, false, false⟩) []).wf, (Instr.sendData 1 Packet.zero (some ⟨32, false,
    false⟩)).wf, (Instr.readReq 1 Packet.zero (some ⟨32, false, false⟩) []).wf, (Instr.readRsp 1 Packet.zero (some ⟨32, false, false⟩)).wf,
    (Instr.atomicReq 1 Packet.zero (some ⟨32, false, false⟩) []).wf, (Instr.outputPacketStart 1 1 (some ⟨32, false, false⟩) 0).wf, (Instr.colData 1
    Packet.zero (some ⟨32, false, false⟩)).wf, (Instr.colReady 1 Packet.zero (some ⟨32, false, false⟩)).wf, (Instr.colAbort 1 Packet.zero (some ⟨32,
    false, false⟩)).wf].all (fun b => !b) = true := by decide

/-- The check of a ecc finding refuses these. -/
theorem test_wf_ecc_finding : [(Instr.writeData 1 Packet.zero none [⟨20 * 65536 * 32768, true⟩]).wf, (Instr.readReq 1 Packet.zero none [⟨20 * 65536
    * 32768, true⟩]).wf, (Instr.atomicReq 1 Packet.zero none [⟨20 * 65536 * 32768, true⟩]).wf, (Instr.passBegin 1 1 1 [⟨20 * 65536 * 32768,
    true⟩]).wf].all (fun b => !b) = true := by decide

/-- The check of a queue pair refuses these. -/
theorem test_wf_queue_pair : [(Instr.beaconDebtZero 1 65536).wf, (Instr.pacerRelease 1 65536).wf].all (fun b => !b) = true := by decide

/-- The check of a input list refuses these. -/
theorem test_wf_input_list : [(Instr.switchPacketArrival 1 140 1).wf].all (fun b => !b) = true := by decide

/-- The check of a output refuses these. -/
theorem test_wf_output : [(Instr.outputPacketStart 1 146 none 0).wf, (Instr.frameBoundary 1 146).wf].all (fun b => !b) = true := by decide

/-- The check of a finding refuses these. -/
theorem test_wf_finding : [(Instr.outputPacketStart 1 1 none 3).wf, (Instr.passEnd 1 1 1 3).wf].all (fun b => !b) = true := by decide

/-- The check of a codeword refuses these. -/
theorem test_wf_codeword : [(Instr.codewordReceived 1 1 ⟨[], 0, false, false⟩).wf].all (fun b => !b) = true := by decide

/-- The check of a credit counts refuses these. -/
theorem test_wf_credit_counts : [(Instr.credit 1 1 (List.replicate 33 0)).wf, (Instr.audit 1 1 (List.replicate 33 0)).wf].all (fun b => !b) = true
    := by decide

/-- The check of a identity refuses these. -/
theorem test_wf_identity : [(Instr.train 1 1 1 true 16384 1 1 1 1 true).wf, (Instr.train 1 1 1 true 1 128 1 1 1 true).wf, (Instr.train 1 1 1 true 1
    1 8 1 1 true).wf, (Instr.train 1 1 1 true 1 1 1 8 1 true).wf, (Instr.keeperSilence 1 16384).wf].all (fun b => !b) = true := by decide

/-- The check of a beacon port refuses these. -/
theorem test_wf_beacon_port : [(Instr.schBeaconPortWrite 1 136 0).wf].all (fun b => !b) = true := by decide

/-- The check of a stack refuses these. -/
theorem test_wf_stack : [(Instr.stackLost 1 20).wf].all (fun b => !b) = true := by decide

/-- The check of a ethernet port refuses these. -/
theorem test_wf_ethernet_port : [(Instr.ethFrameReceived 1 8 frame60).wf, (Instr.pfcRefreshTimer 1 8 1).wf, (Instr.pfcPauseExpiry 1 8 1).wf,
    (Instr.rxHoldExpiry 1 8).wf, (Instr.ethFrameTxDone 1 8 true).wf, (Instr.ethLinkUp 1 8).wf, (Instr.ethLinkDown 1 8 true).wf, (Instr.ethPortEnable
    1 8 0).wf, (Instr.ethFilterCommit 1 8 1 0).wf, (Instr.ethGateStop 1 8 0).wf, (Instr.gateStopTakesHold 1 8).wf, (Instr.ethGateRestart 1 8 0).wf,
    (Instr.gateEntryStart 1 8).wf, (Instr.ethTimerAdjWrite 1 8 0).wf].all (fun b => !b) = true := by decide

/-- The check of a frame refuses these. -/
theorem test_wf_frame : [(Instr.ethFrameReceived 1 1 ⟨[], false, false, false⟩).wf, (Instr.ethWakeMatch 1 ⟨[], false, false, false⟩).wf].all (fun b
    => !b) = true := by decide

/-- The check of a priority refuses these. -/
theorem test_wf_priority : [(Instr.pfcRefreshTimer 1 1 8).wf, (Instr.pfcPauseExpiry 1 1 8).wf].all (fun b => !b) = true := by decide

/-- The check of a filter refuses these. -/
theorem test_wf_filter : [(Instr.ethFilterCommit 1 1 256 0).wf].all (fun b => !b) = true := by decide

/-- The check of a group refuses these. -/
theorem test_wf_group : [(Instr.groupAbortEnd 1 4096).wf].all (fun b => !b) = true := by decide

/-- The check of a counter refuses these. -/
theorem test_wf_counter : [(Instr.counterWrap 1 128).wf, (Instr.cntValueWrite 1 128 1).wf, (Instr.cntCtrlWrite 1 128 0).wf].all (fun b => !b) = true
    := by decide

/-- The check of a register access refuses these. -/
theorem test_wf_register_access : [(Instr.registerWrite 1 ⟨0, 264⟩ 16 0).wf, (Instr.registerWrite 1 ⟨0, 3⟩ 64 0).wf, (Instr.registerWrite 1 ⟨17,
    264⟩ 64 0).wf, (Instr.registerWrite 1 ⟨0, 264⟩ 32 (word (2 ^ 32))).wf].all (fun b => !b) = true := by decide

/-- The check of a link settings refuses these. -/
theorem test_wf_link_settings : [(Instr.pcieLinkUp 1 17 1 4 1 1 ⟨true, 50000, false⟩).wf, (Instr.pcieLinkUp 1 1 3 4 1 1 ⟨true, 50000, false⟩).wf,
    (Instr.pcieLinkUp 1 1 1 3 1 1 ⟨true, 50000, false⟩).wf, (Instr.pcieLinkUp 1 1 1 4 0 1 ⟨true, 50000, false⟩).wf, (Instr.pcieLinkUp 1 1 1 4 8 1
    ⟨true, 50000, false⟩).wf, (Instr.pcieLinkUp 1 1 1 4 1 1 ⟨true, 49999, false⟩).wf, (Instr.pcieLinkUp 1 1 1 4 1 1 ⟨true, 50000001, false⟩).wf].all
    (fun b => !b) = true := by decide

/-- The check of a unit kind refuses these. -/
theorem test_wf_unit_kind : [(Instr.unitFailedInService 1 2 1 1).wf].all (fun b => !b) = true := by decide

/-- The same commands with operands in range pass. -/
theorem test_wf_in_range_0 : [(Instr.supplyGood 1 sound).wf, (Instr.arrayWave 1 1 []).wf, (Instr.thermalWarn 1 1 1).wf, (Instr.thermalTrip 1 1
    1).wf, (Instr.engineOverheat 1 1 1).wf, (Instr.idleTimerExpiry 1 1).wf, (Instr.retainToOff 1 1).wf, (Instr.domainOn 1 1).wf, (Instr.wakeFailed 1
    1).wf, (Instr.linkL1Exit 1 1).wf, (Instr.perstDeassert 1 1).wf, (Instr.perstAssert 1 1).wf, (Instr.fabricLinkWake 1 1).wf, (Instr.pwrHoldWrite 1
    1 0).wf, (Instr.lampResetWrite 1 0 sound).wf, (Instr.deviceReset 1 1 sound).wf, (Instr.lampRtcSet 1 1).wf, (Instr.i3cRequest 1 (.read 8 64)).wf,
    (Instr.linkDllDown 1 1).wf, (Instr.linkStall 1 1).wf, (Instr.accDetach 1 1).wf, (Instr.accAttach 1 1).wf, (Instr.accEnable 1 1).wf, (Instr.flr 1
    1 1).wf, (Instr.cxlMemAccess 1 1 64 none).wf, (Instr.fetchRetryTimer 1 1 true).wf, (Instr.qpDoorbell 1 1 1 1 4 0).wf, (Instr.ringDoorbell 1 1 1
    1 4 0).wf, (Instr.admSqDoorbell 1 1).wf, (Instr.qmgPadmEnable 1 1 0).wf, (Instr.descriptorFetchReturn 1 1 (List.replicate 64 0)).wf,
    (Instr.refetchTimer 1 1 true).wf, (Instr.fetchResume 1 1 true).wf, (Instr.qpDestroyDone 1 1).wf, (Instr.partResetReadsDone 1 1).wf,
    (Instr.planUnloadResume 1 1).wf, (Instr.imageWriteDone 1 true sound).wf, (Instr.writeData 1 Packet.zero none []).wf, (Instr.sendData 1
    Packet.zero none).wf, (Instr.readReq 1 Packet.zero none []).wf, (Instr.readRsp 1 Packet.zero none).wf, (Instr.atomicReq 1 Packet.zero none
    []).wf, (Instr.atomicRsp 1 Packet.zero).wf, (Instr.ack 1 Packet.zero).wf, (Instr.nak 1 Packet.zero).wf, (Instr.errorRsp 1 Packet.zero).wf,
    (Instr.mgtData 1 Packet.zero).wf, (Instr.shaperDebtCleared 1 1 true).wf, (Instr.beaconDebtZero 1 1).wf, (Instr.pacerRelease 1 1).wf,
    (Instr.switchPacketArrival 1 1 1).wf, (Instr.outputPacketStart 1 1 none 0).wf, (Instr.codewordReceived 1 1 goodWord).wf].all id = true := by
    decide +kernel

/-- The same commands with operands in range pass. -/
theorem test_wf_in_range_1 : [(Instr.credit 1 1 []).wf, (Instr.audit 1 1 []).wf, (Instr.echo 1 1 1).wf, (Instr.echoRsp 1 1 1 1).wf, (Instr.train 1 1
    1 true 1 1 1 1 1 true).wf, (Instr.health 1 1 1 1).wf, (Instr.creditFlitTimer 1 1).wf, (Instr.frameBoundary 1 1).wf, (Instr.fabLaneLock 1 1).wf,
    (Instr.fabAlignDone 1 1).wf, (Instr.fabLockLost 1 1).wf, (Instr.ueLimitReached 1 1).wf, (Instr.laserLost 1 1 true).wf, (Instr.fabPortEnable 1 1
    0).wf, (Instr.fabPortRetrain 1 1 0).wf, (Instr.schBeaconPortWrite 1 1 0).wf, (Instr.stackLost 1 1).wf, (Instr.ethFrameReceived 1 1 frame60).wf,
    (Instr.pfcRefreshTimer 1 1 1).wf, (Instr.pfcPauseExpiry 1 1 1).wf, (Instr.rxHoldExpiry 1 1).wf, (Instr.ethFrameTxDone 1 1 true).wf,
    (Instr.ethLinkUp 1 1).wf, (Instr.ethLinkDown 1 1 true).wf, (Instr.ethPortEnable 1 1 0).wf, (Instr.ethFilterCommit 1 1 1 0).wf,
    (Instr.ethGateStop 1 1 0).wf, (Instr.gateStopTakesHold 1 1).wf, (Instr.ethGateRestart 1 1 0).wf, (Instr.gateEntryStart 1 1).wf,
    (Instr.ethTimerAdjWrite 1 1 0).wf, (Instr.ethWakeMatch 1 frame60).wf, (Instr.colData 1 Packet.zero none).wf, (Instr.colReady 1 Packet.zero
    none).wf, (Instr.colAbort 1 Packet.zero none).wf, (Instr.groupAbortEnd 1 1).wf, (Instr.invocationStart 1 1).wf, (Instr.invocationEnd 1 1).wf,
    (Instr.passBegin 1 1 1 []).wf, (Instr.passEnd 1 1 1 1).wf, (Instr.lagLimitTimer 1 1 1).wf, (Instr.abortAfterTimer 1 1 1).wf,
    (Instr.keeperSilence 1 1).wf, (Instr.linkHoldExpiry 1 1).wf, (Instr.counterWrap 1 1).wf, (Instr.cntStopArm 1 1).wf, (Instr.cntValueWrite 1 1
    1).wf, (Instr.cntCtrlWrite 1 1 0).wf, (Instr.cntSampleHeadWrite 1 1).wf, (Instr.registerWrite 1 ⟨0, 264⟩ 64 0).wf, (Instr.pcieLinkUp 1 1 1 4 1 1
    ⟨true, 50000, false⟩).wf, (Instr.linkL1Entry 1 1).wf, (Instr.dieBelowWarnAt 1 sound).wf, (Instr.healthFlitTimer 1 1).wf].all id = true := by
    decide +kernel

/-! ### The spec's own numbers -/

/-- The CRC check value of R187. -/
theorem test_crc64 : crc64 [0x31, 0x32, 0x33, 0x34, 0x35, 0x36, 0x37, 0x38, 0x39] = 0x995DC9BBDF1939FA := by decide +kernel

/-- The key of spec/02, Registering a region: generation 19, index 0x1_2B47. -/
theorem test_key : keyOf 19 0x12B47 = 0x00992B47 ∧ keyGen 0x00992B47 = 19 ∧ keyIdx 0x00992B47 = 0x12B47 := by decide

/-- Descriptor A of the tile of spec/05: opcode, STRIDED, 512 rows of 6,144 B. -/
theorem test_tile : let d : Desc := ⟨0x00000A1010010000, 0, 0, 0, 0x0000020000001800, 0, 0, 0⟩
    d.op = Op.WRITE ∧ d.strided = true ∧ d.rows = 512 ∧ d.len = 6144 ∧ d.total = 3145728 := by decide

/-- The Gallery atomic of spec/01: 2^24 + 1.0 stays 2^24. -/
theorem test_atomic_fp32 : atomicNew 3 0x4B800000 0x3F800000 0 = 0x4B800000 := by decide +kernel

def fp32 (xs : List Nat) : List Contrib := xs.map (fun x => (leBytes 4 x, []))
def bf16 (xs : List Nat) : List Contrib := xs.map (fun x => (leBytes 2 x, []))
/-- Control word of a SUM: input and output format, SAT, NATIVE, nearest-even. -/
def sumCtl (i o sat native : Nat) : Word := word (i * 2 ^ 55 + o * 2 ^ 50 + sat * 2 ^ 46 + native * 2 ^ 45)

/-- The FP32 contributions of spec/09 in two orders: 2.0 in both. -/
theorem test_exact_sum : (reducePass (sumCtl 1 1 0 0) 0 0 1 (fp32 [0x4B800000, 0x3F800000, 0x3F800000, 0xCB800000])).codes = [0x40000000] ∧
    (reducePass (sumCtl 1 1 0 0) 0 0 1 (fp32 [0xCB800000, 0x3F800000, 0x4B800000, 0x3F800000])).codes = [0x40000000] := by decide +kernel

/-- The special values of spec/09. -/
theorem test_special_sums : (reducePass (sumCtl 1 1 1 0) 0 0 1 (fp32 [0x40000000, 0x7F800000, 0x40A00000, 0xFF800000])).codes = [0x7FC00000] ∧
    (reducePass (sumCtl 1 1 1 0) 0 0 1 (fp32 [0x7F61B1E6, 0x7F61B1E6, 0x3F800000])).codes = [0x7F7FFFFF] ∧
    (reducePass (sumCtl 1 1 0 0) 0 0 1 (fp32 [0x7FA00001, 0x3F800000])).codes = [0x7FC00000] := by decide +kernel

/-- The BF16 contributions of spec/09: rounded once, and natively in two orders; as FP32 without rounding. -/
theorem test_bf16_sums : (reducePass (sumCtl 2 2 0 0) 0 0 1 (bf16 [0x3F80, 0x3B80, 0x3B80, 0x3B00])).codes = [0x3F81] ∧
    (reducePass (sumCtl 2 2 0 1) 0 0 1 (bf16 [0x3F80, 0x3B80, 0x3B80, 0x3B00])).codes = [0x3F80] ∧
    (reducePass (sumCtl 2 2 0 1) 0 0 1 (bf16 [0x3B80, 0x3B80, 0x3B00, 0x3F80])).codes = [0x3F81] ∧
    (reducePass (sumCtl 2 1 0 0) 0 0 1 (bf16 [0x3F80, 0x3B80, 0x3B80, 0x3B00])).codes = [0x3F814000] := by decide +kernel

/-- The MXFP8 block of spec/09: scale 0x81, elements 0x79, 0xD8 and 0x00. -/
theorem test_mx_block : requantize [⟨false, false, false, true, 2407 * 2 ^ 1073⟩, ⟨false, false, false, true, -68 * 2 ^ 1074⟩,
    ⟨false, false, false, true, 2 ^ 1064⟩] 8 0 false 0 0 = (0x81, [0x79, 0xD8, 0x00], false) := by decide +kernel

def routed7 : State := routed.setReg .SWT_DIR_LO 0 0 (word (2 ^ 12 + 2 ^ 14))
/-- The rate example of spec/07, toward a node two links away: 50 GB/s, a sample of 6.0 us, then one of 3.0 us with ECE. -/
theorem test_rates : routed7.targetDelay 7 = 3600 ∧ (routed7.rateUpdate 7 ⟨50, some 3000, 0, 0, 0, 0⟩ 6000 false).rate = 40 ∧
    (routed7.rateUpdate 7 ⟨40, some 3000, 0, 0, 0, 0⟩ 3000 true).rate = 35 := by decide +kernel

/-- The Beacon example of spec/07: 16 packets of 4,160 B at 10 GB/s last 6,656 ns. -/
theorem test_segments : ceilDiv 1048576 9000 = 117 ∧ ceilDiv 66560 10 = 6656 := by decide

/-! ### One command each -/

/-- QP_DESTROY of a queue pair of partition 1 (R147). -/
theorem test_qp_destroy : (match exec (.qpDestroy 1000 1) (withAdm (adm Op.QP_DESTROY 10 0 0 0)) with
    | .next u => (u.qp 10).state == .destroying
    | _ => false) = true := by decide +kernel

/-- A doorbell write moves the producer index (R157). -/
theorem test_doorbell : (match exec (.qpDoorbell 1000 0 1 4 8 (word 5)) base with
    | .next u => (u.dring 10 false).any (fun d => d.pi == 5)
    | _ => false) = true := by decide +kernel

/-- A step takes the front command and leaves the rest. -/
theorem test_step : (match step { base with pending := [.lampRtcSet 1000 7, .supplyLoss 1001] } with
    | .next u => u.rtc == 7 && u.pending == [.supplyLoss 1001]
    | _ => false) = true := by decide +kernel

/-- On an empty queue time passes. -/
theorem test_idle : (match step base with
    | .next u => u.now == 1001
    | _ => false) = true := by decide +kernel

end Sys2Proof.Tests
end

section
/-!
The settled obligations about doorbells (R149, R150, R157, R164, R178).
-/
namespace Sys2Proof.Machine

/-! ### What fetching leaves of the queues -/

theorem State.dring_of_qm {s u : State} (h : u.qm = s.qm) (q : Nat) (rq : Bool) : u.dring q rq = s.dring q rq := by
  unfold State.dring State.admq State.qp
  rw [h]

theorem State.event_qm (s : State) (code unit n : Nat) : (s.event code unit n).qm = s.qm := by
  obtain ⟨c, h⟩ := s.event_eq code unit n
  rw [h]

theorem State.wakeDom_qm (s : State) (d src : Nat) : (s.wakeDom d src).qm = s.qm := by
  unfold State.wakeDom
  dsimp only
  split
  · rw [State.setDom_qm, State.event_qm, State.count_qm]
  · rfl

theorem State.hold_qm (s : State) (ds : List Nat) (w : Work) : (s.hold ds w).qm = s.qm := by
  unfold State.hold
  dsimp only
  generalize ((withCommon (ds.filter s.awaited)).filter s.awaited).eraseDups = l
  induction l generalizing s with
  | nil => rfl
  | cons d l ih =>
    rw [List.foldl_cons, ih]
    split
    · exact State.wakeDom_qm _ _ _
    · rfl

theorem State.issueRead_qm (s : State) (loc : Loc) (len : Nat) (why : ReadWhy) : (s.issueRead loc len why).qm = s.qm := by
  unfold State.issueRead
  dsimp only
  split <;> rfl

theorem State.issueFetch_qm (s : State) (q : Nat) (rq : Bool) (d : DRing) : (s.issueFetch q rq d).qm = s.qm := by
  unfold State.issueFetch
  dsimp only
  split
  · exact State.issueRead_qm _ _ _ _
  · exact State.hold_qm _ _ _

/-! ### Descriptor rings -/

/-- The device admin queue's ring (R178). -/
theorem State.dring_devQueue (s : State) : s.dring devQueue false = some (s.admq 64).sq := rfl

/-- A descriptor ring that a queue has reads what was written to it. -/
theorem State.setDring_dring {s : State} {q : Nat} {rq : Bool} {d : DRing} (h : s.dring q rq = some d) (e : DRing) :
    (s.setDring q rq e).dring q rq = some e := by
  unfold State.dring at h
  unfold State.dring State.setDring
  cases ha : isAdm q
  · cases rq
    · simp only [Bool.false_eq_true, if_false, State.setQp_qp, if_true]
    · simp only [Bool.false_eq_true, if_false, State.setQp_qp, if_true]
  · cases rq
    · simp only [Bool.false_eq_true, if_false, State.setAdmq_admq, if_true]
    · rw [ha] at h
      cases h

/-- A fetch marks the ring busy and notes the time; its indices stand. -/
theorem State.tryFetch_dring {s : State} {q : Nat} {rq : Bool} {d : DRing} (h : s.dring q rq = some d) :
    ∃ e, (s.tryFetch q rq).dring q rq = some e ∧ e = { d with busy := e.busy, since := e.since } := by
  unfold State.tryFetch
  split
  · unfold State.fetchNow
    rw [h]
    dsimp only
    rw [State.dring_of_qm (State.issueFetch_qm _ _ _ _), State.setDring_dring h]
    exact ⟨_, rfl, rfl⟩
  · exact ⟨d, h, rfl⟩

/-- A PI not more than N ahead of the fetch index becomes the producer index and ends SEQ_WAIT (R149, R150, R157). -/
theorem State.ringPi_accepts {s : State} {q pi : Nat} {rq : Bool} {d : DRing} (h : s.dring q rq = some d)
    (hn : idxDiff pi d.fetch ≤ 2 ^ d.log2) :
    ∃ e, (s.ringPi q rq pi).dring q rq = some e ∧ e.pi = pi ∧ e.seqWait = false ∧ e.fetch = d.fetch := by
  unfold State.ringPi
  rw [h]
  dsimp only
  rw [if_neg (Nat.not_lt.2 hn)]
  obtain ⟨e, he, hd⟩ := State.tryFetch_dring (State.setDring_dring h
    { d with pi := pi, seqWait := false, stale := if d.seqWait then 0 else d.stale })
  exact ⟨e, he, by rw [hd], by rw [hd], by rw [hd]⟩

/-- A PI further ahead is dropped and counted (R150). -/
theorem State.ringPi_drops {s : State} {q pi : Nat} {rq : Bool} {d : DRing} (h : s.dring q rq = some d)
    (hn : 2 ^ d.log2 < idxDiff pi d.fetch) : s.ringPi q rq pi = s.countSat F.QMG_BAD_DOORBELL_COUNT := by
  unfold State.ringPi
  rw [h]
  exact if_pos hn

/-! ### The heads of completion rings: only a doorbell moves them -/

theorem State.ring_of_qm {s u : State} (h : u.qm = s.qm) (r : Nat) : u.ring r = s.ring r := by
  unfold State.ring
  rw [h]

theorem State.setRing_keeps_head (s : State) (k r : Nat) (x : Ring) (h : x.head = (s.ring k).head) :
    ((s.setRing k x).ring r).head = (s.ring r).head := by
  rw [State.setRing_ring]
  split
  · subst k; exact h
  · rfl

theorem State.foldl_keeps_head {β : Type} (f : State → β → State) (r : Nat) (hf : ∀ s b, ((f s b).ring r).head = (s.ring r).head)
    (l : List β) (s : State) : ((l.foldl f s).ring r).head = (s.ring r).head := by
  induction l generalizing s with
  | nil => rfl
  | cons b l ih => exact (ih _).trans (hf s b)

theorem State.ringStore_keeps_head (s : State) (k : Nat) (e : Entry) (r : Nat) : ((s.ringStore k e).ring r).head = (s.ring r).head := by
  have h : ∀ u : State, u.qm = (s.setRing k { s.ring k with tail := ((s.ring k).tail + 1) % 2 ^ 32, armed := false }).qm →
      (u.ring r).head = (s.ring r).head := fun u hu => (congrArg Ring.head (State.ring_of_qm hu r)).trans (State.setRing_keeps_head _ _ _ _ rfl)
  unfold State.ringStore
  dsimp only
  apply h
  split <;> split <;> simp only [State.sendMsix_qm, State.emit_qm]

theorem State.ringPut_keeps_head (s : State) (k : Nat) (e : Entry) (r : Nat) : ((s.ringPut k e).ring r).head = (s.ring r).head := by
  unfold State.ringPut
  dsimp only
  split
  · rw [State.ring_of_qm (State.count_qm s _ _ _ _)]
  · split
    · rfl
    · split
      · exact State.setRing_keeps_head _ _ _ _ rfl
      · split
        · exact State.ringStore_keeps_head _ _ _ _
        · exact State.setRing_keeps_head _ _ _ _ rfl

theorem State.ringDrain_keeps_head (k r n : Nat) (s : State) : ((s.ringDrain k n).ring r).head = (s.ring r).head := by
  induction n generalizing s with
  | zero => rfl
  | succ n ih =>
    unfold State.ringDrain
    dsimp only
    split
    · split
      · exact State.setRing_keeps_head _ _ _ _ rfl
      · rfl
    · split
      · rw [ih, State.ringStore_keeps_head]
        exact State.setRing_keeps_head _ _ _ _ rfl
      · rfl

theorem State.flushReads_qm (b part : Nat) (ls : List Nat) : ∀ (s : State) (k : Nat), (s.flushReads b part k ls).qm = s.qm := by
  induction ls with
  | nil => intro s k; rfl
  | cons l ls ih => intro s k; exact (ih _ _).trans (State.issueRead_qm _ _ _ _)

theorem State.complete_keeps_head (s : State) (k : Nat) (e : Entry) (links : List Nat) (r : Nat) :
    ((s.complete k e links).ring r).head = (s.ring r).head := by
  unfold State.complete
  dsimp only
  generalize hu : (if e.status = Stat.SUCCESS then s else s.event 0x02 (e.owner.getD 0) 1) = u
  have h0 : u.ring r = s.ring r := by
    subst hu
    split
    · rfl
    · exact State.ring_of_qm (State.event_qm _ _ _ _) r
  rw [← h0]
  have hf : ∀ (b : Build) (ls : List Nat),
      (((u.fresh.2.putBuild u.fresh.1 b).flushReads u.fresh.1 (u.ring k).part 0 ls).ring r).head = (u.ring r).head :=
    fun b ls => congrArg Ring.head (State.ring_of_qm (State.flushReads_qm _ _ _ _ _) r)
  split <;> split
  · exact State.ringPut_keeps_head _ _ _ _
  · exact hf _ _
  · exact State.ringPut_keeps_head _ _ _ _
  · exact hf _ _

theorem State.report_keeps_head (s : State) (k : Nat) (x : Rec) (e : Entry) (r : Nat) : ((s.report k x e).ring r).head = (s.ring r).head := by
  unfold State.report State.keeperMsg
  split
  · exact State.complete_keeps_head _ _ _ _ _
  · dsimp only
    rw [State.ring_of_qm (State.queueMgt_qm _ _ _ _)]
    rfl
  · rfl
  · rfl

theorem State.retire_ring (s : State) (k : Nat) (x : Rec) (bytes r : Nat) : (s.retire k x bytes).ring r = s.ring r := by
  have h0 : ((s.delRec k).sampleEnd x bytes x.status).ring r = s.ring r := State.ring_of_qm (State.sampleEnd_qm _ _ _ _) r
  rw [← h0]
  unfold State.retire
  dsimp only
  split <;> split <;> rfl

theorem State.letGo_ring (s : State) (k r : Nat) : (s.letGo k).ring r = s.ring r := by
  unfold State.letGo
  split
  · split
    · exact State.retire_ring _ _ _ _ _
    · rfl
  · rfl

theorem State.endRec_keeps_head (s : State) (k type status bytes : Nat) (data : Word) (reason r : Nat) :
    ((s.endRec k type status bytes data reason).ring r).head = (s.ring r).head := by
  unfold State.endRec
  split
  · rfl
  · split
    · rfl
    · dsimp only
      rw [State.letGo_ring, State.report_keeps_head]
      rfl

theorem State.fenceDone_keeps_head (s : State) (p : Nat × Rec) (r : Nat) : ((s.fenceDone p).ring r).head = (s.ring r).head := by
  unfold State.fenceDone
  split <;> exact State.endRec_keeps_head _ _ _ _ _ _ _ _

theorem State.reap_keeps_head (s : State) (r : Nat) : (s.reap.ring r).head = (s.ring r).head := by
  unfold State.reap State.fenceSweep
  rw [State.foldl_keeps_head _ r (fun s p => s.fenceDone_keeps_head p r)]
  exact State.foldl_keeps_head _ r (fun s (p : Nat × Rec) => congrArg Ring.head (s.letGo_ring p.1 r)) _ s

/-- A HEAD between the old head and the tail becomes the head (R149, R164). -/
theorem State.ringHead_accepts {s : State} {r head : Nat} (arm : Bool)
    (h : idxDiff head (s.ring r).head ≤ idxDiff (s.ring r).tail (s.ring r).head) : ((s.ringHead r head arm).ring r).head = head := by
  unfold State.ringHead
  dsimp only
  rw [if_neg (Nat.not_lt.2 h)]
  generalize hu : ((s.setRing r { s.ring r with head := head, armed := (s.ring r).armed || arm }).ringDrain r ((s.ring r).held.length + 1)).reap = u
  have h0 : (u.ring r).head = head := by
    subst hu
    rw [State.reap_keeps_head, State.ringDrain_keeps_head, State.setRing_ring, if_pos rfl]
  split
  · rw [State.ring_of_qm (State.sendMsix_qm _ _ _ _)]
    exact (State.setRing_keeps_head u r r { u.ring r with armed := false } rfl).trans h0
  · exact h0

/-- A HEAD outside that range is dropped and counted (R150). -/
theorem State.ringHead_drops {s : State} {r head : Nat} (arm : Bool)
    (h : idxDiff (s.ring r).tail (s.ring r).head < idxDiff head (s.ring r).head) :
    s.ringHead r head arm = s.countSat F.QMG_BAD_DOORBELL_COUNT := if_pos h

/-! ### The doorbell commands -/

/-- A field that counts and saturates reads the saturated sum. -/
theorem State.fld_countSat_self (s : State) (f : Fld) (i j n : Nat) (h : f.lo + f.width ≤ 64) :
    (s.countSat f i j n).fld f i j = satAdd (s.fld f i j) n f.width := by
  unfold State.countSat
  rw [State.fld_setFld_self _ _ _ _ _ h]
  refine Nat.mod_eq_of_lt (Nat.lt_of_le_of_lt (Nat.min_le_right _ _) ?_)
  exact Nat.sub_lt (Nat.two_pow_pos _) Nat.one_pos

/-- The state in which a link's doorbell write is taken: the time has passed, and its bytes count in the link's window (R515). -/
def State.rung (s : State) (t l len : Nat) : State := (s.at t).bwRx (bwLink l) len

theorem State.at_bwRx (s : State) (t l len : Nat) : (s.at t).bwRx (bwLink l) len = s.rung t l len := rfl
@[simp] theorem State.rung_qm (s : State) (t l len : Nat) : (s.rung t l len).qm = s.qm := rfl
@[simp] theorem State.rung_link (s : State) (t l len k : Nat) : (s.rung t l len).link k = s.link k := rfl
@[simp] theorem State.rung_part (s : State) (t l len p : Nat) : (s.rung t l len).part p = s.part p := rfl
@[simp] theorem State.rung_dring (s : State) (t l len q : Nat) (rq : Bool) : (s.rung t l len).dring q rq = s.dring q rq := rfl
@[simp] theorem State.rung_exposed (s : State) (t l len k p : Nat) : (s.rung t l len).exposed k p = s.exposed k p := rfl
@[simp] theorem State.rung_dbOwner (s : State) (t l len p n : Nat) : (s.rung t l len).dbOwner p n = s.dbOwner p n := rfl

variable {s : State} {l p n q r : Nat} {w : Word}

/-- A doorbell write for a ring that a queue has reaches the ring (R115, R117, R149). -/
theorem exec_qpDoorbell_queue {d : DRing} (t : Nat) (he : s.exposed l p = true) (ha : (s.part p).state = .active)
    (ho : s.dbOwner p n = .queue q) (hd : s.dring q (bit w 63) = some d) :
    exec (.qpDoorbell t l p n 8 w) s = .next ((s.rung t l 8).ringPi q (bit w 63) (bits w 0 32)) := by
  change execQpDoorbell t l p n 8 w s = _
  unfold execQpDoorbell
  simp only [State.at_bwRx, State.rung_exposed, State.rung_part, State.rung_dbOwner, State.rung_dring, he, ha, ho, hd, ne_eq, not_true_eq_false,
    Bool.not_true, Bool.false_eq_true, or_self, if_false, Option.isNone_some]

/-- One that names nothing, or a ring its queue does not have, is dropped (R116). -/
theorem exec_qpDoorbell_dropped (t : Nat) (h : s.dbOwner p n = .nobody ∨ ∃ q, s.dbOwner p n = .queue q ∧ s.dring q (bit w 63) = none) :
    exec (.qpDoorbell t l p n 8 w) s = .next ((s.rung t l 8).dropDoorbell l) := by
  change execQpDoorbell t l p n 8 w s = _
  unfold execQpDoorbell
  obtain ho | ⟨q, ho, hd⟩ := h
  · simp only [State.at_bwRx, State.rung_dbOwner, ho, ite_self]
  · simp only [State.at_bwRx, State.rung_dbOwner, State.rung_dring, ho, hd, Option.isNone_none, if_true, ite_self]

/-- A doorbell write of a completion ring reaches the ring (R115, R117, R149). -/
theorem exec_ringDoorbell_ring (t : Nat) (he : s.exposed l p = true) (ha : (s.part p).state = .active) (ho : s.dbOwner p n = .ring r) :
    exec (.ringDoorbell t l p n 8 w) s = .next ((s.rung t l 8).ringHead r (bits w 0 32) (bit w 63)) := by
  change execRingDoorbell t l p n 8 w s = _
  unfold execRingDoorbell
  simp only [State.at_bwRx, State.rung_exposed, State.rung_part, State.rung_dbOwner, he, ha, ho, ne_eq, not_true_eq_false, Bool.not_true,
    Bool.false_eq_true, or_self, if_false]

/-- One that names nothing is dropped (R116). -/
theorem exec_ringDoorbell_dropped (t : Nat) (ho : s.dbOwner p n = .nobody) :
    exec (.ringDoorbell t l p n 8 w) s = .next ((s.rung t l 8).dropDoorbell l) := by
  change execRingDoorbell t l p n 8 w s = _
  unfold execRingDoorbell
  simp only [State.at_bwRx, State.rung_dbOwner, ho, ite_self]

/-- A write to QMG_ADM_SQ_DB reaches the device admin queue once it is in service (R178). -/
theorem exec_admSqDoorbell_live (t pi : Nat) (hs : s.serving = true) (hf : (s.admq 64).state ≠ .free) :
    exec (.admSqDoorbell t pi) s = .next ((s.at t).ringPi devQueue false (pi % 2 ^ 32)) := by
  change Host.Outcome.next ((s.at t).ifServing _) = _
  rw [State.ifServing, show (s.at t).serving = true from hs, if_pos rfl]
  exact congrArg _ (if_neg hf)

/-- A write to QMG_ADM_CQ_DB reaches its ring (R178). -/
theorem exec_admCqDoorbell_live (t : Nat) (hs : s.serving = true) (hf : (s.ring devQueue).state ≠ .free) :
    exec (.admCqDoorbell t w) s = .next ((s.at t).ringHead devQueue (bits w 0 32) (bit w 63)) := by
  change Host.Outcome.next ((s.at t).ifServing _) = _
  rw [State.ifServing, show (s.at t).serving = true from hs, if_pos rfl]
  exact congrArg _ (if_neg hf)

/-- A doorbell dropped leaves the queues and is counted for its link (R116). -/
theorem State.rung_dropDoorbell (s : State) (t l : Nat) :
    ((s.rung t l 8).dropDoorbell l).qm = s.qm ∧ (((s.rung t l 8).dropDoorbell l).link l).dropped = (s.link l).dropped + 1 := by
  unfold State.dropDoorbell
  simp only [State.modLink_qm, State.rung_qm, State.modLink_link, if_true, State.rung_link, and_self]

/-- An index out of range leaves the queues and is counted in QMG_BAD_DOORBELL (R150). -/
theorem State.rung_badDoorbell (s : State) (t l : Nat) :
    ((s.rung t l 8).countSat F.QMG_BAD_DOORBELL_COUNT).qm = s.qm ∧
      ((s.rung t l 8).countSat F.QMG_BAD_DOORBELL_COUNT).fld F.QMG_BAD_DOORBELL_COUNT =
        satAdd (s.fld F.QMG_BAD_DOORBELL_COUNT) 1 F.QMG_BAD_DOORBELL_COUNT.width :=
  ⟨State.countSat_qm _ _ _ _ _, State.fld_countSat_self _ _ 0 0 1 (by decide)⟩

end Sys2Proof.Machine

namespace Sys2Proof.Proofs
open Sys2Proof.Machine

/-- Settles O3: each doorbell command is one of the ring operations or a drop, and neither a fetch nor draining a ring moves an index that a
doorbell has set. -/
theorem doorbellsSetIndices : Obligations.DoorbellsSetIndices := by
  unfold Obligations.DoorbellsSetIndices
  refine ⟨?_, ?_, ?_, ?_, ?_, ?_, ?_, ?_⟩
  · intro s t l p n q w d he ha ho hd hn
    obtain ⟨e, h⟩ := State.ringPi_accepts (s := s.rung t l 8) hd hn
    exact ⟨_, e, exec_qpDoorbell_queue t he ha ho hd, h⟩
  · intro s t pi hs hf hp hn
    rw [← Nat.mod_eq_of_lt hp] at hn
    obtain ⟨e, hd, hpi, hw, -⟩ := State.ringPi_accepts (s.at t).dring_devQueue hn
    rw [State.dring_devQueue] at hd
    cases hd
    exact ⟨_, exec_admSqDoorbell_live t pi hs hf, hpi.trans (Nat.mod_eq_of_lt hp), hw⟩
  · intro s t l p n r w he ha ho hh
    exact ⟨_, exec_ringDoorbell_ring t he ha ho, State.ringHead_accepts (s := s.rung t l 8) _ hh⟩
  · intro s t w hs hf hh
    exact ⟨_, exec_admCqDoorbell_live t hs hf, State.ringHead_accepts (s := s.at t) _ hh⟩
  · intro s t l p n q w d he ha ho hd hn
    refine ⟨_, exec_qpDoorbell_queue t he ha ho hd, ?_⟩
    rw [State.ringPi_drops (s := s.rung t l 8) hd hn]
    exact s.rung_badDoorbell t l
  · intro s t l p n r w he ha ho hh
    refine ⟨_, exec_ringDoorbell_ring t he ha ho, ?_⟩
    rw [State.ringHead_drops (s := s.rung t l 8) _ hh]
    exact s.rung_badDoorbell t l
  · intro s t l p n w h
    exact ⟨_, exec_qpDoorbell_dropped t h, s.rung_dropDoorbell t l⟩
  · intro s t l p n w h
    exact ⟨_, exec_ringDoorbell_dropped t h, s.rung_dropDoorbell t l⟩

end Sys2Proof.Proofs
end

section
/-!
The refuted obligation about the answers to a sender's messages (R162, R180, R198, R214).
-/
namespace Sys2Proof.Proofs.MsgIdReused
open Sys2Proof Sys2Proof.Machine

/-! ### An atomic, the fence that covers it, and the answer that ends both

Node 5 holds one message, the atomic of record 1, under MSG_ID 8, and 8 is also the next MSG_ID of die 0 (R180 counts modulo 2^32). Record 2
is a PLACEMENT_FENCE that waits for record 1 alone and reports to the node that ordered it. No ORDER puts a fence on a transport queue pair,
but the statement asks only of the message's own record that its completion goes to its ring. -/

/-- The ATOMIC_RSP of message 8, from node 6 to node 5. -/
def answer : Packet :=
  Packet.seal { Packet.zero with w0 := hdr0 1 Pk.ATOMIC_RSP Cls.RSP false false 5 6 0, w2 := hdr2 8 0 0 12 true, w6 := 77 }

/-- A descriptor of an opcode, accepted on queue pair 10 of partition 1 and running. -/
def running (op : Nat) : Rec :=
  { Rec.new 10 false 0 1 3 { Desc.zero with w0 := word (op * 2 ^ 24) } 0 0 with phase := .running, started := true }

def atomic : Rec := { running Op.ATOMIC with msgs := [8] }

/-- Its completion goes to node 4 as an ORDER_DONE (R413). -/
def fence : Rec := { running Op.PLACEMENT_FENCE with cover := [1], source := 1, srcQpn := 4 }

/-- The atomic's message to node 6, which is out. -/
def message : Msg := { Msg.make 1 10 1 3 .atomic 6 8 12 1 false with begun := true, d := some 0 }

/-- Node 5 with partition 1 in generation 3, and queue pair 10 whose completions go to ring 7 on the host link. -/
def before : State :=
  { State.reset with
    node := some 5
    parts := [(1, { Machine.Part.none with state := .active, gen := 3 })]
    io := { State.reset.io with links := [(0, { Link.down with up := true, mode := 1, numVfs := 63 })] }
    qm := { State.reset.qm with
      qps := [(10, { Qp.none with state := .active, part := 1, sqRing := 7 })]
      rings := [(7, { Ring.none with state := .active, part := 1, loc := ⟨0, 1, 0x30000⟩ })]
      recs := [(1, atomic), (2, fence)] }
    tr := { State.reset.tr with msgs := [(8, message)], nextMsg := [(0, 4)] }
    sw := { State.reset.sw with ejected := [(0, answer)] } }

theorem before_arrives : before.arrives answer Pk.ATOMIC_RSP :=
  ⟨⟨0, by decide, by decide +kernel⟩, by decide +kernel⟩

theorem before_lastMsg : before.lastMsg 1 atomic answer.msgId message := by
  unfold State.lastMsg
  decide +kernel

theorem before_takesEntry : before.takesEntry atomic atomic.links := by
  unfold State.takesEntry
  decide +kernel

/-- The message that a command's next state holds under an identifier. -/
def msgAfter (o : Host.Outcome State Fault Refusal) (id : Nat) : Option Msg :=
  match o with
  | .next u => u.msg id
  | _ => none

/-- The atomic's end is the fence's end, and the fence's ORDER_DONE to node 4 takes MSG_ID 8. -/
theorem answer_reuses_msgId :
    (msgAfter (exec (.atomicRsp 0 answer) before) answer.msgId).map (fun m => (m.kind, m.node)) = some (.mgt, 4) := by
  decide +kernel

end Sys2Proof.Proofs.MsgIdReused

namespace Sys2Proof.Proofs
open Sys2Proof.Machine MsgIdReused

/-- Refutes O26: an ATOMIC_RSP ends its atomic and thereby a fence that reports to an ORDER's node, whose ORDER_DONE is given the MSG_ID just
freed; so the die holds a message under that MSG_ID again, where the fifth clause says that it holds none. -/
theorem not_answersAct : ¬ Obligations.AnswersAct := by
  unfold Obligations.AnswersAct
  rintro ⟨-, -, -, -, atomicRspEnds, -⟩
  obtain ⟨u, hexec, hnone, -⟩ := atomicRspEnds before 0 1 answer message atomic before_arrives before_lastMsg (by decide +kernel) rfl
    (by decide +kernel) before_takesEntry
  have hheld := answer_reuses_msgId
  rw [hexec, msgAfter, hnone] at hheld
  cases hheld

end Sys2Proof.Proofs
end

section
/-!
What the loss of links and ports cannot change: the variant fitted, and which power domains have failed (R478, R485, R489, R503). First the
single updates, the domains, the fault records and the fabric ports.
-/
namespace Sys2Proof.Machine

/-- The same units in both states: the same variant, and the same failed domains. -/
def State.SameUnits (s u : State) : Prop := u.chip = s.chip ∧ ∀ d, (u.dom d).state = .failed ↔ (s.dom d).state = .failed

theorem State.SameUnits.refl (s : State) : s.SameUnits s := ⟨rfl, fun _ => Iff.rfl⟩

theorem State.dom_of_doms {s u : State} (h : u.doms = s.doms) (d : Nat) : u.dom d = s.dom d := by
  unfold State.dom
  rw [h]

theorem State.event_doms (s : State) (code unit n : Nat) : (s.event code unit n).doms = s.doms := by
  obtain ⟨c, e⟩ := s.event_eq code unit n
  rw [e]

variable {s u : State} (h : s.SameUnits u)
include h

/-- Whatever leaves the chip and the domains alone. -/
theorem State.SameUnits.same {v : State} (hc : v.chip = u.chip) (hd : v.doms = u.doms) : s.SameUnits v :=
  ⟨hc.trans h.1, fun d => by rw [State.dom_of_doms hd]; exact h.2 d⟩

omit h in
theorem State.SameUnits.ite {c : Prop} [Decidable c] {v : State} (hu : s.SameUnits u) (hv : s.SameUnits v) : s.SameUnits (if c then u else v) := by
  split
  · exact hu
  · exact hv

theorem State.SameUnits.foldl {β : Type} {f : State → β → State} {l : List β} (hf : ∀ v b, s.SameUnits v → s.SameUnits (f v b)) :
    s.SameUnits (l.foldl f u) := by
  induction l generalizing u with
  | nil => exact h
  | cons b l ih => exact ih (hf u b h)

theorem State.SameUnits.setDom {d : Nat} {x : Domain} (hx : x.state = .failed ↔ (u.dom d).state = .failed) : s.SameUnits (u.setDom d x) := by
  refine ⟨h.1, fun e => ?_⟩
  rw [State.setDom_dom]
  split
  · subst e; exact hx.trans (h.2 d)
  · exact h.2 e

/-! ### Single updates -/

theorem State.SameUnits.setReg {r : RegName} {i j : Nat} {w : Word} : s.SameUnits (u.setReg r i j w) := h.same rfl rfl
theorem State.SameUnits.count {f : Fld} {i j n : Nat} : s.SameUnits (u.count f i j n) := h.same rfl rfl
theorem State.SameUnits.countSat {f : Fld} {i j n : Nat} : s.SameUnits (u.countSat f i j n) := h.same rfl rfl
theorem State.SameUnits.emit {e : Egress} : s.SameUnits (u.emit e) := h.same rfl rfl
theorem State.SameUnits.setFaultq {k : Nat} {q : FaultQ} : s.SameUnits (u.setFaultq k q) := h.same rfl rfl
theorem State.SameUnits.setPart {p : Nat} {x : Part} : s.SameUnits (u.setPart p x) := h.same rfl rfl
theorem State.SameUnits.setSw {x : Sw} : s.SameUnits (u.setSw x) := h.same rfl rfl
theorem State.SameUnits.setInq {i : Nat} {l : List SwPkt} : s.SameUnits (u.setInq i l) := h.same rfl rfl
theorem State.SameUnits.setPort {p : Nat} {x : Port} : s.SameUnits (u.setPort p x) := h.same rfl rfl
theorem State.SameUnits.modPort {p : Nat} {f : Port → Port} : s.SameUnits (u.modPort p f) := h.same rfl rfl
theorem State.SameUnits.setOut {o : Nat} {x : Output} : s.SameUnits (u.setOut o x) := h.same rfl rfl
theorem State.SameUnits.setEthPort {e : Nat} {x : EthPort} : s.SameUnits (u.setEthPort e x) := h.same rfl rfl
theorem State.SameUnits.setLink {l : Nat} {x : Link} : s.SameUnits (u.setLink l x) := h.same rfl rfl
theorem State.SameUnits.modLink {l : Nat} {f : Link → Link} : s.SameUnits (u.modLink l f) := h.same rfl rfl
theorem State.SameUnits.putRec {r : Nat} {x : Rec} : s.SameUnits (u.putRec r x) := h.same rfl rfl
theorem State.SameUnits.delRec {r : Nat} : s.SameUnits (u.delRec r) := h.same rfl rfl
theorem State.SameUnits.setQp {q : Nat} {x : Qp} : s.SameUnits (u.setQp q x) := h.same rfl rfl
theorem State.SameUnits.modQp {q : Nat} {f : Qp → Qp} : s.SameUnits (u.modQp q f) := h.same rfl rfl
theorem State.SameUnits.setAdmq {a : Nat} {x : AdmQ} : s.SameUnits (u.setAdmq a x) := h.same rfl rfl
theorem State.SameUnits.setRing {r : Nat} {x : Ring} : s.SameUnits (u.setRing r x) := h.same rfl rfl
theorem State.SameUnits.putBuild {b : Nat} {x : Build} : s.SameUnits (u.putBuild b x) := h.same rfl rfl
theorem State.SameUnits.delBuild {b : Nat} : s.SameUnits (u.delBuild b) := h.same rfl rfl
theorem State.SameUnits.fresh : s.SameUnits u.fresh.2 := h.same rfl rfl
theorem State.SameUnits.setMsgs {t : Tbl Msg} : s.SameUnits (u.setMsgs t) := h.same rfl rfl
theorem State.SameUnits.putMsg {id : Nat} {m : Msg} : s.SameUnits (u.putMsg id m) := h.same rfl rfl
theorem State.SameUnits.addMsg {m : Msg} : s.SameUnits (u.addMsg m).2 := h.same rfl rfl
theorem State.SameUnits.setFlights {t : Tbl Flight} : s.SameUnits (u.setFlights t) := h.same rfl rfl
theorem State.SameUnits.putRd {k : Nat} {x : Rd} : s.SameUnits (u.putRd k x) := h.same rfl rfl
theorem State.SameUnits.unbindRds {q : Nat} : s.SameUnits (u.unbindRds q) := h.same rfl rfl
theorem State.SameUnits.setGroup {g : Nat} {x : Group} : s.SameUnits (u.setGroup g x) := h.same rfl rfl
theorem State.SameUnits.memWrite {a : Nat} {bs : List Byte} : s.SameUnits (u.memWrite a bs) := h.same rfl rfl
theorem State.SameUnits.fresher {ls : List Nat} : s.SameUnits (u.fresher ls) := h.same rfl rfl
theorem State.SameUnits.setStack {k : Nat} {x : Stack} : s.SameUnits (u.setStack k x) := h.same rfl rfl
theorem State.SameUnits.setRegion {i : Nat} {x : Region} : s.SameUnits (u.setRegion i x) := h.same rfl rfl
theorem State.SameUnits.endClosing {i : Nat} : s.SameUnits (u.endClosing i) := h.same rfl rfl
theorem State.SameUnits.beginClosing {i : Nat} {r : Option Nat} : s.SameUnits (u.beginClosing i r) := h.same rfl rfl
theorem State.SameUnits.clearWaiters {i : Nat} : s.SameUnits (u.clearWaiters i) := h.same rfl rfl
theorem State.SameUnits.lossReads {l : Nat} : s.SameUnits (u.lossReads l) := h.same rfl rfl
theorem State.SameUnits.dropFetches {q : Nat} : s.SameUnits (u.dropFetches q) := h.same rfl rfl
theorem State.SameUnits.dropServes {p : Nat → Bool} : s.SameUnits (u.dropServes p) := h.same rfl rfl
theorem State.SameUnits.dieDark {n : Nat} : s.SameUnits (u.dieDark n) := h.same rfl rfl

theorem State.SameUnits.modRec {r : Nat} {f : Rec → Rec} : s.SameUnits (u.modRec r f) := by
  unfold State.modRec
  split
  · exact h.putRec
  · exact h

theorem State.SameUnits.modPlan {k : Nat} {f : Plan → Plan} : s.SameUnits (u.modPlan k f) := by
  unfold State.modPlan
  split
  · exact h.same rfl rfl
  · exact h

theorem State.SameUnits.event {code unit n : Nat} : s.SameUnits (u.event code unit n) := by
  obtain ⟨c, e⟩ := u.event_eq code unit n
  rw [e]
  exact h.same rfl rfl

/-! ### Domains: waking and idling (R481, R482, R486) -/

theorem State.SameUnits.idleFrom {d : Nat} : s.SameUnits (u.idleFrom d) := .ite (h.setDom Iff.rfl) h

theorem State.SameUnits.portIdles {p : Nat} : s.SameUnits (u.portIdles p) := h.idleFrom.idleFrom

theorem State.SameUnits.wakeDom {d src : Nat} : s.SameUnits (u.wakeDom d src) := by
  unfold State.wakeDom
  dsimp only
  split
  case isTrue asleep =>
    refine .setDom (.event h.count) (iff_of_false DomState.noConfusion ?_)
    rw [State.dom_of_doms ((State.event_doms ..).trans (State.count_doms ..))]
    rcases asleep.1 with off | retain
    · rw [off]; exact DomState.noConfusion
    · rw [retain]; exact DomState.noConfusion
  case isFalse => exact h

theorem State.SameUnits.hold {ds : List Nat} {w : Work} : s.SameUnits (u.hold ds w) := by
  unfold State.hold
  dsimp only
  exact .same (u := List.foldl _ _ _) (h.foldl fun _ _ hv => .ite hv.wakeDom hv) rfl rfl

/-! ### Fault records (R496 to R500) -/

theorem State.SameUnits.sendMsix {l fn v : Nat} : s.SameUnits (u.sendMsix l fn v) := by
  obtain e | ⟨_, e⟩ | ⟨_, e⟩ := u.sendMsix_cases l fn v <;> rw [e]
  · exact h
  · exact h.setLink
  · exact h.emit

theorem State.SameUnits.faultIrq {k : Nat} {q : FaultQ} : s.SameUnits (u.faultIrq k q) := .ite h.sendMsix h.sendMsix

theorem State.SameUnits.faultStore {k : Nat} {ws : List Word} : s.SameUnits (u.faultStore k ws) := by
  unfold State.faultStore
  dsimp only
  exact .ite (.faultIrq (.ite h.setFaultq h.setFaultq.emit.emit)) (.ite h.setFaultq h.setFaultq.emit.emit)

theorem State.SameUnits.faultPut {k cls code part unit d0 d1 : Nat} {r : Bool} : s.SameUnits (u.faultPut k cls code part r unit d0 d1) :=
  .ite h.setFaultq h.faultStore

theorem State.SameUnits.faultL {cls code unit d0 d1 : Nat} : s.SameUnits (u.faultL cls code unit d0 d1) := h.faultPut

theorem State.SameUnits.faultP {part cls code unit d0 d1 : Nat} {l : Option Nat} : s.SameUnits (u.faultP part cls code unit d0 d1 l) :=
  .ite h.faultPut h.faultPut

/-! ### Fabric ports (R34, R263) -/

theorem State.SameUnits.txFlush {p : Nat} {all : Bool} : s.SameUnits (u.txFlush p all) := by
  unfold State.txFlush
  dsimp only
  exact h.setPort.foldl fun _ _ hv => hv.emit

theorem State.SameUnits.rerouteAll {o : Nat} : s.SameUnits (u.rerouteAll o).2 := by
  unfold State.rerouteAll
  dsimp only
  exact h.setOut.foldl fun _ _ hv => hv.setInq

theorem State.SameUnits.leaveUp {p : Nat} {t : PortState} : s.SameUnits (u.leaveUp p t) := by
  unfold State.leaveUp
  dsimp only
  have down {f x} : s.SameUnits ((((u.portIdles p).txFlush p false).modPort p f).setOut p x) := h.portIdles.txFlush.modPort.setOut
  exact .ite h.portIdles.setPort (.ite (.faultL (.count (.rerouteAll (.ite down.emit.count down))))
      (.count (.rerouteAll (.ite down.emit.count down))))

theorem State.SameUnits.fabricDark : s.SameUnits u.fabricDark := h.setSw.foldl fun _ _ hv => .ite hv hv.leaveUp

theorem State.SameUnits.txPut {p : Nat} {m : Rat} {l : List TxSlot} : s.SameUnits (u.txPut p m l) := h.txFlush.setPort

theorem State.SameUnits.sendCredit {p : Nat} : s.SameUnits (u.sendCredit p) := h.modPort.txPut.emit

theorem State.SameUnits.freeIn {k : SwPkt} : s.SameUnits (u.freeIn k) := by
  unfold State.freeIn
  dsimp only
  exact .ite (.ite h.modPort.sendCredit h.modPort) (.ite h.modPort (.ite h.modPort h))

end Sys2Proof.Machine
end

section
/-!
The same for the work that the loss of a link takes back (R134): records and their entries, messages, reads and writes of Grotto memory, groups;
then the loss of a link and of an Ethernet port themselves.
-/
namespace Sys2Proof.Machine
variable {s u : State} (h : s.SameUnits u)
include h

/-! ### Records, rings and entries (R158 to R164) -/

theorem State.SameUnits.sampleEnd {x : Rec} {bytes status : Nat} : s.SameUnits (u.sampleEnd x bytes status) := by
  unfold State.sampleEnd
  dsimp only
  exact .ite h (.ite h.memWrite.count h.countSat)

theorem State.SameUnits.retire {r : Nat} {x : Rec} {bytes : Nat} : s.SameUnits (u.retire r x bytes) := by
  unfold State.retire
  dsimp only
  have ended : s.SameUnits ((u.delRec r).sampleEnd x bytes x.status) := h.delRec.sampleEnd
  exact .same (.ite (State.SameUnits.modQp (.ite ended.modQp ended)) (.ite ended.modQp ended)) rfl rfl

theorem State.SameUnits.letGo {r : Nat} : s.SameUnits (u.letGo r) := by
  unfold State.letGo
  split
  · exact .ite h.retire h
  · exact h

theorem State.SameUnits.ringStore {r : Nat} {e : Entry} : s.SameUnits (u.ringStore r e) := by
  unfold State.ringStore
  dsimp only
  exact .ite (.sendMsix (.ite h.setRing.emit.emit h.setRing.emit)) (.ite h.setRing.emit.emit h.setRing.emit)

theorem State.SameUnits.ringPut {r : Nat} {e : Entry} : s.SameUnits (u.ringPut r e) := by
  obtain c | c | ⟨_, c⟩ | c := u.ringPut_cases r e <;> rw [c]
  · exact h.count
  · exact h
  · exact h.setRing
  · exact h.ringStore

theorem State.SameUnits.issueRead {loc : Loc} {len : Nat} {why : ReadWhy} : s.SameUnits (u.issueRead loc len why) := by
  unfold State.issueRead
  dsimp only
  refine .ite (.emit ?_) ?_ <;> exact h.same rfl rfl

theorem State.SameUnits.flushReads {b part k : Nat} {ls : List Nat} : s.SameUnits (u.flushReads b part k ls) := by
  induction ls generalizing u k with
  | nil => exact h
  | cons l ls ih => exact ih h.issueRead

theorem State.SameUnits.complete {r : Nat} {e : Entry} {links : List Nat} : s.SameUnits (u.complete r e links) := by
  unfold State.complete
  dsimp only
  exact .ite (.ringPut (.ite h h.event)) (.flushReads (.putBuild (.fresh (.ite h h.event))))

theorem State.SameUnits.queueMgt {node qpn : Nat} {bs : List Byte} : s.SameUnits (u.queueMgt node qpn bs) := by
  obtain ⟨tr, e⟩ := u.queueMgt_tr node qpn bs
  rw [e]
  exact h.same rfl rfl

theorem State.SameUnits.keeperMsg {node ty : Nat} {body : List Byte} : s.SameUnits (u.keeperMsg node ty body) := by
  unfold State.keeperMsg
  dsimp only
  refine .queueMgt ?_
  exact h.same rfl rfl

theorem State.SameUnits.report {r : Nat} {x : Rec} {e : Entry} : s.SameUnits (u.report r x e) := by
  unfold State.report
  split
  · exact h.complete
  · exact h.keeperMsg
  · exact h.emit
  · exact h

theorem State.SameUnits.endRec {r type status bytes reason : Nat} {data : Word} : s.SameUnits (u.endRec r type status bytes data reason) := by
  unfold State.endRec
  split
  · exact h
  · exact .ite h h.putRec.report.letGo

theorem State.SameUnits.fenceSweep : s.SameUnits u.fenceSweep := h.foldl fun _ _ hv => .ite hv.endRec hv.endRec

theorem State.SameUnits.finish {r type status bytes reason : Nat} {data : Word} : s.SameUnits (u.finish r type status bytes data reason) :=
  h.endRec.fenceSweep

theorem State.SameUnits.finishAdm {r status data reason : Nat} : s.SameUnits (u.finishAdm r status data reason) := h.finish

theorem State.SameUnits.admEnd {r status data reason : Nat} : s.SameUnits (u.admEnd r status data reason) := by
  unfold State.admEnd
  refine .finishAdm (.ite ?_ h)
  split
  · exact h.setPart
  · exact h

theorem State.SameUnits.endWith {r status : Nat} {data : Word} : s.SameUnits (u.endWith r status data) := by
  unfold State.endWith
  split
  · exact h
  · exact h.finish

theorem State.SameUnits.endQuiet {r bytes : Nat} {x : Rec} : s.SameUnits (u.endQuiet r x bytes) := h.putRec.letGo.fenceSweep

theorem State.SameUnits.endSilent {r status : Nat} : s.SameUnits (u.endSilent r status) := by
  unfold State.endSilent
  split
  · exact h
  · exact .ite h (.fenceSweep (.retire (.ite h h.modQp)))

theorem State.SameUnits.endCol {c status bytes node : Nat} {data : Word} : s.SameUnits (u.endCol c status bytes node data) := h.modRec.finish

theorem State.SameUnits.reap : s.SameUnits u.reap := .fenceSweep (h.foldl fun _ _ hv => hv.letGo)

theorem State.SameUnits.entriesGo {r n : Nat} : s.SameUnits (u.entriesGo r n) := by
  induction n generalizing u with
  | zero => exact h
  | succ n ih =>
    unfold State.entriesGo
    split
    · exact ih h.delBuild.ringPut
    · exact h

theorem State.SameUnits.entryReady {b ring : Nat} {e : Entry} : s.SameUnits (u.entryReady b ring e) := h.putBuild.entriesGo

theorem State.SameUnits.tryDepart {r : Nat} : s.SameUnits (u.tryDepart r) := by
  unfold State.tryDepart
  split
  · exact h
  · exact .ite h.putRec.complete h

theorem State.SameUnits.settle {r : Nat} : s.SameUnits (u.settle r) := by
  unfold State.settle
  dsimp only
  split
  · exact h.tryDepart
  · exact .ite (.ite h.tryDepart.endQuiet h.tryDepart.putRec.finish) h.tryDepart

/-! ### Messages (R183 to R197) -/

theorem State.SameUnits.leftPort {k : SwPkt} : s.SameUnits (u.leftPort k) := by
  unfold State.leftPort
  split
  · exact h
  · split
    · exact h
    · exact .ite h.putMsg.event.modRec.tryDepart h.putMsg.modRec

theorem State.SameUnits.takeFlight {n : Nat} : s.SameUnits ((u.takeFlight n).getD u) := by
  obtain ⟨f, e⟩ := u.takeFlight_getD n
  rw [e]
  exact h.setFlights

theorem State.SameUnits.freeFlight {n : Nat} : s.SameUnits (u.freeFlight n) := .ite h h.setFlights

theorem State.SameUnits.purge {id : Nat} : s.SameUnits (u.purge id) := by
  unfold State.purge
  dsimp only
  exact .setSw (h.foldl fun _ _ hv => hv.freeIn)

theorem State.SameUnits.dropMsg {id : Nat} : s.SameUnits (u.dropMsg id) := by
  unfold State.dropMsg
  split
  · exact h
  · exact h.setMsgs.purge.freeFlight

theorem State.SameUnits.dropMsgs {ids : List Nat} : s.SameUnits (ids.foldl State.dropMsg u) := h.foldl fun _ _ hv => hv.dropMsg

theorem State.SameUnits.giveUp {r : Nat} : s.SameUnits (u.giveUp r) := by
  unfold State.giveUp
  split
  · exact h
  · exact h.dropMsgs.putRec

theorem State.SameUnits.unbind {q : Nat} : s.SameUnits (u.unbind q) := by
  unfold State.unbind
  refine h.unbindRds.foldl fun _ _ hv => ?_
  split
  · exact hv.modRec.endWith
  · exact hv

/-! ### Fetching (R154 to R157) -/

theorem State.SameUnits.setDring {q : Nat} {rq : Bool} {d : DRing} : s.SameUnits (u.setDring q rq d) := .ite h.setAdmq (.ite h.setQp h.setQp)

theorem State.SameUnits.tryFetch {q : Nat} {rq : Bool} : s.SameUnits (u.tryFetch q rq) := by
  unfold State.tryFetch State.fetchNow State.issueFetch
  refine .ite ?_ h
  split
  · exact h
  · exact .ite h.setDring.issueRead h.setDring.hold

theorem State.SameUnits.qpError {q r : Nat} : s.SameUnits (u.qpError q r) := by
  unfold State.qpError
  dsimp only
  exact .ite (.tryFetch (.tryFetch (h.modQp.settle.unbind.foldl fun _ _ hv => hv.giveUp.endWith))) h.settle

theorem State.SameUnits.endMsg {id status : Nat} {data : Word} : s.SameUnits (u.endMsg id status data) := by
  unfold State.endMsg
  split
  · exact h
  · refine .ite h.dropMsg (.ite ?_ h.dropMsg.modRec.settle)
    split
    · exact h.dropMsg
    · exact h.dropMsg.dropMsgs.modRec.qpError

/-! ### Grotto memory (R83, R91, R101 to R103) -/

theorem State.SameUnits.useLines {a len : Nat} : s.SameUnits (u.useLines a len) := by
  unfold State.useLines
  dsimp only
  exact h.foldl fun _ _ hv => .ite hv.event.count hv.event

theorem State.SameUnits.gPutLine {g : Nat} {bs : List Byte} : s.SameUnits (u.gPutLine g bs) := by
  unfold State.gPutLine
  dsimp only
  refine .ite (.memWrite ?_) h.memWrite
  exact h.same rfl rfl

theorem State.SameUnits.gWriteLine {g l : Nat} {bs : List Byte} : s.SameUnits (u.gWriteLine g bs l) := by
  unfold State.gWriteLine
  dsimp only
  exact .ite h.gPutLine.fresher h.gPutLine

theorem State.SameUnits.mWrite {a : Nat} {bs : List Byte} : s.SameUnits (u.mWrite a bs) :=
  .ite h.useLines.memWrite.fresher (h.useLines.foldl fun _ _ hv => hv.gWriteLine)

theorem State.SameUnits.land : s.SameUnits u.land := by
  unfold State.land
  dsimp only
  refine h.foldl fun _ _ hv => .ite hv ?_
  exact .same (u := List.foldl _ _ _) (hv.foldl fun _ _ hw => .ite hw.mWrite hw) rfl rfl

theorem State.SameUnits.snoop {n l : Nat} : s.SameUnits (u.snoop n l) := by
  unfold State.snoop
  dsimp only
  refine .ite (.gWriteLine (.emit ?_)) (.emit ?_) <;> exact h.same rfl rfl

theorem State.SameUnits.snoops {g len : Nat} : s.SameUnits (u.snoops g len) := by
  unfold State.snoops State.snoopLine
  dsimp only
  exact h.foldl fun _ _ hv => .ite (hv.foldl fun _ _ hw => hw.snoop) hv

theorem State.SameUnits.startMove {b : Nat} {v : State} (hv : s.SameUnits v) : s.SameUnits ((u.startMove b).getD v) := by
  cases e : u.startMove b with
  | none => exact hv
  | some w =>
    unfold State.startMove at e
    dsimp only at e
    obtain ⟨bs, -, e⟩ := Option.bind_eq_some_iff.1 e
    obtain ⟨t, -, rfl⟩ := Option.map_eq_some_iff.1 e
    exact h.same rfl rfl

theorem State.SameUnits.maybeMigrate {b : Nat} : s.SameUnits (u.maybeMigrate b) := .ite (h.startMove h.faultL) h

theorem State.SameUnits.eccLine {e : EccHit} : s.SameUnits (u.eccLine e) := by
  unfold State.eccLine
  dsimp only
  refine .ite ?_ ?_
  · exact h.same rfl rfl
  split
  · split
    · refine .faultP ?_
      exact h.same rfl rfl
    · exact h.same rfl rfl
    · exact h.same rfl rfl
    · exact h.setStack
  · refine .faultP (.setReg ?_)
    exact h.same rfl rfl

theorem State.SameUnits.checked {a len : Nat} : s.SameUnits (u.checked a len) := by
  unfold State.checked
  dsimp only
  refine h.foldl fun _ _ hv => ?_
  split
  · refine .maybeMigrate (.eccLine ?_)
    exact hv.same rfl rfl
  · exact hv

/-! ### Sending (R183, R197, R267) -/

theorem State.SameUnits.gatherReads {part b k : Nat} {es : List Extent} {acc : List (Option (List Byte))} :
    s.SameUnits (u.gatherReads part b k es acc).1 := by
  induction es generalizing u k acc with
  | nil => exact h
  | cons e es ih =>
    unfold State.gatherReads
    split
    · exact ih h.issueRead
    · exact ih h

theorem State.SameUnits.gather {part : Nat} {es : List Extent} {why : Why} : s.SameUnits (u.gather part es why).1 := by
  unfold State.gather
  dsimp only
  have read : s.SameUnits (es.foldl (fun s e => if e.link.isNone then (s.useLines e.addr e.len).checked e.addr e.len else s)
      (es.foldl (fun s e => if winOf e.addr = 1 then s.snoops (bitsN e.addr 0 48) e.len else s) u.land)) :=
    (h.land.foldl fun _ _ hv => .ite hv.snoops hv).foldl fun _ _ hv => .ite hv.useLines.checked hv
  split
  · exact read
  · split
    · exact read
    · exact read.fresh.gatherReads.putBuild

theorem State.SameUnits.handOn {m : Msg} {k : SwPkt} : s.SameUnits (u.handOn m k) := by
  unfold State.handOn State.countSeal
  dsimp only
  exact .ite (.leftPort (.setSw (.ite h.count h))) (.ite h.setSw h.setInq)

theorem State.SameUnits.sendCopy {id psn : Nat} {pay : List Byte} {first : Bool} : s.SameUnits (u.sendCopy id psn pay first) := by
  unfold State.sendCopy
  split
  · exact h
  · exact .ite h h.handOn

theorem State.SameUnits.sendAll {id : Nat} {data : List Byte} : s.SameUnits (u.sendAll id data) := by
  unfold State.sendAll
  split
  · exact h
  · exact h.foldl fun _ _ hv => hv.sendCopy

theorem State.SameUnits.tryEnd {id : Nat} : s.SameUnits (u.tryEnd id) := by
  unfold State.tryEnd
  split
  · exact h
  · refine .ite ?_ h
    split <;> exact h.endMsg

theorem State.SameUnits.failPkt {id psn st : Nat} {data : Word} : s.SameUnits (u.failPkt id psn st data) := by
  unfold State.failPkt
  split
  · exact h
  · exact .ite h h.putMsg.tryEnd

theorem State.SameUnits.gotResend {id psn : Nat} {g : Got} : s.SameUnits (u.gotResend id psn g) := by
  unfold State.gotResend
  split
  · exact h
  · split
    · exact .ite h h.sendCopy
    · exact h.failPkt

theorem State.SameUnits.resend {id psn : Nat} : s.SameUnits (u.resend id psn) := by
  unfold State.resend
  split
  · exact h
  · refine .ite h ?_
    split
    · exact h.sendCopy
    · exact h.sendCopy
    · exact h.sendCopy
    · exact h.sendCopy
    · dsimp only
      split
      · exact h.gather.gotResend
      · exact h.gather

theorem State.SameUnits.gotMessage {id : Nat} {g : Got} : s.SameUnits (u.gotMessage id g) := by
  unfold State.gotMessage
  split
  · exact h.sendAll
  · exact h.foldl fun _ _ hv => hv.resend
  · exact h

theorem State.SameUnits.raiseRate {n : Nat} : s.SameUnits (u.raiseRate n) := by
  unfold State.raiseRate
  split
  · exact h
  · exact h.setFlights

theorem State.SameUnits.begin {id : Nat} {m : Msg} : s.SameUnits (u.begin id m) := by
  unfold State.begin
  dsimp only
  refine .ite h.endMsg ?_
  split
  · exact .sendAll (.ite h.putMsg h.putMsg.raiseRate)
  · exact .sendAll (.ite h.putMsg h.putMsg.raiseRate)
  · exact .sendAll (.ite h.putMsg h.putMsg.raiseRate)
  · exact .sendAll (.ite h.putMsg h.putMsg.raiseRate)
  · split
    · exact .gotMessage (.gather (.ite h.putMsg h.putMsg.raiseRate))
    · exact .gather (.ite h.putMsg h.putMsg.raiseRate)

theorem State.SameUnits.tryBegin {id : Nat} : s.SameUnits (u.tryBegin id) := by
  unfold State.tryBegin State.mgtFlight
  split
  · exact .ite (.begin (.ite h.takeFlight h)) (.ite h.takeFlight h)
  · exact h

theorem State.SameUnits.sendCol {k step dst off : Nat} {x : Plan} {ctl : List Word} {data : List Byte} :
    s.SameUnits (u.sendCol k x step dst ctl data off) := h.addMsg.tryBegin

/-! ### Groups (R358 to R360) -/

theorem State.SameUnits.colIdles {k : Nat} {x : Plan} : s.SameUnits (u.colIdles k x) := by
  unfold State.colIdles
  split
  · exact h.foldl fun _ _ hv => hv.idleFrom
  · exact h

theorem State.SameUnits.abortPlan {cause member step old gen k : Nat} : s.SameUnits (u.abortPlan cause member step old gen k) := by
  unfold State.abortPlan
  split
  · exact h
  · dsimp only
    refine .modPlan (.foldl ?_ fun _ _ hv => hv.endCol)
    split
    · refine .same (u := List.foldl _ _ _) (.dropMsgs (.foldl h fun _ _ hv => ?_)) rfl rfl
      exact hv.sendCol
    · refine .ite ?_ (.endCol (.modPlan (.colIdles (.count (.count ?_))))) <;>
      · refine .same (u := List.foldl _ _ _) (.dropMsgs (.foldl h fun _ _ hv => ?_)) rfl rfl
        exact hv.sendCol

theorem State.SameUnits.abortGroup {g cause member step : Nat} : s.SameUnits (u.abortGroup g cause member step) := by
  unfold State.abortGroup
  dsimp only
  exact .ite h (h.setGroup.setReg.foldl fun _ _ hv => hv.abortPlan)

/-! ### The loss of a link (R132, R134) -/

theorem State.SameUnits.uncountPacket {k psn : Nat} : s.SameUnits (u.uncountPacket k psn) := by
  unfold State.uncountPacket
  split
  · exact h
  · exact h.putRd

theorem State.SameUnits.dropPlace {id : Nat} {x : Placement} : s.SameUnits (u.dropPlace id x) := by
  unfold State.dropPlace
  dsimp only
  split
  case' h_1 => refine .setRegion ?_
  all_goals
    split
    · refine .uncountPacket ?_
      exact h.same rfl rfl
    · exact h.same rfl rfl

theorem State.SameUnits.dropPlaces {p : Placement → Bool} : s.SameUnits (u.dropPlaces p) := h.foldl fun _ _ hv => hv.dropPlace

theorem State.SameUnits.lossRegion {i : Nat} : s.SameUnits (u.lossRegion i) := by
  unfold State.lossRegion
  dsimp only
  split
  · exact h.beginClosing.endClosing
  · exact h.endClosing.clearWaiters.foldl fun _ _ hv => hv.finishAdm
  · exact h

theorem State.SameUnits.lossRegions {l : Nat} : s.SameUnits (u.lossRegions l) := h.dropPlaces.dropServes.foldl fun _ _ hv => hv.lossRegion

theorem State.SameUnits.lossRecs {q : Nat} : s.SameUnits (u.lossRecs q) :=
  h.foldl fun _ _ hv => .ite hv.modRec hv.dropMsgs.endSilent

theorem State.SameUnits.dropHeld {q : Nat} : s.SameUnits (u.dropHeld q) := by
  unfold State.dropHeld State.pfcCheck State.sendPfc State.ethCount
  split
  · exact h
  · dsimp only
    exact .idleFrom (.ite h.setEthPort.count.setEthPort (.ite (.setEthPort h.setEthPort.count.setEthPort)
      (.count (.emit (.setEthPort h.setEthPort.count.setEthPort)))))

theorem State.SameUnits.lossQp {n : Nat} : s.SameUnits (u.lossQp n) := by
  unfold State.lossQp
  dsimp only
  exact .ite h.dropFetches.dropHeld.unbindRds.modQp.lossRecs h.dropFetches

theorem State.SameUnits.lossRing {r : Nat} : s.SameUnits (u.lossRing r) := by
  unfold State.lossRing
  dsimp only
  exact .reap (.setRing (h.foldl fun _ _ hv => hv.delBuild))

theorem State.SameUnits.lossQueues {l : Nat} : s.SameUnits (u.lossQueues l) := by
  unfold State.lossQueues
  dsimp only
  refine .foldl (.foldl (.foldl (h.foldl ?_) ?_) ?_) ?_ <;> intro _ _ hv
  · exact hv.lossRing
  · exact hv.lossQp
  · exact hv.setAdmq.dropFetches.lossRecs
  · exact hv.setFaultq

theorem State.SameUnits.lossRec {r : Nat} : s.SameUnits (u.lossRec r) := by
  unfold State.lossRec
  split
  · exact h
  · refine .endWith ?_
    exact .same h.giveUp.dropPlaces rfl rfl

theorem State.SameUnits.lossOthers {l : Nat} {builds : List (Nat × Build)} : s.SameUnits (u.lossOthers l builds) := by
  unfold State.lossOthers
  dsimp only
  refine .foldl (.foldl (h.foldl ?_) ?_) ?_ <;> intro _ _ hv
  · split
    · exact hv.abortGroup
    · exact hv.lossRec
  · exact hv.admEnd
  · refine .ite hv ?_
    split
    · exact hv.delBuild.admEnd
    · exact hv.delBuild.entryReady.reap
    · exact hv.delBuild

theorem State.SameUnits.linkLoss {l cause : Nat} : s.SameUnits (u.linkLoss l cause) := by
  unfold State.linkLoss
  dsimp only
  exact .faultL (h.modLink.lossReads.lossRegions.lossQueues.lossOthers.foldl fun _ _ hv => hv.faultP)

theorem State.SameUnits.dieLinksDown {n : Nat} : s.SameUnits (u.dieLinksDown n) := by
  unfold State.dieLinksDown State.linkDown
  exact h.foldl fun _ _ hv => .ite hv.idleFrom.modLink.modLink.linkLoss hv.idleFrom.modLink.modLink

theorem State.SameUnits.ethDown {e : Nat} : s.SameUnits (u.ethDown e) := by
  unfold State.ethDown
  dsimp only
  refine .ite h.setEthPort (.foldl (.faultL (.foldl h.countSat.setEthPort.setOut ?_)) ?_) <;> intro _ _ hv
  · exact hv.finish
  · exact .ite hv.leftPort hv

end Sys2Proof.Machine
end

section
/-!
Leaving service: the domains off, the fault record written (R35, R485, R489, R496 to R500).
-/
namespace Sys2Proof.Machine

theorem State.domFitted_of_chip {s u : State} (h : u.chip = s.chip) (d : Nat) : u.domFitted d = s.domFitted d := by
  unfold State.domFitted State.nStacks State.nEngines State.sized State.half
  rw [h]

/-- Where leaving service takes a domain: a stack into RETAIN where the rule says so, every other OFF. -/
def offState (retain : Bool) (d : Nat) : DomState := if 24 ≤ d ∧ d < 44 ∧ retain then .retain else .off

theorem offState_ne_failed (retain : Bool) (d : Nat) : offState retain d ≠ .failed := by
  unfold offState
  split <;> exact DomState.noConfusion

/-- One domain leaves service, unless it is kept, has failed or is not fitted: the step of `State.domainsOff`. -/
def State.putOff (keep : Nat → Bool) (retain : Bool) (s : State) (d : Nat) : State :=
  if keep d || (s.dom d).state == .failed || !s.domFitted d then s
  else s.setDom d { s.dom d with state := offState retain d, idleAt := none, fromOff := offState retain d == .off }

/-- Fabric, links and Ethernet ports go dark before the domains go off. -/
def State.darkened (s : State) (keep : Nat → Bool) : State :=
  ((List.range 8).filter (fun n => s.fabricDark.domFitted (portDom n) && !keep (portDom n))).foldl
    (fun s n => ((s.dieLinksDown n).ethDown n).dieDark n) s.fabricDark

theorem State.domainsOff_eq (s : State) (keep : Nat → Bool) (retain : Bool) :
    s.domainsOff keep retain = { ((List.range 84).foldl (State.putOff keep retain) (s.darkened keep)).banksLost with waiting := [] } := rfl

theorem State.outOfService_doms (s : State) (keep : Nat → Bool) (retain : Bool) :
    (s.outOfService keep retain).doms = ((List.range 84).foldl (State.putOff keep retain) (s.darkened keep)).doms := by
  unfold State.outOfService
  rw [State.setFld_doms, State.domainsOff_eq]
  rfl

theorem State.darkened_sameUnits (s : State) (keep : Nat → Bool) : s.SameUnits (s.darkened keep) :=
  (State.SameUnits.refl s).fabricDark.foldl fun _ _ hv => hv.dieLinksDown.ethDown.dieDark

section
variable {keep : Nat → Bool} {retain : Bool} {s : State} {d : Nat}

theorem State.putOff_chip (e : Nat) : (s.putOff keep retain e).chip = s.chip := by
  unfold State.putOff
  split <;> rfl

theorem State.putOff_dom_self (hk : keep d = false) (hf : s.domFitted d = true) (hd : (s.dom d).state ≠ .failed) :
    ((s.putOff keep retain d).dom d).state = offState retain d := by
  unfold State.putOff
  rw [if_neg (by simp [hk, hf, hd]), State.setDom_dom, if_pos rfl]

theorem State.putOff_dom_other {e : Nat} (h : e ≠ d) : (s.putOff keep retain e).dom d = s.dom d := by
  unfold State.putOff
  split
  · rfl
  · rw [State.setDom_dom, if_neg h]

/-- A fitted domain that has not failed is off once the list of domains that go off has named it. -/
theorem State.foldl_putOff_dom (hk : keep d = false) (l : List Nat) (hf : s.domFitted d = true) (hd : (s.dom d).state ≠ .failed)
    (h : d ∈ l ∨ (s.dom d).state = offState retain d) : ((l.foldl (State.putOff keep retain) s).dom d).state = offState retain d := by
  induction l generalizing s with
  | nil => exact h.resolve_left List.not_mem_nil
  | cons e l ih =>
    have hf' : (s.putOff keep retain e).domFitted d = true := (State.domFitted_of_chip (State.putOff_chip e) d).trans hf
    by_cases c : e = d
    · subst c
      have off := State.putOff_dom_self (retain := retain) hk hf hd
      exact ih hf' (off ▸ offState_ne_failed retain e) (.inr off)
    · have other := State.putOff_dom_other (keep := keep) (retain := retain) (s := s) c
      refine ih hf' (other ▸ hd) ?_
      rw [other]
      exact h.imp_left fun m => (List.mem_cons.1 m).resolve_left fun he => c he.symm

/-- **The domains when service ends** (R485, R489). -/
theorem State.outOfService_dom (hk : keep d = false) (h84 : d < 84) (hf : s.domFitted d = true) (hd : (s.dom d).state ≠ .failed) :
    ((s.outOfService keep retain).dom d).state = offState retain d := by
  obtain ⟨hchip, hfailed⟩ := s.darkened_sameUnits keep
  rw [State.dom_of_doms (s.outOfService_doms keep retain)]
  exact State.foldl_putOff_dom (s := s.darkened keep) hk (List.range 84) ((State.domFitted_of_chip hchip d).trans hf)
    (mt (hfailed d).1 hd) (.inl (List.mem_range.2 h84))

end

theorem State.outOfService_stage (s : State) (keep : Nat → Bool) (retain : Bool) : (s.outOfService keep retain).stage = 8 :=
  State.fld_setFld_self _ _ _ 0 0 (by decide)

/-! ### A record in the Lamp-room fault queue (R496 to R500) -/

section
variable (s : State)

theorem State.sendMsix_only (l fn v : Nat) : ∃ io eg cnt, s.sendMsix l fn v = { s with io := io, egress := eg, cnt := cnt } := by
  obtain h | ⟨_, h⟩ | ⟨_, h⟩ := s.sendMsix_cases l fn v
  · exact ⟨s.io, s.egress, s.cnt, h⟩
  · exact ⟨_, s.egress, s.cnt, h⟩
  · exact ⟨s.io, _, _, h⟩

/-- A device record goes to a released slot of the Lamp-room queue, or is tallied; its interrupt may leave. -/
theorem State.faultL_eq (cls code unit d0 d1 : Nat) : ∃ io eg cnt, s.faultL cls code unit d0 d1 =
    { s.setFaultq 64 (if (s.faultq 64).owed || !released (s.faultq 64).tail (s.faultq 64).head (s.faultq 64).log2 then
        { s.faultq 64 with
          tally := Tbl.set 0 (s.faultq 64).tally cls (satAdd (Tbl.get 0 (s.faultq 64).tally cls) 1 16), lost := (s.faultq 64).lost + 1, owed := true }
      else { s.faultq 64 with
        tail := ((s.faultq 64).tail + 1) % 2 ^ 32, armed := false
        slots := Tbl.put (s.faultq 64).slots ((s.faultq 64).tail % 1024)
          (faultWords (s.faultq 64) cls code (s.part 0).gen 0 false s.now unit d0 d1) }) with io := io, egress := eg, cnt := cnt } := by
  unfold State.faultL State.faultPut
  dsimp only
  split
  case isTrue full => exact ⟨s.io, s.egress, s.cnt, rfl⟩
  case isFalse =>
    unfold State.faultStore State.faultIrq
    dsimp only
    rw [if_pos rfl]
    split
    · exact State.sendMsix_only _ _ _ _
    · exact ⟨s.io, s.egress, s.cnt, rfl⟩

theorem State.faultL_recorded (cls code unit d0 d1 : Nat) : (s.faultL cls code unit d0 d1).recorded cls code unit d0 d1 := by
  obtain ⟨io, eg, cnt, h⟩ := s.faultL_eq cls code unit d0 d1
  have hq : (s.faultL cls code unit d0 d1).faultq 64 = _ := (congrArg (State.faultq · 64) h).trans (State.setFaultq_faultq s 64 _)
  unfold State.recorded
  rw [hq]
  split
  case isTrue => 
    refine .inl ⟨rfl, ?_⟩
    rw [Tbl.get_set_self]
    unfold satAdd
    omega
  case isFalse =>
    refine .inr ⟨s.faultq 64, rfl, ?_⟩
    rw [h]
    exact Tbl.find_put_self _ _ _

theorem State.faultL_doms (cls code unit d0 d1 : Nat) : (s.faultL cls code unit d0 d1).doms = s.doms := by
  obtain ⟨io, eg, cnt, h⟩ := s.faultL_eq cls code unit d0 d1
  rw [h]
  rfl

theorem State.faultL_pwr (cls code unit d0 d1 : Nat) : (s.faultL cls code unit d0 d1).pwr = s.pwr := by
  obtain ⟨io, eg, cnt, h⟩ := s.faultL_eq cls code unit d0 d1
  rw [h]
  rfl

theorem State.faultL_fld (cls code unit d0 d1 : Nat) (f : Fld) (i j : Nat) : (s.faultL cls code unit d0 d1).fld f i j = s.fld f i j := by
  obtain ⟨io, eg, cnt, h⟩ := s.faultL_eq cls code unit d0 d1
  rw [h]
  rfl

end

/-! ### The trip (R489) -/

theorem exec_thermalTrip_below {s : State} {t die temp : Nat} (h : temp < tripAt die) : exec (.thermalTrip t die temp) s = .next (s.at t) :=
  if_neg fun c => Nat.not_le.2 h c.2

/-- A die stands at its trip limit, so at or above WARN_AT, and TRIP# is driven (R489, R530). -/
def State.atTrip (s : State) (die : Nat) : State :=
  { s with pwr := { s.pwr with hot := (s.pwr.hot ++ [die]).eraseDups, atWarn := (s.pwr.atWarn ++ [die]).eraseDups, trip := true } }

theorem State.atTrip_fld (s : State) (die : Nat) (f : Fld) (i j : Nat) : (s.atTrip die).fld f i j = s.fld f i j := rfl
theorem State.atTrip_doms (s : State) (die : Nat) : (s.atTrip die).doms = s.doms := rfl

/-- Service has ended, and TRIPPED is set. -/
def State.tripped (s : State) : State := (s.outOfService (fun _ => false) true).setFld F.PWR_THERMAL_TRIPPED 1

theorem State.tripped_stage (s : State) : s.tripped.stage = 8 :=
  (State.fld_setFld_reg _ _ _ _ _ _ _ _ (by decide)).trans (s.outOfService_stage _ _)

theorem State.tripped_flag (s : State) : s.tripped.fld F.PWR_THERMAL_TRIPPED = 1 := State.fld_setFld_self _ _ _ 0 0 (by decide)

theorem State.tripped_dom {s : State} {d : Nat} (h84 : d < 84) (hf : s.domFitted d = true) (hd : (s.dom d).state ≠ .failed) :
    (s.tripped.dom d).state = if 24 ≤ d ∧ d < 44 then .retain else .off := by
  rw [State.tripped, State.dom_of_doms (State.setFld_doms ..), State.outOfService_dom rfl h84 hf hd, offState]
  simp only [and_true]

theorem exec_thermalTrip_at {s : State} {t die temp : Nat} (hd : die ≤ 30) (h : tripAt die ≤ temp) :
    exec (.thermalTrip t die temp) s = .next ((((s.at t).hottest die temp).tripped.atTrip die).faultL 7 0x71 die temp 0) := if_pos ⟨hd, h⟩

/-- **A thermal trip** (R489, R530): service ends, its record is written, TRIPPED and TRIP# show it. -/
theorem exec_thermalTrip_trips {s : State} {t die temp : Nat} (hd : die ≤ 30) (h : tripAt die ≤ temp) :
    ∃ u, exec (.thermalTrip t die temp) s = .next u ∧ s.leavesService u ∧ u.recorded 7 0x71 die temp 0 ∧
      u.flag F.PWR_THERMAL_TRIPPED = true ∧ u.pwr.trip = true ∧ die ∈ u.pwr.atWarn := by
  obtain ⟨v, hv⟩ : ∃ v, v = ((s.at t).hottest die temp).tripped := ⟨_, rfl⟩
  have fields : ∀ f, ((v.atTrip die).faultL 7 0x71 die temp 0).fld f = v.fld f := fun f =>
    (State.faultL_fld ..).trans (State.atTrip_fld ..)
  refine ⟨(v.atTrip die).faultL 7 0x71 die temp 0, hv ▸ exec_thermalTrip_at hd h, ⟨?_, fun d h84 hf hdom => ?_⟩,
    State.faultL_recorded .., ?_, ?_, ?_⟩
  · rw [State.stage, fields, hv]
    exact State.tripped_stage _
  · rw [State.dom_of_doms ((State.faultL_doms ..).trans (v.atTrip_doms die)), hv]
    exact State.tripped_dom h84 hf hdom
  · rw [State.flag, fields, hv, State.tripped_flag]
    rfl
  · rw [State.faultL_pwr]
    rfl
  · rw [State.faultL_pwr]
    exact List.mem_eraseDups.2 (List.mem_append_right _ (List.mem_singleton.2 rfl))

/-! ### A device reset asked for while a die is hot (R489, R491) -/

/-- It waits. -/
theorem State.askReset_hot {s : State} (h : s.pwr.atWarn ≠ []) (x : StartInput) :
    s.askReset x = { s with pwr := { s.pwr with waiting := some true } } := by
  unfold State.askReset
  rw [if_neg (by simpa using h)]

theorem exec_lampResetWrite_key {s : State} {w : Word} (t : Nat) (x : StartInput) (hk : bits w 16 16 = 0xD5E7) (hd : bit w 0 = true) :
    exec (.lampResetWrite t w x) s = .next ((s.at t).askReset x) := congrArg Host.Outcome.next (if_pos ⟨hk, hd⟩)

theorem exec_deviceReset_begins {s : State} {r : Nat} {x : Rec} (t : Nat) (y : StartInput) (h : s.begins r Op.DEVICE_RESET x) :
    exec (.deviceReset t r y) s = .next (((s.at t).delRec r).askReset y) :=
  congrArg Host.Outcome.next (State.admRun_begins (s := s.at t) h fun s _ => (s.delRec r).askReset y)

/-- With every die below WARN_AT and no reset or start that waited, time passes. -/
theorem exec_dieBelowWarnAt_idle {s : State} (t : Nat) (x : StartInput) (h : s.pwr.waiting = none) :
    exec (.dieBelowWarnAt t x) s = .next { s.at t with pwr := { s.pwr with atWarn := [] } } := by
  change execDieBelowWarnAt t x s = _
  unfold execDieBelowWarnAt
  dsimp only
  rw [State.at_pwr, h]

/-- A device reset that waited begins (R489). -/
theorem exec_dieBelowWarnAt_reset {s : State} (t : Nat) (x : StartInput) (h : s.pwr.waiting = some true) :
    exec (.dieBelowWarnAt t x) s = .next (State.deviceReset { s.at t with pwr := { s.pwr with atWarn := [], waiting := none } } x) := by
  change execDieBelowWarnAt t x s = _
  unfold execDieBelowWarnAt
  dsimp only
  rw [State.at_pwr, h]
  rfl

end Sys2Proof.Machine
end

section
/-!
What a device reset wipes (R492 steps 1 to 3, R493): the partitions that come back, and the regions, which are all shut.
-/
namespace Sys2Proof.Machine

/-! ### The partitions that come back (R404, R492 step 6) -/

/-- A table whose values are changed by a function that keeps the default, and whose defaults are dropped, reads the changed value. -/
theorem Tbl.get_filter_map {α : Type} [DecidableEq α] {d : α} {f : α → α} (hf : f d = d) {t : Tbl α} (ht : Tbl.rising t = true) (i : Nat) :
    Tbl.get d ((Tbl.map (fun _ x => f x) t).filter (fun e => e.2 != d)) i = f (Tbl.get d t i) := by
  rw [Tbl.rising_iff] at ht
  induction t with
  | nil => exact hf.symm
  | cons e t ih =>
    obtain ⟨k, v⟩ := e
    obtain ⟨later, ht⟩ := List.pairwise_cons.1 ht
    have ih := ih ht
    change Tbl.get d (List.filter _ ((k, f v) :: Tbl.map (fun _ x => f x) t)) i = _
    rw [Tbl.get_cons]
    by_cases hv : f v = d
    · rw [List.filter_cons_of_neg (by simp [hv]), ih]
      split
      case isTrue hk =>
        have absent : Tbl.find t i = none := by
          cases c : Tbl.find t i with
          | none => rfl
          | some y => exact absurd (later _ (Tbl.mem_of_find c)) (by simp [hk])
        rw [Tbl.get_eq_find, absent, hv]
        exact hf
      case isFalse => rfl
    · rw [List.filter_cons_of_pos (by simp [hv]), Tbl.get_cons, ih]
      split <;> rfl

theorem partKept_none : partKept Part.none = Part.none := rfl

theorem partKept_of_lives {x : Part} (h : x.lives = true) :
    (partKept x).state = .active ∧ (partKept x).gen = (x.gen + 1) % 65536 ∧ (partKept x).quota = x.quota := by
  unfold partKept
  rw [if_pos h]
  exact ⟨rfl, rfl, rfl⟩

theorem partKept_of_gone {x : Part} (h : x.lives = false) : (partKept x).state = .free ∧ (partKept x).gen = x.gen := by
  unfold partKept
  rw [if_neg (by rw [h]; decide)]
  exact ⟨rfl, rfl⟩

/-! ### The regions closed (R71, R74, R492 step 2) -/

/-- Two states that differ in the regions and the registers alone. -/
def State.SameButRegions (s u : State) : Prop := u = { s with xl := u.xl, regs := u.regs }

theorem State.SameButRegions.refl (s : State) : s.SameButRegions s := rfl

theorem State.SameButRegions.trans {s u v : State} (h : s.SameButRegions u) (g : u.SameButRegions v) : s.SameButRegions v := by
  unfold State.SameButRegions at h g ⊢
  rw [g, h]

theorem State.setReg_sameButRegions (s : State) (r : RegName) (i j : Nat) (w : Word) : s.SameButRegions (s.setReg r i j w) := rfl
theorem State.setRegion_sameButRegions (s : State) (i : Nat) (x : Region) : s.SameButRegions (s.setRegion i x) := rfl

theorem State.endClosing_sameButRegions (s : State) (i : Nat) : s.SameButRegions (s.endClosing i) :=
  (s.setRegion_sameButRegions i _).trans rfl

theorem State.clearWaiters_sameButRegions (s : State) (i : Nat) : s.SameButRegions (s.clearWaiters i) := s.setRegion_sameButRegions i _

/-- An entry that nothing is closing and nobody can use. -/
def Region.shut (x : Region) : Prop := x.state = .closed ∨ x.state = .retired

section
variable {s : State}

/-- Where there are no records, none ends. -/
theorem State.finishAdm_noRec (h : s.qm.recs = []) (r status data reason : Nat) : s.finishAdm r status data reason = s := by
  have none : s.getRec r = Option.none := by
    unfold State.getRec
    rw [h]
    rfl
  unfold State.finishAdm State.finish State.endRec
  rw [none]
  unfold State.fenceSweep
  rw [h]
  rfl

theorem State.foldl_finishAdm_noRec (h : s.qm.recs = []) (l : List Nat) (status : Nat) :
    l.foldl (fun s r => s.finishAdm r status) s = s :=
  State.foldl_same _ l s fun r _ => State.finishAdm_noRec h r status 0 0

theorem State.endClosing_region (s : State) (i j : Nat) :
    ((s.endClosing i).region j) = if i = j then { s.region i with
      state := if (s.region i).retire then .retired else .closed, busy := 0, seq := s.xl.rgnSeq + 1 } else s.region j :=
  State.setRegion_region s i j _

theorem State.endClosing_shut (s : State) (i : Nat) : ((s.endClosing i).region i).shut := by
  rw [State.endClosing_region, if_pos rfl]
  unfold Region.shut
  dsimp only
  split
  · exact .inr rfl
  · exact .inl rfl

theorem State.endClosing_other (s : State) {i j : Nat} (h : i ≠ j) : (s.endClosing i).region j = s.region j := by
  rw [State.endClosing_region, if_neg h]

theorem State.clearWaiters_shut_iff (s : State) (i : Nat) : ((s.clearWaiters i).region i).shut ↔ (s.region i).shut := by
  unfold State.clearWaiters
  rw [State.setRegion_region, if_pos rfl]
  rfl

theorem State.clearWaiters_other (s : State) {i j : Nat} (h : i ≠ j) : (s.clearWaiters i).region j = s.region j := by
  unfold State.clearWaiters
  rw [State.setRegion_region, if_neg h]

theorem State.region_of_xl {s u : State} (h : u.xl = s.xl) (i : Nat) : u.region i = s.region i := by
  unfold State.region
  rw [h]

theorem State.abortRegion_open {s : State} {i : Nat} (h : (s.region i).state = .open) :
    s.abortRegion i = (s.beginClosing i none).endClosing i := by
  unfold State.abortRegion
  dsimp only
  rw [h]

/-- Where there are no records, only the entry and RGN_ABORT_LOG tell of a closing that is cut short. -/
theorem State.abortRegion_closing {s : State} {i : Nat} (h : s.qm.recs = []) (hc : (s.region i).state = .closing) :
    ∃ w, s.abortRegion i = ((s.endClosing i).clearWaiters i).setReg .RGN_ABORT_LOG 0 0 w := by
  unfold State.abortRegion
  dsimp only
  rw [hc]
  dsimp only
  have noRec : ∀ w, (((s.endClosing i).clearWaiters i).setReg .RGN_ABORT_LOG 0 0 w).qm.recs = [] := fun _ => h
  cases (s.region i).revoker with
  | none => exact ⟨_, State.foldl_finishAdm_noRec (noRec _) _ _⟩
  | some r =>
    dsimp only
    rw [State.finishAdm_noRec (noRec _)]
    exact ⟨_, State.foldl_finishAdm_noRec (noRec _) _ _⟩

theorem State.abortRegion_shut {s : State} {i : Nat} (h : (s.region i).shut) : s.abortRegion i = s := by
  unfold State.abortRegion
  dsimp only
  rcases h with h | h <;> rw [h]

/-- What a reset does to one entry: it is shut, and nothing else but the registers changes (R71, R74). -/
theorem State.abortRegion_shuts (h : s.qm.recs = []) (i : Nat) :
    s.SameButRegions (s.abortRegion i) ∧ ((s.abortRegion i).region i).shut ∧ ∀ j, i ≠ j → (s.abortRegion i).region j = s.region j := by
  have already (hs : (s.region i).shut) : s.SameButRegions (s.abortRegion i) ∧ ((s.abortRegion i).region i).shut ∧
      ∀ j, i ≠ j → (s.abortRegion i).region j = s.region j := by
    rw [State.abortRegion_shut hs]
    exact ⟨.refl s, hs, fun _ _ => rfl⟩
  cases c : (s.region i).state with
  | closed => exact already (.inl c)
  | retired => exact already (.inr c)
  | closing =>
    obtain ⟨w, e⟩ := State.abortRegion_closing h c
    rw [e]
    have cleared := (s.endClosing_sameButRegions i).trans ((s.endClosing i).clearWaiters_sameButRegions i)
    refine ⟨cleared.trans (State.setReg_sameButRegions ..), ?_, fun j hj => ?_⟩
    · rw [State.region_of_xl (State.setReg_xl ..), State.clearWaiters_shut_iff]
      exact s.endClosing_shut i
    · rw [State.region_of_xl (State.setReg_xl ..), State.clearWaiters_other _ hj, State.endClosing_other _ hj]
  | _ => -- what is left is an open entry, whose constructor's name is a word of Lean
    rw [State.abortRegion_open c]
    refine ⟨(State.setRegion_sameButRegions ..).trans (State.endClosing_sameButRegions ..), State.endClosing_shut _ i, fun j hj => ?_⟩
    rw [State.endClosing_other _ hj]
    exact (State.setRegion_region ..).trans (if_neg hj)

/-- What a reset does to the entries: those it names are shut, and nothing but the entries and the registers changes. -/
theorem State.foldl_abortRegion_shuts (l : List Nat) (h : s.qm.recs = []) :
    s.SameButRegions (l.foldl State.abortRegion s) ∧ ∀ i, (i ∈ l ∨ (s.region i).shut) → ((l.foldl State.abortRegion s).region i).shut := by
  induction l generalizing s with
  | nil => exact ⟨.refl s, fun i c => c.resolve_left List.not_mem_nil⟩
  | cons k l ih =>
    obtain ⟨same, shut, other⟩ := State.abortRegion_shuts h k
    have noRec : (s.abortRegion k).qm.recs = [] := by rw [same]; exact h
    obtain ⟨rest, shuts⟩ := ih noRec
    refine ⟨same.trans rest, fun i c => shuts i ?_⟩
    by_cases hk : k = i
    · exact .inr (hk ▸ shut)
    · rw [other i hk]
      exact c.imp_left fun m => (List.mem_cons.1 m).resolve_left fun he => hk he.symm

/-- The state in which a reset closes the regions: everything that is lost has gone (R492 steps 1 to 3). -/
def State.resetBase (s : State) : State :=
  { s.wiped with
    pool := if s.poolGone then s.wiped.pool else s.poolKept.pool
    xl := if s.poolGone then s.wiped.xl else { tables := s.xl.tables.filter (fun e => (s.part e.1).lives), rgn := s.xl.rgn, rgnSeq := s.xl.rgnSeq }
    parts := (Tbl.map (fun _ x => partKept x) s.parts).filter (fun e => e.2 != Part.none)
    faultqs := s.faultqs.filter (fun e => e.1 == 64) }

theorem State.warmWiped_eq (s : State) :
    s.warmWiped = (s.xl.rgn.map (·.1)).foldl State.abortRegion (s.resetBase.setReg .LAMP_POSITION 0 0 (s.reg .LAMP_POSITION)) := rfl

end

theorem Region.fresh_shut : Region.fresh.shut := .inl rfl

/-- **What a device reset wipes** (R492 steps 1 to 3): beside the regions, which are all shut, and the registers, the state is `State.resetBase`. -/
theorem State.warmWiped_shuts (s : State) (hg : s.poolGone = false) :
    s.resetBase.SameButRegions s.warmWiped ∧ ∀ i, (s.warmWiped.region i).shut := by
  rw [State.warmWiped_eq]
  obtain ⟨same, shut⟩ := State.foldl_abortRegion_shuts (s := s.resetBase.setReg .LAMP_POSITION 0 0 (s.reg .LAMP_POSITION))
    (s.xl.rgn.map (·.1)) rfl
  refine ⟨(State.setReg_sameButRegions ..).trans same, fun i => shut i ?_⟩
  have entries : (s.resetBase.setReg .LAMP_POSITION 0 0 (s.reg .LAMP_POSITION)).xl.rgn = s.xl.rgn := by
    rw [State.setReg_xl, State.resetBase, hg]
    rfl
  unfold State.region
  rw [entries]
  cases c : Tbl.find s.xl.rgn i with
  | none =>
    rw [Tbl.get_eq_find, c]
    exact .inr Region.fresh_shut
  | some x => exact .inl (List.mem_map.2 ⟨_, Tbl.mem_of_find c, rfl⟩)

end Sys2Proof.Machine
end

section
/-!
A sound start up to its step 6, and the device reset made of it (R437, R439, R492).
-/
namespace Sys2Proof.Machine

/-! ### What a sound start finds (R2, R439, R451) -/

/-- A bit of a field that is all ones. -/
theorem bit_of_bits_ones {w : Word} {lo n k : Nat} (h : bits w lo n = 2 ^ n - 1) (hk : k < n) : bit w (lo + k) = true := by
  have ones : (bits w lo n).testBit k = true := by rw [h, Nat.testBit_two_pow_sub_one, decide_eq_true hk]
  unfold bits at ones
  rw [bitsN_testBit, decide_eq_true hk, Bool.true_and] at ones
  unfold bit bits bitsN
  rw [Nat.testBit_eq_decide_div_mod_eq, decide_eq_true_eq] at ones
  rw [Nat.pow_one, ones]
  rfl

section
variable {s : State} {x : StartInput} (hx : s.soundStart x)
include hx

theorem State.soundStart.ledgered (kind unit : Nat) : s.ledgered kind unit = false := by
  unfold State.ledgered
  rw [hx.1]
  rfl

theorem State.soundStart.unitBad {kind unit : Nat} (ha : unitAnswered x.pop kind unit = true) : s.unitBad x kind unit = none := by
  unfold State.unitBad
  rw [State.soundStart.ledgered hx, ha, hx.2.1]
  rfl

end
/-! ### Powering: registers, memory, links and domains (R437 steps 5 and 6) -/

/-- Two states that differ in what powering dies and stacks changes. -/
def State.SameButPower (s u : State) : Prop := u = { s with regs := u.regs, pool := u.pool, io := u.io, doms := u.doms }

section
variable {s u v : State} (h : s.SameButPower u)

omit h in
theorem State.SameButPower.refl (s : State) : s.SameButPower s := rfl

include h

theorem State.SameButPower.trans (g : u.SameButPower v) : s.SameButPower v := by
  unfold State.SameButPower at h g ⊢
  rw [g, h]

theorem State.SameButPower.chip : u.chip = s.chip := by rw [h]

theorem State.SameButPower.setFld {f : Fld} {w i j : Nat} : s.SameButPower (u.setFld f w i j) := h.trans rfl
theorem State.SameButPower.setBlk {b : Nat} {x : Blk} : s.SameButPower (u.setBlk b x) := h.trans rfl
theorem State.SameButPower.setStack {k : Nat} {x : Stack} : s.SameButPower (u.setStack k x) := h.trans rfl
theorem State.SameButPower.modLink {l : Nat} {f : Link → Link} : s.SameButPower (u.modLink l f) := h.trans rfl
theorem State.SameButPower.powerDom {d : Nat} {ok : Bool} : s.SameButPower (u.powerDom d ok) := h.trans rfl

theorem State.SameButPower.foldl {β : Type} {f : State → β → State} {l : List β}
    (hf : ∀ v, ∀ b ∈ l, s.SameButPower v → s.SameButPower (f v b)) : s.SameButPower (l.foldl f u) := by
  induction l generalizing u with
  | nil => exact h
  | cons b l ih => exact ih (hf u b List.mem_cons_self h) fun v c hc => hf v c (List.mem_cons_of_mem b hc)

theorem State.SameButPower.markBlocks {st : BlkState} {bs : List (Nat × Nat)} {us : List Use} : s.SameButPower (u.markBlocks st bs us) :=
  h.foldl fun _ _ _ hv => hv.setBlk

theorem State.SameButPower.takeInternal {ks : List Nat} {n : Nat} {f : Nat → Use} (hv : v ∈ u.takeInternal ks n f) : s.SameButPower v := by
  obtain ⟨bs, -, rfl⟩ := Option.map_eq_some_iff.1 hv
  exact h.markBlocks

omit h in
/-- A chain of reservations that keeps the rest wherever each of them does. -/
theorem State.SameButPower.foldl_bind {l : List Nat} {g : Nat → State → Option State}
    (hg : ∀ k w, s.SameButPower w → ∀ v ∈ g k w, s.SameButPower v) {o : Option State} (ho : ∀ w ∈ o, s.SameButPower w) :
    ∀ v ∈ l.foldl (fun o k => o.bind (g k)) o, s.SameButPower v := by
  induction l generalizing o with
  | nil => exact ho
  | cons k l ih =>
    refine ih fun v hv => ?_
    obtain ⟨w, hw, hv⟩ := Option.bind_eq_some_iff.1 hv
    exact hg k w (ho w hw) v hv

theorem State.SameButPower.takeMirror {ks : List Nat} {n : Nat} {f : Nat → Nat → Use} (hv : v ∈ u.takeMirror ks n f) : s.SameButPower v := by
  obtain ⟨bs, -, hv⟩ := Option.bind_eq_some_iff.1 hv
  refine .foldl_bind (fun k w hw v hv => ?_) (fun w hw => ?_) v hv
  · obtain ⟨b, -, rfl⟩ := Option.map_eq_some_iff.1 hv
    exact hw.markBlocks
  · cases hw
    exact h.markBlocks

theorem State.SameButPower.reserveUse {held : Use → Bool} {o : State → Option State}
    (ho : ∀ w, s.SameButPower w → ∀ v ∈ o w, s.SameButPower v) :
    s.SameButPower (u.reserveUse held o) := by
  unfold State.reserveUse
  split
  · exact h
  · split
    case h_1 v hv => exact ho u h v hv
    case h_2 => exact h

theorem State.SameButPower.startTables {die : Nat} : s.SameButPower (u.startTables die) := by
  unfold State.startTables
  dsimp only
  refine .reserveUse (.reserveUse (.reserveUse h ?_) ?_) ?_ <;> intro w hw v hv
  · exact hw.takeMirror hv
  · exact hw.takeMirror hv
  · exact hw.takeInternal hv

end

/-! ### The units of a sound start all answer (R2, R437, R439) -/

section
variable {s u : State} {x : StartInput} (hx : s.soundStart x) (h : s.SameButPower u)
include hx

theorem State.soundStart.of_ledger (e : u.nv.ledger = s.nv.ledger) : u.soundStart x := by
  unfold State.soundStart at hx ⊢
  rw [e]
  exact hx

include h

theorem State.SameButPower.sound : u.soundStart x := State.soundStart.of_ledger hx (by rw [h])

theorem State.SameButPower.startCores {die : Nat} : s.SameButPower (u.startCores x die) := by
  refine h.foldl fun v c _ hv => ?_
  rw [(hv.sound hx).unitBad rfl]
  exact hv

theorem State.SameButPower.startPortDie {n : Nat} (hn : n < 8) : s.SameButPower (u.startPortDie x n) := by
  have answered : unitAnswered x.pop 6 n = true := by
    obtain ⟨-, -, -, -, -, answers, -⟩ := hx
    exact bit_of_bits_ones answers hn
  unfold State.startPortDie
  rw [(h.sound hx).unitBad answered, (h.sound hx).unitBad rfl]
  exact h.powerDom.foldl fun _ _ _ hv => hv.modLink

theorem State.SameButPower.startHalf {die : Nat} (hd : die < 2) : s.SameButPower (u.startHalf x die) := by
  refine .foldl (.foldl (.foldl (h.startCores hx) ?_) ?_) ?_ <;> intro v k hk hv
  · exact hv.powerDom
  · rw [(hv.sound hx).unitBad rfl]
    exact hv
  · exact hv.startPortDie hx (by have := List.mem_range'_1.1 hk; omega)

theorem State.SameButPower.startStack {k : Nat} (hk : k < 20) : s.SameButPower (u.startStack x k) := by
  have answered : unitAnswered x.pop 2 k = true := by
    obtain ⟨-, -, -, -, answers, -⟩ := hx
    exact (congrArg (bit x.pop) (Nat.zero_add k)).symm.trans (bit_of_bits_ones answers hk)
  unfold State.startStack
  rw [(h.sound hx).unitBad answered]
  exact h.setStack.powerDom

omit hx h in
/-- The whole variant has every unit (R4). -/
theorem State.sized_whole (hv : u.chip.variant = 1) (n : Nat) : u.sized n = n := by
  unfold State.sized State.half
  rw [hv]
  rfl

theorem State.SameButPower.startBlocks : s.SameButPower (u.startBlocks x true) := by
  have blank : u.nv.ledger = [] := (h.sound hx).1
  unfold State.startBlocks
  rw [blank]
  exact h

/-- A working engine is left as it is (R437 step 6). -/
theorem State.soundStart.engine {e : Nat} (he : e < 32) :
    ¬ (x.absent.contains 1 = true ∧ ¬ u.ledgered 5 e = true) ∧ ¬ (u.ledgered 5 e = true ∨ (!unitAnswered x.pop 5 e) = true) := by
  have answered : unitAnswered x.pop 5 e = true := by
    obtain ⟨-, -, -, -, -, -, -, answers, -⟩ := hx
    exact bit_of_bits_ones answers he
  have present : x.absent = [] := by
    obtain ⟨-, -, -, -, -, -, -, -, present⟩ := hx
    exact present
  rw [present, answered, (h.sound hx).ledgered]
  decide

theorem State.SameButPower.startStacks (hv : s.chip.variant = 1) : s.SameButPower (u.startStacks x true) := by
  have whole {w : State} (hw : s.SameButPower w) (n : Nat) : w.sized n = n := State.sized_whole (by rw [hw]; exact hv) n
  have stacked : s.SameButPower ((List.range u.nStacks).foldl (fun s k => s.startStack x k) u) := h.foldl fun v k hk hw => by
    rw [State.nStacks, whole h] at hk
    exact hw.startStack hx (List.mem_range.1 hk)
  generalize hb : (List.range u.nStacks).foldl (fun s k => s.startStack x k) u = b at stacked
  have tabled : s.SameButPower ((List.range b.nDies).foldl State.startTables (b.startBlocks x true)) :=
    (stacked.startBlocks hx).foldl fun v die _ hw => hw.startTables
  unfold State.startStacks
  dsimp only
  rw [hb]
  refine .setFld (tabled.foldl fun v e he hw => ?_)
  rw [State.nEngines, whole tabled] at he
  obtain ⟨present, works⟩ := State.soundStart.engine hx hw (List.mem_range.1 he)
  rw [if_neg present, if_neg works]
  exact hw

end

theorem State.startStacks_stage (s : State) (x : StartInput) (warm : Bool) : (s.startStacks x warm).stage = 3 :=
  State.fld_setFld_self _ _ _ 0 0 (by decide)

/-! ### The start after a reset (R437, R438, R492, R493) -/

/-- The counters of a start whose record is written, under the same incarnation (R436, R493). -/
def Nv.warmer (nv : Nv) : Nv := { nv with epoch := (nv.epoch + 1) % 65536, starts := (nv.starts + 1) % 2 ^ 32, seq := nv.seq + 1 }

/-- Two states that differ in what the head of a start changes. -/
def State.SameButHead (s u : State) : Prop := u = { s with chip := u.chip, regs := u.regs, start := u.start, nv := u.nv }

theorem State.SameButHead.setFld {s u : State} (h : s.SameButHead u) {f : Fld} {v i j : Nat} : s.SameButHead (u.setFld f v i j) := by
  unfold State.SameButHead at h
  rw [h]
  rfl

theorem State.startHead_sameButHead (s : State) (x : StartInput) (warm kept : Bool) : s.SameButHead (s.startHead x warm kept) := by
  unfold State.startHead
  dsimp only
  refine .setFld (.setFld (.setFld ?_))
  rfl

theorem State.startHead_warm (s : State) (x : StartInput) (kept : Bool) : (s.startHead x true kept).start.warm = true := by
  unfold State.startHead
  simp only [State.setFld_start]

theorem State.startHead_nv (s : State) {x : StartInput} (hc : x.counterOk = true) : (s.startHead x true true).nv = s.nv.warmer := by
  unfold State.startHead
  simp only [State.setFld_nv, hc]
  rfl

theorem State.startHead_variant (s : State) {x : StartInput} (warm kept : Bool) (hp : bits x.pop 28 2 = 3) :
    (s.startHead x warm kept).chip.variant = 1 := by
  have die1 : bits x.pop 29 1 = 1 := by
    have answers : bit x.pop (28 + 1) = true := bit_of_bits_ones hp (by decide)
    exact beq_iff_eq.1 answers
  unfold State.startHead
  simp only [State.setFld_chip]
  exact if_pos (.inl die1)

theorem State.half_of_chip {s u : State} (h : u.chip = s.chip) : u.half = s.half := by
  unfold State.half
  rw [h]

/-- The head of a start after a reset that kept the region table. -/
def State.warmHead (s : State) (x : StartInput) : State := State.startHead { s with pwr := { s.pwr with lost := x.absent } } x true true

theorem State.warmHead_half (s : State) {x : StartInput} (hp : bits x.pop 28 2 = 3) : (s.warmHead x).half = false := by
  unfold State.half
  rw [State.warmHead, State.startHead_variant _ true true hp]
  rfl

section
variable {s : State} {x : StartInput} (hx : s.soundStart x)
include hx

theorem State.warmHead_sound : (s.warmHead x).soundStart x := by
  obtain ⟨-, -, -, counted, -⟩ := id hx
  unfold State.soundStart
  rw [State.warmHead, State.startHead_nv _ counted]
  exact hx

/-- A sound start runs through its first six steps (R437). -/
theorem State.startBegin_sound : s.startBegin x true true = (((s.warmHead x).startHalf x 0).startHalf x 1).startStacks x true := by
  obtain ⟨-, -, -, -, -, -, dies, -, present⟩ := id hx
  have sound := State.warmHead_sound hx
  have whole := s.warmHead_half dies
  unfold State.startBegin
  unfold State.warmHead at sound whole ⊢
  dsimp only
  rw [if_neg (by rw [present]; decide)]
  generalize State.startHead _ x true true = b at sound whole ⊢
  have half0 : b.SameButPower (b.startHalf x 0) := .startHalf sound (.refl b) (by decide)
  have sound0 := half0.sound sound
  have whole0 : (b.startHalf x 0).half = false := (State.half_of_chip half0.chip).trans whole
  rw [sound.unitBad (kind := 1) (unit := 0) (bit_of_bits_ones dies (by decide))]
  dsimp only
  rw [whole0, sound0.unitBad (kind := 1) (unit := 1) (bit_of_bits_ones dies (by decide)), sound0.unitBad (kind := 7) (unit := 4) rfl]
  rfl

/-- **A sound start after a reset** (R437 steps 1 to 6): it changes the chip, the counters and what powering changes, and stops before the arrays. -/
theorem State.startBegin_warm :
    (s.warmHead x).SameButPower (s.startBegin x true true) ∧ (s.startBegin x true true).stage = 3 := by
  obtain ⟨-, -, -, -, -, -, dies, -⟩ := id hx
  have sound := State.warmHead_sound hx
  have variant : (s.warmHead x).chip.variant = 1 := State.startHead_variant _ true true dies
  rw [State.startBegin_sound hx]
  exact ⟨.startStacks sound (.startHalf sound (.startHalf sound (.refl _) (by decide)) (by decide)) variant, State.startStacks_stage _ _ _⟩

end

/-! ### The device reset (R492, R493) -/

theorem State.deviceReset_kept {s : State} (hg : s.poolGone = false) (x : StartInput) : s.deviceReset x = s.warmWiped.startBegin x true true := by
  unfold State.deviceReset
  dsimp only
  rw [hg]
  exact if_pos rfl

/-- A device reset takes over the configuration memory, without an image that was being written (R454). -/
theorem State.resetBase_nv (s : State) : ∃ image, s.resetBase.nv = { s.nv with image := image } := by
  change ∃ image, (if s.fld F.SEC_STAGE_STATE = 4 then { s.nv with image := [] } else s.nv) = { s.nv with image := image }
  split
  · exact ⟨[], rfl⟩
  · exact ⟨s.nv.image, rfl⟩

theorem State.resetBase_part {s : State} (hr : Tbl.rising s.parts = true) (p : Nat) : s.resetBase.part p = partKept (s.part p) :=
  Tbl.get_filter_map partKept_none hr p

/-- What the wiped state and the end of step 6 have in common. -/
structure State.Kept (s u : State) : Prop where
  nv : u.nv = s.nv.warmer
  xl : u.xl = s.xl
  qm : u.qm = s.qm
  tr : u.tr = s.tr
  col : u.col = s.col
  sec : u.sec = s.sec
  parts : u.parts = s.parts
  node : u.node = s.node

theorem State.startBegin_kept {s : State} {x : StartInput} (hx : s.soundStart x) :
    s.Kept (s.startBegin x true true) ∧ (s.startBegin x true true).start.warm = true ∧
      (s.startBegin x true true).pwr.waiting = s.pwr.waiting ∧ (s.startBegin x true true).stage = 3 := by
  obtain ⟨-, -, -, counted, -⟩ := id hx
  obtain ⟨powered, stage⟩ := State.startBegin_warm hx
  have head : State.SameButHead { s with pwr := { s.pwr with lost := x.absent } } (s.warmHead x) := State.startHead_sameButHead _ x true true
  have nv : (s.warmHead x).nv = s.nv.warmer := State.startHead_nv _ counted
  have warm : (s.warmHead x).start.warm = true := State.startHead_warm _ x true
  generalize s.startBegin x true true = u at powered stage ⊢
  generalize s.warmHead x = b at powered head nv warm
  unfold State.SameButPower at powered
  unfold State.SameButHead at head
  refine ⟨⟨?nv, ?_, ?_, ?_, ?_, ?_, ?_, ?_⟩, ?warm, ?_, stage⟩ <;> rw [powered]
  case nv => exact nv
  case warm => exact warm
  all_goals rw [head]

/-- **A device reset** (R492, R493): what it leaves, and that its start waits for the arrays. -/
theorem State.deviceReset_leaves {s : State} {x : StartInput} (hx : s.soundStart x) (hg : s.poolGone = false) (hr : Tbl.rising s.parts = true) :
    s.resetLeaves (s.deviceReset x) ∧ (s.deviceReset x).stage = 3 ∧ (s.deviceReset x).pwr.waiting = none := by
  obtain ⟨same, shut⟩ := s.warmWiped_shuts hg
  obtain ⟨image, nv⟩ := s.resetBase_nv
  rw [State.deviceReset_kept hg]
  generalize s.warmWiped = w at same shut
  unfold State.SameButRegions at same
  have wnv : w.nv = { s.nv with image := image } := by rw [same]; exact nv
  have sound : w.soundStart x := .of_ledger hx (by rw [wnv])
  obtain ⟨kept, warm, waiting, stage⟩ := State.startBegin_kept sound
  generalize w.startBegin x true true = u at kept warm waiting stage
  have parts (p : Nat) : u.part p = partKept (s.part p) := by
    rw [← State.resetBase_part hr, State.part, kept.parts, same]
    rfl
  refine ⟨⟨warm, ?_, ?_, ?_, ?_, ?_, ?_, ?_, ?_, ?_, ?_, ?_, ?_, ?_, ?_, fun i => ?_, fun p hp => ?_, fun p hp => ?_⟩, stage, ?_⟩
  · rw [kept.nv, wnv]; rfl
  · rw [kept.nv, wnv]; rfl
  · rw [kept.nv, wnv]; rfl
  · rw [kept.node, same]; rfl
  · rw [kept.qm, same]; rfl
  · rw [kept.qm, same]; rfl
  · rw [kept.qm, same]; rfl
  · rw [kept.tr, same]; rfl
  · rw [kept.tr, same]; rfl
  · rw [kept.col, same]; rfl
  · rw [kept.col, same]; rfl
  · rw [kept.sec, same]; rfl
  · rw [kept.sec, same]; rfl
  · rw [kept.sec, same]; rfl
  · rw [State.region_of_xl kept.xl]
    exact shut i
  · rw [parts]
    exact partKept_of_lives hp
  · rw [parts]
    exact partKept_of_gone hp
  · rw [waiting, same]
    rfl

end Sys2Proof.Machine

namespace Sys2Proof.Proofs
open Sys2Proof.Machine

/-- Settles O46: a trip takes every domain that has not failed out of service, since nothing that the loss of its links and ports does can fail a
domain; a device reset waits for cool dies, and then leaves what a device reset leaves. -/
theorem tripsEndService : Obligations.TripsEndService := by
  unfold Obligations.TripsEndService
  refine ⟨?_, ?_, ?_, ?_, ?_⟩
  · intro s t die temp hd
    split
    case isTrue hot => exact exec_thermalTrip_trips hd hot
    case isFalse cool => exact ⟨_, exec_thermalTrip_below (Nat.lt_of_not_le cool), rfl⟩
  · intro s t w x hk hb hot
    rw [exec_lampResetWrite_key t x hk hb, State.askReset_hot (s := s.at t) hot]
    rfl
  · intro s t r x y hb hot
    refine ⟨_, exec_deviceReset_begins t y hb, ?_⟩
    rw [State.askReset_hot (s := (s.at t).delRec r) hot]
    exact ⟨rfl, rfl, rfl, rfl⟩
  · intro s t x hw
    exact exec_dieBelowWarnAt_idle t x hw
  · intro s t x hw hx hg hr
    obtain ⟨leaves, stage, waiting⟩ := State.deviceReset_leaves
      (s := { s.at t with pwr := { s.pwr with atWarn := [], waiting := none } }) hx hg hr
    exact ⟨_, exec_dieBelowWarnAt_reset t x hw, leaves, stage, waiting⟩

end Sys2Proof.Proofs
end
